-- ==== Sys2Proof/Word.lean ====
section
/-! DEFINITION. The word types of the LSC-9256 (R4 to R8 of 00_scope.md): 32-bit registers, 64-bit values, bytes of
memory, and a field of a register. The arithmetic over them stands in Machine/Bits.lean. -/

namespace Sys2Proof

/-- One 32-bit register (R8). -/
abbrev Word := BitVec 32

/-- A value that spans two registers (R8), such as the timestamp. -/
abbrev DWord := BitVec 64

/-- A field of a register: its lowest bit and its width in bits (R5). -/
structure Fld where
  lo : Nat
  len : Nat
  deriving DecidableEq, Repr

end Sys2Proof
end

