-- ==== Sys2Proof/Syntax.lean ====
section
/-! DEFINITION. The commands of the LSC-9256: one constructor per row of the opcode table, with the operands that the
outside world or the passing of time gives the command. A package channel is a number below 256 (R1), a region's target
t = 4·d + g one below 16 (R3), a die one below 4, a cluster p div 4 one below 64, a physical function one below 8. -/

namespace Sys2Proof

/-- A command. Each constructor cites the rule that its row of the opcode table names. -/
inductive Instr where
  /-- `REFIN_LOST` (R40): REFIN shows no edge for 200 ns or leaves 100 MHz ±500 ppm, so the PLL freezes and changes to
  the keep-alive oscillator, REF_SRC is set and REFIN_LOST is raised. -/
  | refinLost
  /-- `REFIN_RETURN` (R42): REFIN has been valid for 10 ms, so the PLL starts steering ROOT back onto it and SLEWING
  reads 1. -/
  | refinReturn
  /-- `PLL_RELOCK` (R42): The slew to the returned REFIN reaches lock, SLEWING clears and HUB_KA_UNC returns to 0. -/
  | pllRelock
  /-- `KA_MEASURE` (R43): Once per second with REFIN present, the hub measures the keep-alive frequency, refits its
  temperature model and sets LEARNED after 1 h. -/
  | kaMeasure (offset : Int)
  /-- `KA_UNC_ACCUMULATE` (R44): Once per LCLK-counted second in holdover, HUB_KA_UNC adds the holdover bound in
  nanoseconds. -/
  | kaUncAccumulate
  /-- `PLL_UNLOCK` (R45): The ROOT PLL loses lock on both references and PLL_UNLOCK is raised with the comparator-path
  PACKAGE_SAFE reaction. -/
  | pllUnlock
  /-- `TS_LO_READ` (R47): A read of HUB_TS_LO returns the low timestamp bits and latches the high bits of the same
  instant into the function's shadow. With the DWORDs that follow: the read requests for other registers that the host sends
  after it (R456), each with its function, its BAR0 offset and the DWORDs that follow; the table has no row for a plain read. -/
  | tsLoRead (f : Fin 8) (more : Nat × List (Fin 8 × Fin 134217728 × Nat))
  /-- `SYNC_PULSE` (R55): At every LCLK edge the hub issues a SYNC pulse down the rope; units and hops compare skew,
  dies check their timestamp replicas, and LCLK-edge accounting such as STRESS counting runs. -/
  | syncPulse (cmp : List Int) (hops : List Int) (drift : List (Fin 4 × DWord))
  /-- `CAL_FRAC_READ` (R50): A read of HUB_CAL_FRAC returns the fraction and latches the seconds of the same instant
  into shadows. -/
  | calFracRead (f : Fin 8) (more : Nat)
  /-- `CAL_SET` (R51): A write of 1 to HUB_CAL_CTRL.SET arms a calendar set, or discards it with SET_LATE if less than
  800 ticks ahead, and is ignored on a member. -/
  | calSet (f : Fin 8)
  /-- `CAL_SET_APPLY` (R51): At the apply timestamp of an armed set, the calendar becomes the given TAI second with
  fraction 0, the second grid restarts and VALID is set. -/
  | calSetApply
  /-- `LEAP_COMMIT` (R53): A write of 1 to LEAP_COMMIT checks the leap table and commits it, or keeps the previous
  table and sets LEAP_ERR. -/
  | leapCommit (f : Fin 8)
  /-- `CALENDAR_SECOND` (R54): A calendar second begins, so the UTC readout, LEAP, LEAP_NEG and LEAP_STALE update, and
  the anchor sends its calendar slot on DOWN. -/
  | calendarSecond
  /-- `CAL_JOURNAL` (R52): Every 64 s the hub journals the calendar to the NVM. -/
  | calJournal
  /-- `SKEW_CALIBRATION` (R56): At region image load and every 10 ms, a skew-calibration sequence starts averaging 256
  SYNC comparisons for each unit and each rope hop. -/
  | skewCalibration
  /-- `SKEW_CAL_DONE` (R56): A skew-calibration sequence completes and sets TRIM to the negated mean, after which the
  sample instant slews one 12.5 ps step per loop period. -/
  | skewCalDone
  /-- `HOP_CALIBRATION` (R60): An upstream package starts a ROPE hop calibration, at first alignment or at each RECAL
  interval, by sending an alignment marker with its timestamp and package number on DOWN. -/
  | hopCalibration
  /-- `ALIGN_MARKER_RX` (R60): The downstream package receives a step-1 alignment marker and returns it on UP with its
  turnaround time. -/
  | alignMarkerRx (pkg : Nat) (sent : Nat) (turn : Nat)
  /-- `ALIGN_RETURN_RX` (R60): The upstream package receives the returned marker, measures the round trip, computes the
  one-way delay and sends the step-5 marker. -/
  | alignReturnRx (back : Nat) (turn : Nat)
  /-- `ALIGN_LOAD` (R60): The downstream package receives the step-5 marker and sets its package number, then either
  loads its timestamp, interpolator and LCLK phase or slews its interpolator. -/
  | alignLoad (sent : Nat) (tow : Nat) (up : Nat)
  /-- `JOIN` (R70): A write of 1 to HUB_ALN_STAT.JOIN starts alignment to upstream when AUTO_JOIN = 0. -/
  | join (f : Fin 8)
  /-- `ROPE_LINK_UP` (R64): The upstream ROPE link comes up or returns, so the package measures its offset and removes
  it by slewing or by a step load. -/
  | ropeLinkUp (port : Fin 2) (up : Nat) (offset : Int)
  /-- `SYNC_IN_EDGE` (R67): An active SYNC_IN edge captures the timestamp, increments IN_CNT and, on the anchor with
  SYNC_IN_SET = 1, sets the calendar. -/
  | syncInEdge (rising : Bool)
  /-- `SYNC_OUT_PULSE` (R66): At each instant that OUT_SEL selects, SYNC_OUT drives a 100 ns high pulse. -/
  | syncOutPulse
  /-- `CALENDAR_SLOT_RX` (R68): A member receives the anchor's calendar slot, forwards it on DOWN, and when aligned
  makes its calendar that second and sets VALID. -/
  | calendarSlotRx (sec : Nat) (start : Nat)
  /-- `OUT_REQ_SET` (R77): A write of 1 to CH_CTRL.OUT_REQ sets the engine to automatic with the generator at 0, or is
  ignored by the cases of R79. -/
  | outReqSet (f : Fin 8) (p : Fin 256)
  /-- `SWITCH_CLOSE` (R77): At the next loop boundary after OUT_REQ is set, the output switch closes, the generator
  ramps to CH_SETPT and the NCO amplitude ramps in. -/
  | switchClose (p : Fin 256)
  /-- `OUT_REQ_CLEAR` (R78): A write of 0 to OUT_REQ opens the unit by the ramped path, or by the immediate path with
  OPEN_FAST = 1. -/
  | outReqClear (f : Fin 8) (p : Fin 256)
  /-- `SAFE_RAMP_END` (R76): A ramped safe path reaches 0, or its 1 ms limit, so the DAC takes mid-scale, the switch
  opens and the guard goes to 0 V. -/
  | safeRampEnd (p : Fin 256)
  /-- `SWITCH_MISMATCH` (R80): The output switch's state sense disagrees with its command for more than 2 µs, so
  SWITCH_MISMATCH is raised. -/
  | switchMismatch (p : Fin 256)
  /-- `CH_MODE_WRITE` (R91): A CH_MODE write is taken for the next eligible loop boundary, or held while a range change
  overlaps. -/
  | chModeWrite (f : Fin 8) (p : Fin 256) (v : Word)
  /-- `RANGE_CHANGE` (R92): At its boundary a range change closes the new element, switches the clamp, sets RNG_BUSY,
  rescales set-points, compliance and generator state, and breaks the old element 40 ECLK later. -/
  | rangeChange (p : Fin 256)
  /-- `RANGE_SETTLED` (R92): The count of 20 settling samples ends, so RNG_BUSY clears and RANGE_SETTLED is emitted. -/
  | rangeSettled (p : Fin 256)
  /-- `SETPT_WRITE` (R84): A write to CH_SETPT gives the generator a new target, clipped to ±1.0 with SETPT_CLIP. -/
  | setptWrite (f : Fin 8) (p : Fin 256) (v : Word)
  /-- `CMPL_WRITE` (R86): A write to CH_CMPL stores the compliance, clipped into 0x0080 to 0x8000 with CMPL_CLIP. -/
  | cmplWrite (f : Fin 8) (p : Fin 256) (v : Word)
  /-- `LOOP_PERIOD` (R116): At every loop sample instant, the engine samples, runs held parts and closing lanes,
  latches the DACs, runs generators, supervisory slots, checks, accumulation and marks. -/
  | loopPeriod (t : Fin 16) (vin : List (BitVec 18)) (iin : List (BitVec 18)) (pil : List (BitVec 18)) (sup : List Int)
  /-- `CLAMP_ENGAGE` (R89): The limited quantity exceeds 110 % of compliance, so the analog clamp engages within 200
  ns, sets CLAMP and CLAMP_SEEN and raises CLAMP_ENGAGED. -/
  | clampEngage (p : Fin 256)
  /-- `CLAMP_RELEASE` (R89): The limited quantity falls below 100 % of compliance, so the clamp releases and CLAMP and
  LIVE clear. -/
  | clampRelease (p : Fin 256)
  /-- `OPEN_LOAD` (R90): The open-load count reaches 16, so OPEN_LOAD is set and raised and the OPEN_LOAD event is
  emitted. -/
  | openLoad (p : Fin 256)
  /-- `NCO_APPLY` (R106): A write of 1 to CH_NCO_CTRL.APPLY schedules the staged FTW for the next boundary or for
  CH_NCO_AT, or starts a soft sequence. -/
  | ncoApply (f : Fin 8) (p : Fin 256)
  /-- `NCO_FTW_SWITCH` (R106): At the applying boundary the new FTW takes effect, limited to the ceiling FTW with
  NCO_CLIP. -/
  | ncoFtwSwitch (p : Fin 256)
  /-- `NCO_SOFT_ZERO` (R109): In a soft change the amplitude reaches 0, the new FTW applies at that boundary and the
  amplitude ramps back. -/
  | ncoSoftZero (p : Fin 256)
  /-- `NCO_SOFT_DONE` (R109): The amplitude has ramped back to CH_NCO_AMP, so NCO_SOFT clears. -/
  | ncoSoftDone (p : Fin 256)
  /-- `NCO_AMP_WRITE` (R108): A write to CH_NCO_AMP stores at most 0x8000 with NCO_CLIP, and the amplitude moves at the
  velocity limit. -/
  | ncoAmpWrite (f : Fin 8) (p : Fin 256) (v : Word)
  /-- `RATE_WRITE` (R135): A write of ENG_CTRL.RATE sets RATE_PEND and waits for the next timestamp that is a multiple
  of 80,000. -/
  | rateWrite (f : Fin 8) (t : Fin 16) (v : Word)
  /-- `RATE_CHANGE` (R135): At the rate instant the new loop rate applies, staged coefficients apply, generators
  adjust, and invalid filters are adjusted. -/
  | rateChange (t : Fin 16)
  /-- `COEF_WRITE` (R132): A coefficient write takes effect from period n + 1, or is staged with COEF_PEND when
  HOLD_COEF = 1. -/
  | coefWrite (f : Fin 8) (p : Fin 256) (c : Fin 10) (v : Word)
  /-- `COEF_RELEASE` (R132): A write of 0 to HOLD_COEF applies every staged coefficient of the unit at one boundary. -/
  | coefRelease (f : Fin 8) (p : Fin 256)
  /-- `RC_CLR` (R131): A write of 1 to ENG_UCTRL.RC_CLR fills the unit's learning table with 0. -/
  | rcClr (f : Fin 8) (p : Fin 256)
  /-- `AUTO_CLEAR` (R136): A write of AUTO = 0 requests manual at the next period boundary. -/
  | autoClear (f : Fin 8) (p : Fin 256)
  /-- `MANUAL_TRANSFER` (R136): At the boundary the engine copies CH_DAC into ENG_MANUAL, latches the manual code from
  then on, and clears IN_CMPL. -/
  | manualTransfer (p : Fin 256)
  /-- `AUTO_SET` (R137): A write of AUTO = 1 requests automatic at the next boundary, or is ignored under a reaction, a
  shadow or a moving lost-feedback reaction. -/
  | autoSet (f : Fin 8) (p : Fin 256)
  /-- `AUTO_TRANSFER` (R137): At the boundary both path integrators are preset bumplessly from ENG_MANUAL, and the
  generator restarts from the measured value. -/
  | autoTransfer (p : Fin 256)
  /-- `ENG_MANUAL_WRITE` (R138): A write to ENG_MANUAL reaches the DAC latch of this or the next period in manual, or
  is only stored while the unit is in its safe state. -/
  | engManualWrite (f : Fin 8) (p : Fin 256) (v : Word)
  /-- `FEEDBACK_FROZEN` (R140): A loop ADC repeats its code for 64 samples, so FEEDBACK_FROZEN is raised and the
  lost-feedback reaction starts. -/
  | feedbackFrozen (p : Fin 256)
  /-- `FEEDBACK_IMPLAUSIBLE` (R143): The out-of-envelope count reaches COUNT, so FEEDBACK_IMPLAUSIBLE is raised and the
  lost-feedback reaction starts. -/
  | feedbackImplausible (p : Fin 256)
  /-- `PL_LEARNED` (R142): The plausibility model has adapted on 4,096 in-envelope samples, so PL_LEARNED becomes 1. -/
  | plLearned (p : Fin 256)
  /-- `PL_LOAD_WRITE` (R142): A write to ENG_PL_R or ENG_PL_C clears PL_LEARNED and restarts learning. -/
  | plLoadWrite (f : Fin 8) (p : Fin 256) (c : Bool) (v : Word)
  /-- `LOF_HOLD` (R144): Under BELAY_HOLD the open-loop code reaches the last good code, so the unit holds, sets BELAY
  and emits LOF_HOLD. -/
  | lofHold (p : Fin 256)
  /-- `LOF_SAFE_OPEN` (R144): Under SAFE the open-loop ramp reaches mid-scale or 1 ms, so the switch opens and the unit
  ends in the state of R75. -/
  | lofSafeOpen (p : Fin 256)
  /-- `PROFILE_LIMIT_WRITE` (R153): A write to a PRF limit register applies at rest, is staged with LIM_PEND while
  moving, or is ignored with LIM_ERR. -/
  | profileLimitWrite (f : Fin 8) (p : Fin 256) (l : Fin 6) (v : Word)
  /-- `LIMITS_APPLY` (R161): At the first boundary with MOVING = 0, staged profile limits apply and nf is recomputed.
  -/
  | limitsApply (p : Fin 256)
  /-- `WF_START` (R172): A write of 1 to PRF_CTRL.START starts playback at START_SEG, or is ignored with START_IGN
  while running. -/
  | wfStart (f : Fin 8) (t : Fin 16)
  /-- `WF_SAMPLE` (R172): At each sample period, the next waveform sample enters the generators of the units that
  follow it. -/
  | wfSample (t : Fin 16)
  /-- `WF_PASS_END` (R173): The last sample of a pass has entered, so the player takes a pending jump, the next pass or
  the successor, or stops with WF_END. -/
  | wfPassEnd (t : Fin 16)
  /-- `WF_JUMP_REQ` (R176): A write of 1 to PRF_WF_JUMP.REQ requests a jump to TARGET, replacing any pending request
  with JUMP_REPL. -/
  | wfJumpReq (f : Fin 8) (t : Fin 16)
  /-- `WF_ABORT` (R173): A write of 1 to PRF_CTRL.ABORT stops the player at the next sample boundary with targets kept.
  -/
  | wfAbort (f : Fin 8) (t : Fin 16)
  /-- `WF_WAIT_END` (R175): At the first eligible loop boundary after the trigger, a waiting segment's sample 0 enters
  and the sample grid restarts. -/
  | wfWaitEnd (t : Fin 16)
  /-- `STR_POST` (R179): A write to PRF_STR_POST posts filled granules, pays skip debt first, and refuses excess with
  OVERPOST. -/
  | strPost (f : Fin 8) (t : Fin 16) (v : Word)
  /-- `UNDERRUN` (R181): A stream granule is not in time, so the underrun episode begins in HOLD or STALL, and UNDERRUN
  is raised and counted. -/
  | underrun (t : Fin 16)
  /-- `STALL_RESUME` (R181): In STALL, the missing granule's post arrives and its sample 0 enters at the next eligible
  boundary, restarting the sequence timebase. -/
  | stallResume (t : Fin 16)
  /-- `SEQ_START` (R207): A write of 1 to SEQ_CTRL.START sets RUNNING, clears the stack and STEPNUM and starts building
  at SEQ_START_PC. -/
  | seqStart (f : Fin 8) (t : Fin 16)
  /-- `SEQ_STOP_REQ` (R207): A write of 1 to SEQ_CTRL.STOP discards the footholds and stops the sequencer when the
  confirmed step closes. -/
  | seqStopReq (f : Fin 8) (t : Fin 16)
  /-- `SEQ_ABORT` (R205): A write of 1 to SEQ_CTRL.ABORT squashes every foothold and closes the confirmed step with
  outcome ABORT at the next eligible boundary. -/
  | seqAbort (f : Fin 8) (t : Fin 16)
  /-- `CONT` (R207): A write of 1 to SEQ_CTRL.CONT stays pending until a HOST barrier consumes it. -/
  | cont (f : Fin 8) (t : Fin 16)
  /-- `NOP` (R194): Sequencer instruction with no effect. -/
  | seqNop (t : Fin 16)
  /-- `HALT` (R194): Terminator whose commit stops the sequencer. -/
  | seqHalt (t : Fin 16)
  /-- `GO` (R194): Terminator that ends a step with dwell DWELL. -/
  | seqGo (t : Fin 16)
  /-- `SWEEP` (R194): Terminator that fetches sweep entry SWP, and its site context when it names one, and stages them
  for commit. -/
  | seqSweep (t : Fin 16)
  /-- `UMASK` (R194): Sets the units that later unit actions address. -/
  | seqUmask (t : Fin 16)
  /-- `SET` (R195): Stages a parameter value for every unit of UMASK. -/
  | seqSet (t : Fin 16)
  /-- `FORCE` (R194): Stages an OUT_REQ write or an immediate open for the units of UMASK. -/
  | seqForce (t : Fin 16)
  /-- `MEAS` (R194): Stages the opening of a measurement window for the units of UMASK. -/
  | seqMeas (t : Fin 16)
  /-- `RNGA` (R199): Requests range look-ahead tap readings for the units of UMASK. -/
  | seqRnga (t : Fin 16)
  /-- `SITE` (R194): Sets SITE, fetches the context and optionally stages its site-select pattern. -/
  | seqSite (t : Fin 16)
  /-- `SITEW` (R299): Draws the next output of a walker stream as the site, pattern and level of the step. -/
  | seqSitew (t : Fin 16)
  /-- `WAITT` (R208): Adds a commit gate on trigger input STRIGn. -/
  | seqWaitt (t : Fin 16)
  /-- `WAITTM` (R194): Adds a commit gate of TICKS of sequence time after the predecessor's close. -/
  | seqWaittm (t : Fin 16)
  /-- `FIRE` (R203): Stages a firing of a die event channel at commit. -/
  | seqFire (t : Fin 16)
  /-- `LDC` (R194): Loads a counter with an immediate. -/
  | seqLdc (t : Fin 16)
  /-- `ADDC` (R194): Adds a sign-extended immediate to a counter. -/
  | seqAddc (t : Fin 16)
  /-- `LOOP` (R194): Decrements a non-zero counter and branches while it stays non-zero. -/
  | seqLoop (t : Fin 16)
  /-- `JMP` (R194): Branches unconditionally. -/
  | seqJmp (t : Fin 16)
  /-- `BRZ` (R194): Branches when a counter is 0. -/
  | seqBrz (t : Fin 16)
  /-- `BRV` (R194): Branches on a verdict bit, waiting for the predecessor's verdict. -/
  | seqBrv (t : Fin 16)
  /-- `BRO` (R194): Branches on the outcome of the most recently closed step, waiting for it. -/
  | seqBro (t : Fin 16)
  /-- `BRE` (R194): Branches when the END flag E is 1. -/
  | seqBre (t : Fin 16)
  /-- `CALL` (R194): Pushes the return address and branches. -/
  | seqCall (t : Fin 16)
  /-- `RET` (R194): Pops a return address and branches. -/
  | seqRet (t : Fin 16)
  /-- `BARRIER` (R207): Stops foothold building until every earlier step has closed, optionally forming a quiescent
  point or waiting for CONT. -/
  | seqBarrier (t : Fin 16)
  /-- `LDS` (R194): Loads the sweep index SWP. -/
  | seqLds (t : Fin 16)
  /-- `TAP_READING` (R199): A pilot tap reading of four conversions completes and gives |I| for range look-ahead. -/
  | tapReading (p : Fin 256) (mag : Nat)
  /-- `STEP_COMMIT` (R203): At a boundary whose decision point meets every condition, F1 commits and its staged actions
  take effect in order. -/
  | stepCommit (t : Fin 16)
  /-- `STEP_CLOSE` (R201): The confirmed step closes at its boundary with an outcome, and on a non-clean outcome
  footholds are discarded and a vector or stop follows. -/
  | stepClose (t : Fin 16)
  /-- `FILT_WRITE` (R221): A MEA_U_FILT write is taken for the next eligible boundary, or ignored with FILT_ERR when
  invalid. -/
  | filtWrite (f : Fin 8) (p : Fin 256) (v : Word)
  /-- `FILTER_CHANGE` (R221): At its boundary the measurement stream clears both filter stages and marks its next
  outputs SETTLE. -/
  | filterChange (p : Fin 256)
  /-- `MEAS_VALUE_OUTPUT` (R218): At an output instant a measurement value is corrected and admitted to open windows as
  a record, a reducer value job, or both. -/
  | measValueOutput (p : Fin 256)
  /-- `BANK_COMMIT` (R224): A write of 1 to MEA_U_BANK.COMMIT schedules the bank swap, or is ignored with COMMIT_IGN
  while a commit is pending. -/
  | bankCommit (f : Fin 8) (p : Fin 256)
  /-- `BANK_SWAP` (R224): At the boundary the other calibration bank becomes active and is handed to the hub for the
  journal. -/
  | bankSwap (p : Fin 256)
  /-- `BANK_JOURNAL_DONE` (R224): The bank's journal record completes, JPEND clears, and a waiting internal
  recalibration may commit. -/
  | bankJournalDone (p : Fin 256)
  /-- `WINDOW_CLOSE` (R226): A measurement window reaches its close, so it stops admitting, enqueues its close job and
  emits WIN_CLOSE. -/
  | windowClose (t : Fin 16) (n : Fin 16)
  /-- `SUSPECT_END` (R233): 400 ns after the last saturated sample the cluster's SUSPECT interval ends. -/
  | suspectEnd (k : Fin 64)
  /-- `PILOT_ROTATION_TICK` (R238): A rotation tick with the pilot free starts the handover of the next slice with
  pilot self-trim. -/
  | pilotRotationTick (k : Fin 64)
  /-- `PILOT_SELF_TRIM_DONE` (R238): Pilot self-trim ends, its trims are set, and shadow-in begins. -/
  | pilotSelfTrimDone (k : Fin 64) (off : Int) (gain : Int) (refs : List Int)
  /-- `PILOT_SHADOW_IN_DONE` (R239): Shadow-in reaches 1,024 accepted pairs and its mean difference is compared with
  DIS_LSB. -/
  | pilotShadowInDone (k : Fin 64)
  /-- `PILOT_SWAP` (R238): At a boundary outside any SUSPECT interval, the pilot takes the slice's role and PILOT_SWAP
  is emitted. -/
  | pilotSwap (k : Fin 64)
  /-- `SLICE_TRIM_DONE` (R238): The slice's reference trim ends, its new trims are set, and shadow-out begins. -/
  | sliceTrimDone (k : Fin 64) (off : Int) (gain : Int)
  /-- `PILOT_SHADOW_OUT_DONE` (R239): Shadow-out reaches 1,024 accepted pairs and its mean difference is compared with
  DIS_LSB. -/
  | pilotShadowOutDone (k : Fin 64)
  /-- `PILOT_RETURN` (R238): At a boundary outside any SUSPECT interval, the slice resumes its role, the pilot is free
  and PILOT_RETURN is emitted. -/
  | pilotReturn (k : Fin 64)
  /-- `PILOT_ABANDON` (R239): 4,096 loop samples pass in a shadow phase without 1,024 accepted pairs, so the handover
  is abandoned and the slice's trims are restored. -/
  | pilotAbandon (k : Fin 64)
  /-- `RESTORE` (R242): A write of 1 to MEA_PIL_CTRL.RESTORE retries a substituted slice or the pilot's self-trim, or
  is refused with BUSY. -/
  | restore (f : Fin 8) (k : Fin 64)
  /-- `SELF_TEST` (R244): A MEA_REQ of KIND 0 runs a full self-test on an idle unit, or is refused with BUSY. -/
  | selfTest (f : Fin 8) (t : Fin 16) (u : Fin 16)
  /-- `RECALIBRATION` (R244): A MEA_REQ of KIND 1 runs an internal recalibration on an idle unit, or queues it. -/
  | recalibration (f : Fin 8) (t : Fin 16) (u : Fin 16)
  /-- `PILOT_ONLY` (R244): A MEA_REQ of KIND 2 runs pilot phase 0 with RAW records, or is refused with UNAVAIL. -/
  | pilotOnly (f : Fin 8) (t : Fin 16) (u : Fin 16)
  /-- `SELF_TEST_DONE` (R245): A self-test completes, setting PASS, FAIL and DONE. -/
  | selfTestDone (p : Fin 256) (fail : BitVec 8)
  /-- `RECAL_DONE` (R245): An internal recalibration completes its new bank and commits it by R224. -/
  | recalDone (p : Fin 256) (data : List (Word × Word))
  /-- `RECAL_DEQUEUE` (R244): A unit with a queued recalibration becomes idle, so the recalibration starts. -/
  | recalDequeue (p : Fin 256)
  /-- `VALUE_JOB` (R254): The reducer takes a value job from its queue, loads the context and runs the kernel's value
  section, unless the value is excluded or the context is poisoned. -/
  | valueJob (t : Fin 16)
  /-- `CLOSE_JOB` (R254): The reducer runs the close section of each context of a closed window, and the verdict is
  copied to SEQ_VERD once all close jobs complete. -/
  | closeJob (t : Fin 16)
  /-- `END` (R262): Ends the kernel section. -/
  | kEnd (t : Fin 16)
  /-- `MOV` (R262): Copies an operand. -/
  | kMov (t : Fin 16)
  /-- `ADD` (R262): Adds two operands in binary64. -/
  | kAdd (t : Fin 16)
  /-- `SUB` (R262): Subtracts two operands in binary64. -/
  | kSub (t : Fin 16)
  /-- `MUL` (R262): Multiplies two operands in binary64. -/
  | kMul (t : Fin 16)
  /-- `FMA` (R262): Performs a fused multiply-add into the destination. -/
  | kFma (t : Fin 16)
  /-- `DIV` (R262): Divides two operands in binary64. -/
  | kDiv (t : Fin 16)
  /-- `SQRT` (R262): Takes the square root of an operand. -/
  | kSqrt (t : Fin 16)
  /-- `MIN` (R262): Takes the lesser operand, ignoring a NaN. -/
  | kMin (t : Fin 16)
  /-- `MAX` (R262): Takes the greater operand, ignoring a NaN. -/
  | kMax (t : Fin 16)
  /-- `ABS` (R262): Takes the magnitude of an operand. -/
  | kAbs (t : Fin 16)
  /-- `KSUM` (R262): Adds an operand to a compensated Neumaier sum pair. -/
  | kKsum (t : Fin 16)
  /-- `CHG` (R266): Adds the operand times DT to a compensated charge-integral pair. -/
  | kChg (t : Fin 16)
  /-- `WELF` (R262): Performs a Welford update of count, mean and squared deviations. -/
  | kWelf (t : Fin 16)
  /-- `VARF` (R262): Derives variance and RMS from a Welford block. -/
  | kVarf (t : Fin 16)
  /-- `LINR` (R262): Accumulates linear-regression sums of T and X. -/
  | kLinr (t : Fin 16)
  /-- `LINF` (R262): Derives slope and intercept from a LINR block. -/
  | kLinf (t : Fin 16)
  /-- `HIST` (R262): Increments the histogram bin of an operand. -/
  | kHist (t : Fin 16)
  /-- `GCOEF` (R264): Sets up a Goertzel block for a harmonic of the unit's NCO frequency. -/
  | kGcoef (t : Fin 16)
  /-- `GRTZ` (R264): Performs one Goertzel step on an operand, taking the NCO reference phase at the first step. -/
  | kGrtz (t : Fin 16)
  /-- `GFIN` (R265): Computes amplitude, phase, in-phase and quadrature from a Goertzel block. -/
  | kGfin (t : Fin 16)
  /-- `SKF` (R262): Skips the next instruction when an F bit is 1. -/
  | kSkf (t : Fin 16)
  /-- `SKNF` (R262): Skips the next instruction when an F bit is 0. -/
  | kSknf (t : Fin 16)
  /-- `SKLT` (R262): Skips the next instruction when a < b. -/
  | kSklt (t : Fin 16)
  /-- `LIM` (R267): Sets or clears a verdict bit from a limit pair of the site or the constants. -/
  | kLim (t : Fin 16)
  /-- `VSET` (R262): Sets or clears a verdict bit from an operand. -/
  | kVset (t : Fin 16)
  /-- `BINV` (R267): Writes the bin derived from V to a bin-result slot of the site context. -/
  | kBinv (t : Fin 16)
  /-- `STS` (R262): Writes an operand as binary32 to a summary slot of the site context. -/
  | kSts (t : Fin 16)
  /-- `LDSS` (R262): Loads a summary slot of the site context. -/
  | kLdss (t : Fin 16)
  /-- `EMIT` (R269): Emits a result record of kind 2 + tag with an operand's value. -/
  | kEmit (t : Fin 16)
  /-- `EVT` (R262): Fires producer RDC_VEVTp, optionally only when V is non-zero. -/
  | kEvt (t : Fin 16)
  /-- `HEMIT` (R269): Emits the context's histogram as HBINS records of kind 10. -/
  | kHemit (t : Fin 16)
  /-- `COUNT_CHECK` (R271): Every millisecond, each unit's count identity is checked, and a new non-zero difference
  raises COUNT_MISMATCH. -/
  | countCheck
  /-- `RDC_PROD_LO_READ` (R277): A read of RDC_PROD_LO copies all five counts of the unit, taken at one tick, into the
  function's shadows. -/
  | rdcProdLoRead (f : Fin 8) (p : Fin 256) (more : Nat)
  /-- `ACC_FOLD` (R286): Every millisecond, each unit's pending stress and charge increments are folded into its site
  context. -/
  | accFold
  /-- `SNAP` (R287): A write of 1 to SITE_ACC_CTRL.SNAP folds and copies STRESS and CHARGE of SITE_ACC_SEL into the
  snapshot registers. -/
  | snap (f : Fin 8) (d : Fin 4)
  /-- `CLR` (R287): A write of 1 to SITE_ACC_CTRL.CLR folds and zeroes STRESS, CHARGE, CHG_OVR and CHG_SAT of
  SITE_ACC_SEL. -/
  | clr (f : Fin 8) (d : Fin 4)
  /-- `SITE_SNAPSHOT` (R288): Every INTERVAL_S with EN = 1, the hub journals a snapshot of each context whose
  accumulators changed. -/
  | siteSnapshot (d : Fin 4)
  /-- `SITE_JOURNAL_GO` (R288): A write of 1 to SITE_JCTRL.GO writes full records of the selected contexts, with BUSY
  set until done. -/
  | siteJournalGo (f : Fin 8) (d : Fin 4)
  /-- `SITE_PATTERN_DRIVE` (R293): BREAK_US after a switch's start, the port drives the new address and data and raises
  SSTB. -/
  | sitePatternDrive (d : Fin 4)
  /-- `SITE_MAKE` (R293): SSTB falls, SEN rises and SBRK falls at the make instant, so relays count and SITE_MAKE is
  emitted. -/
  | siteMake (d : Fin 4)
  /-- `SITE_SETTLED` (R295): Settle ends at S + SETTLE_US, on SRDY, or at the SRDY timeout with SITE_PORT_TMO, and
  SITE_SETTLED is emitted. `srdy` gives the instant at which SRDY is seen high, and the levels of the other input balls. -/
  | siteSettled (d : Fin 4) (srdy : Option Nat × Fin 16)
  /-- `SITE_PORT_ERR` (R297): SERR_N is low for more than 1 µs with SERR_EN = 1, so SITE_PORT_ERR is raised. -/
  | sitePortErr (d : Fin 4)
  /-- `RESTART` (R303): A write of 1 to SITE_WS_CTRL_s.RESTART returns the stream to its first position and squashes
  the region's footholds. -/
  | restart (f : Fin 8) (d : Fin 4) (k : Fin 4)
  /-- `CLR_CNT` (R305): A write of 1 to LIFE_RW_CTRL.CLR_CNT zeroes the selected relay's count, re-arms its warning and
  records the replacement. -/
  | clrCnt (f : Fin 8)
  /-- `EVENT_ROUTE` (R321): A die channel's firings of one tick route as one weighted event with lineage check, and
  gated consumers act one tick later. With the channel: the transfer fails its parity in the route stage (R333). -/
  | eventRoute (d : Fin 4) (n : Fin 512 × Bool)
  /-- `PACKAGE_EVENT_ROUTE` (R322): A package channel transfer reaches the hub and routes there, onward to its
  consumers and to any system channel. With the channel: the transfers that fail their parity, 4 that into the hub, 0 to
  3 that to the die (R333). -/
  | packageEventRoute (n : Fin 256 × List (Fin 5))
  /-- `SYSTEM_EVENT_RX` (R322): A ROPE event slot arrives, is forwarded with hops + 1, and is delivered or held for its
  aligned instant. With the hops: the source package (R353); with the weight: the transfer fails its parity (R333). -/
  | systemEventRx (port : Fin 2) (j : Fin 64) (issue : Nat) (hops : Fin 16 × Fin 16) (w : Fin 8 × Bool) (lin : Fin 8)
  /-- `SYSTEM_EVENT_DELIVER` (R323): At I + 64 + 48·HOPS, the consumers of a system channel act in every package. With the
  channel: the dies whose transfer fails its parity (R333). -/
  | systemEventDeliver (j : Fin 64 × List (Fin 4))
  /-- `CLASS2_CREDIT_RETURN` (R322): A channel's class 2 credit returns at a hop, so the transfer waiting there leaves.
  -/
  | class2CreditReturn (n : Fin 320) (h : Fin 10)
  /-- `EVT_FIRE` (R325): A write to EVT_FIRE fires one die channel at the route stage, subject to R326. -/
  | evtFire (f : Fin 8) (d : Fin 4) (v : Word)
  /-- `EVT_FIRE_SET` (R326): A write to EVT_FIRE_SET_k fires every allowed channel whose bit is 1 in one tick. -/
  | evtFireSet (f : Fin 8) (d : Fin 4) (k : Fin 16) (v : Word)
  /-- `EVT_SLVL_WRITE` (R326): A write to EVT_SLVL_k stores the software level bits the function may write. -/
  | evtSlvlWrite (f : Fin 8) (d : Fin 4) (k : Fin 16) (v : Word)
  /-- `EVT_PFIRE` (R325): A write to EVT_PFIRE fires a package channel. -/
  | evtPfire (f : Fin 8) (v : Word)
  /-- `EVT_SFIRE` (R325): A write to EVT_SFIRE fires a system channel at its source package, and is refused elsewhere.
  -/
  | evtSfire (f : Fin 8) (v : Word)
  /-- `EVIO_INPUT_EDGE` (R332): An active edge on an EVIO input is registered as producer edge 0xC00 + k. -/
  | evioInputEdge (d : Fin 4) (k : Fin 8) (high : Bool)
  /-- `EVIO_PULSE_END` (R332): PW ticks after it began, an EVIO output pulse ends and the pin is idle again. -/
  | evioPulseEnd (d : Fin 4) (k : Fin 8)
  /-- `EVT_CAP_LO_READ` (R336): A read of EVT_CAP_LO_m latches the capture's high bits into the function's shadow. -/
  | evtCapLoRead (f : Fin 8) (d : Fin 4) (m : Fin 8) (more : Nat)
  /-- `RECORD_DELIVER` (R343): A result record reaches the hub and is written to its ring and TAIL advanced, or dropped
  and counted with DROP_SINCE. -/
  | recordDeliver
  /-- `SPINE_RECORD_SEND` (R349): A record leaves its region's result buffer on a class 1 quota credit, making room for
  a waiting kernel record. -/
  | spineRecordSend (t : Fin 16)
  /-- `RING_WRITEBACK` (R343): After WB_CNT records or WB_US, the hub writes TAIL and the drop count to DMA_RING_WB
  and, with IEN, sends MSI-X. -/
  | ringWriteback (r : Fin 64)
  /-- `RING_HEAD_WRITE` (R341): A write of DMA_RING_HEAD releases slots, or is ignored with HEAD_ERR when it goes
  beyond TAIL or backwards. -/
  | ringHeadWrite (f : Fin 8) (r : Fin 64) (v : Word)
  /-- `RING_ENABLE` (R341): A write of CTRL.EN = 1 enables the ring and sets TAIL to HEAD. -/
  | ringEnable (f : Fin 8) (r : Fin 64) (v : Word)
  /-- `HOST_STALL` (R345): Posted-write credits stay exhausted for STALL_US, or the link is down, so class 1 records
  are dropped and HOST_STALL is raised. -/
  | hostStall
  /-- `HOST_STALL_END` (R345): A posted write is accepted again, so the stall ends and STALL clears. -/
  | hostStallEnd
  /-- `NOTICE_SEND` (R346): After 64 fates or 1 µs, the hub sends a unit's completion notice to its die. -/
  | noticeSend (p : Fin 256)
  /-- `COMPLETION_NOTICE` (R346): A completion notice arrives at the die and moves counts from FLIGHT to DELIV or DROP.
  -/
  | completionNotice (d : Fin 4)
  /-- `PCIE_HOT_RESET` (R340): A PCIe hot reset returns every ring descriptor to reset while forcing, sequencing,
  reduction and the spine continue. -/
  | pcieHotReset
  /-- `PCIE_LINK_DOWN` (R340): The PCIe link goes down, disabling every ring. -/
  | pcieLinkDown
  /-- `D3HOT_ENTRY` (R340): A function enters D3hot, disabling the rings it owns. -/
  | d3hotEntry (f : Fin 8)
  /-- `D3HOT_EXIT` (R468): A function returns to D0 and sends the messages its set STAT bits hold. -/
  | d3hotExit (f : Fin 8)
  /-- `SPINE_CRC` (R350): A spine transfer fails its CRC, so it is replayed and SPINE_CRC is raised. -/
  | spineCrc (d : Fin 4)
  /-- `SPINE_RETRAIN` (R350): 32 consecutive replays fail, so the spine link retrains and SPINE_RETRAIN is raised once
  per outage. -/
  | spineRetrain (d : Fin 4)
  /-- `SPINE_DOWN` (R350): Retraining fails a third time, so SPINE_DOWN is raised and retries every 10 ms begin. -/
  | spineDown (d : Fin 4)
  /-- `SPINE_RETRY` (R350): 10 ms after a failed retrain, the spine retrains again. -/
  | spineRetry (d : Fin 4)
  /-- `SPINE_UP` (R350): A spine retrain succeeds, replay resumes without loss, and the outage sources leave LIVE. -/
  | spineUp (d : Fin 4)
  /-- `REG_ACCESS_TIMEOUT` (R350): A host access to a die with its spine down completes after 1 ms: a read returns
  0xFFFF_FFFF, a write is discarded, and REG_TMO is set. -/
  | regAccessTimeout (f : Fin 8) (d : Fin 4) (read : Bool)
  /-- `ROPE_FRAME_RX` (R352): A ROPE frame arrives, its CRC is checked, credits are returned and its slots are
  dispatched. `bad` names the slots that fail their parity (R333). -/
  | ropeFrameRx (port : Fin 2) (frame : List (BitVec 8)) (phase : Nat) (bad : List (Fin 7))
  /-- `ROPE_NAK_RX` (R355): A NAK arrives, so the sender replays every frame after ACKSEQ from its replay buffer. -/
  | ropeNakRx (port : Fin 2) (n : Fin 17)
  /-- `ROPE_LINK_DOWN` (R355): Block lock is lost for 1 µs or 8 consecutive frames fail, so the link goes down and the
  package becomes unroped. -/
  | ropeLinkDown (port : Fin 2) (lanes : Fin 16)
  /-- `ROPE_RETRAIN` (R355): Every 1 ms while a ROPE link is down, it retrains. -/
  | ropeRetrain (port : Fin 2) (lanes : Fin 16)
  /-- `ROPE_FAULT_SLOT_RX` (R357): A fault-report slot arrives, is forwarded, counts in ROPE_PEER_FLT and may raise
  ROPE_PEER_SAFE. -/
  | ropeFaultSlotRx (port : Fin 2) (pkg : Fin 16) (src : BitVec 16) (sev : BitVec 8) (live : Bool) (ts : DWord)
  /-- `MANAGEMENT_SLOT_RX` (R357): A management slot arrives and is forwarded toward its destination or enters the
  receive queue. -/
  | managementSlotRx (port : Fin 2) (dest : Fin 16) (src : Fin 16) (num : BitVec 8) (len : Fin 9) (data : DWord)
  /-- `AUDIT_SLOT_RX` (R359): An audit slot arrives and completes the check of a ROPE pool for its audit instant. -/
  | auditSlotRx (port : Fin 2) (k : Fin 4) (occ : BitVec 16) (owed : BitVec 16)
  /-- `BEACON_RX` (R353): A timestamp beacon slot arrives and ends at the receiving hub. -/
  | beaconRx (port : Fin 2) (ts : DWord)
  /-- `MBX_SEND` (R357): A write of 1 to ROPE_MBX_TX.GO numbers the staged message and sends it when a class 3 credit
  is free. -/
  | mbxSend (f : Fin 8) (dest : Fin 16) (len : Fin 16)
  /-- `MBX_RXC_READ` (R357): A read of ROPE_MBX_RXC returns the head entry's control word and removes the entry. -/
  | mbxRxcRead (f : Fin 8) (more : Nat)
  /-- `CREDIT_AUDIT` (R359): Every millisecond, each credit pool's counts are frozen and summed against its total. -/
  | creditAudit (lost : List (Nat × Nat))
  /-- `VERIFY` (R370): IMG_CMD OP 1 checks the staging buffer's image. -/
  | verify (f : Fin 8) (target : Fin 32)
  /-- `WRITE_SLOT` (R373): IMG_CMD OP 2 verifies the staged image and stores it into an NVM slot, or is refused with
  SLOT_IN_USE. -/
  | writeSlot (f : Fin 8) (target : Fin 32) (slot : Fin 2)
  /-- `APPLY` (R375): IMG_CMD OP 3 starts a live region image load from a slot or the staging buffer, or is refused
  with BUSY. -/
  | apply (f : Fin 8) (target : Fin 32) (slot : Fin 2) (src : Fin 2) (at' : Fin 2)
  /-- `SET_BOOT` (R373): IMG_CMD OP 4 sets BOOT to a slot with a complete image. -/
  | setBoot (f : Fin 8) (target : Fin 32) (slot : Fin 2)
  /-- `ERASE_SLOT` (R391): IMG_CMD OP 5 erases an NVM image slot, refused as WRITE_SLOT is. -/
  | eraseSlot (f : Fin 8) (target : Fin 32) (slot : Fin 2)
  /-- `CANCEL` (R382): IMG_CMD OP 6 discards a pending APPLY before its swap boundary, or is refused with BUSY. -/
  | cancel (f : Fin 8)
  /-- `IMG_READ_DONE` (R376): The slot read into the staging buffer completes and VERIFY begins. -/
  | imgReadDone (ok : Bool)
  /-- `IMG_VERIFY_DONE` (R376): The image checks complete, so TRANSFER begins or the APPLY ends with a failure code. -/
  | imgVerifyDone
  /-- `IMG_TRANSFER_DONE` (R376): The sections reach the inactive banks, so the reconfiguration request squashes
  footholds and sets RECONF. -/
  | imgTransferDone
  /-- `IMG_SWAP` (R379): At the swap boundary the banks exchange, image registers take new values and IMG_SWAP_t is
  emitted. -/
  | imgSwap
  /-- `IDLE_TMO` (R378): IMG_SWAP_TMO passes without every regrouped unit idle, so the APPLY ends with IDLE_TMO. -/
  | idleTmo
  /-- `IMG_DONE` (R381): DATA chunks are written, the sequencer resumes at ENTRY, banks are released, slot information
  updates and IMG_DONE is emitted. -/
  | imgDone
  /-- `PROG` (R372): A write of 1 to IMG_KEY_CTRL.PROG programs a key slot once, or sets PROG_ERR. -/
  | prog (f : Fin 8) (slot : Fin 4)
  /-- `REVOKE` (R372): A write of 1 to IMG_KEY_CTRL.REVOKE revokes a key slot for good. -/
  | revoke (f : Fin 8) (slot : Fin 4)
  /-- `MIN_SEQ_WRITE` (R372): A write of IMG_MIN_SEQ_t raises the rollback floor, and a lowering write is ignored. -/
  | minSeqWrite (f : Fin 8) (target : Fin 17) (v : Word)
  /-- `BOOT` (R374): After a package reset the hub loads, checks and applies the package and region images in order, or
  falls back or stays in nightlight mode. -/
  | boot
  /-- `NIGHTLIGHT_SECOND` (R386): At each whole second, each nightlight unit writes the minimum, maximum and mean of
  its voltage values, and with NL_EN three records to ring 0. -/
  | nightlightSecond
  /-- `IMG_NL_MIN_LO_READ` (R386): A read of IMG_NL_MIN_LO_p latches the unit's six value words into shadows. -/
  | imgNlMinLoRead (f : Fin 8) (p : Fin 256) (more : Nat)
  /-- `SENSOR_READING` (R394): Every millisecond a temperature sensor produces a reading and is cross-checked against
  its neighbours. -/
  | sensorReading (k : Fin 88) (raw : BitVec 16)
  /-- `THERMAL_EVALUATION` (R396): Once per millisecond each region's thermal value and rate are compared with the
  thresholds, setting warnings and throttle requests. -/
  | thermalEvaluation
  /-- `GRACE_EXPIRY` (R398): The grace timer expires with the throttle request in force, so enforcement steps 1 to REQ
  begin. -/
  | graceExpiry (t : Fin 16)
  /-- `ENF_STEP_ADD` (R398): STEP_MS passes with the request in force and no 1 °C fall, so the next enforcement step is
  added. -/
  | enfStepAdd (t : Fin 16)
  /-- `ENF_STEP_REMOVE` (R398): After HOLD_MS below 100 °C, enforcement removes its steps one every STEP_MS in reverse
  order. -/
  | enfStepRemove (t : Fin 16)
  /-- `GOVERNOR_UPDATE` (R399): Every 10 ms the governor updates the package and region factors from the power
  estimate, raising DISS_LIMIT when over budget. -/
  | governorUpdate
  /-- `READMIT` (R400): A write of 1 to TMP_CTRL.READMIT re-admits an excluded sensor. -/
  | readmit (f : Fin 8) (k : Fin 128)
  /-- `THERM_SHUTDOWN` (R403): A sensor comparator trips at 125 °C, so every unit opens immediately, analog domains
  switch off and THERM_SHUTDOWN is raised. -/
  | thermShutdown (k : Fin 88)
  /-- `TMP_RESTART_WRITE` (R405): A write of 1 to TMP_CTRL.RESTART requests the analog restart when Trestart is met. -/
  | tmpRestartWrite (f : Fin 8) (k : Fin 128)
  /-- `THERMAL_RESTART` (R405): With Trestart met and restart allowed, analog domains power up, pilots self-trim, skew
  calibrates and TRESTART is emitted. -/
  | thermalRestart
  /-- `SUPPLY_WARN` (R407): A rail falls below its warning threshold, so SUPPLY_WARN is raised, its reaction runs and
  the hub flushes its records. -/
  | supplyWarn (r : Fin 6) (mv : BitVec 16)
  /-- `SUPPLY_WARN_CLEAR` (R407): A rail rises above its warning clear value, so PWR_WARN_N releases without undoing
  the reaction. -/
  | supplyWarnClear (r : Fin 6) (mv : BitVec 16)
  /-- `SUPPLY_OV` (R407): A rail exceeds its over-voltage threshold, so SUPPLY_OV is raised. -/
  | supplyOv (r : Fin 6) (mv : BitVec 16)
  /-- `SUPPLY_RESET` (R408): A rail falls below its reset threshold and holds the package in reset as a POR or a
  software package reset. -/
  | supplyReset (r : Fin 6) (mv : BitVec 16 × BitVec 16)
  /-- `THERMAL_RECORD` (R409): Every INT_S, and at each threshold crossing, the hub writes thermal records to ring 0.
  -/
  | thermalRecord
  /-- `LATCHED` (R421): A write of 1 to FLT_SRC_STAT_n.LATCHED acknowledges the source, or re-latches it at once while
  LIVE. -/
  | latched (f : Fin 8) (n : Fin 545)
  /-- `OVERDUE` (R422): A source of severity 1 or higher stays unacknowledged for 1 s, so OVERDUE is set and AVAIL_COND
  is raised. -/
  | overdue (n : Fin 545)
  /-- `SHADOW_END` (R423): A reaction's end plus SETTLE_US passes and its reaction shadow ends. -/
  | shadowEnd (level : Fin 5) (inst : Fin 256)
  /-- `SEVERITY_WRITE` (R416): A write of FLT_SRC_CFG_n.SEV stores the severity, raised to the floor with SEV_CLIP. -/
  | severityWrite (f : Fin 8) (n : Fin 545) (v : Word)
  /-- `SCRUB_READ` (R428): The scrubber reads a due word, writes back a corrected word, and on the last word ends the
  pass. -/
  | scrubRead (d : Fin 5) (upset : BitVec 88)
  /-- `SCRUB_EN_WRITE` (R428): A write of DIE_ECC_CTRL.SCRUB_EN stops the scrubber after the current word or resumes it
  from DIE_SCRUB_POS. -/
  | scrubEnWrite (f : Fin 8) (d : Fin 4) (v : Word)
  /-- `CFG_CRC_CHECK` (R430): Every 10 ms every configuration block's CRC is recomputed, and a mismatch raises CFG_CRC
  or HUB_CFG_CRC. -/
  | cfgCrcCheck (upset : List (Nat × BitVec 32))
  /-- `CFG_RELOAD` (R430): At the next boundary or LCLK edge a mismatching block reloads from its configuration shadow.
  -/
  | cfgReload (d : Fin 5) (b : Fin 17)
  /-- `ARM` (R431): A write of 1 to FLT_INJ_CTRL.ARM arms a check-bit inversion for the selected checker. -/
  | arm (f : Fin 8) (v : Word)
  /-- `POR` (R432): Power-up or a VDD or VDDM reset resets everything, including time and alignment, and boot follows.
  -/
  | por
  /-- `PERST` (R432): A PCIe fundamental reset resets everything except NVM content, and boot follows. -/
  | perst
  /-- `PKG_RST` (R465): A write of PKG_RST = 1 with KEY 0xA5 by PF0 blocks host access, ramps the outputs, waits for
  the NVM and resets the package. -/
  | pkgRst (f : Fin 8) (key : BitVec 8)
  /-- `REGION_RESET` (R466): A write of 1 to RGN_CTRL.RESET resets one region by the restart of R434, or joins a
  restart in progress. -/
  | regionReset (f : Fin 8) (t : Fin 16)
  /-- `RESTART_CLEAR` (R434): The last unit's switch has opened, so region registers clear, queues and buffers move to
  DROP and the reload begins. -/
  | restartClear (t : Fin 16)
  /-- `RESTART_RELOADED` (R434): The reload of image registers and banks completes, so scrubbing and skew calibration
  of phase 4 begin. -/
  | restartReloaded (t : Fin 16) (shadowOk : Bool)
  /-- `RESTART_RESUME` (R434): At the end of the shadow the region resumes at ENTRY and emits RESTART_DONE_g. -/
  | restartResume (t : Fin 16)
  /-- `JOURNAL_RECORD` (R437): A journal record is programmed, verified and committed with its commit word, or its
  sector is retired to the spare area. -/
  | journalRecord (ok eraseOk cut : Bool)
  /-- `LIFE_JOURNAL` (R439): Every 64 s the hub journals the life records and changed relay-wear counts. -/
  | lifeJournal
  /-- `JOURNAL` (R439): A write of 1 to LIFE_CTRL.JOURNAL journals the life records now. -/
  | journal (f : Fin 8)
  /-- `OPERATING_SECOND` (R440): Each operating second updates operating seconds, the Arrhenius record, force-on time,
  thermal cycles and the mean temperature. -/
  | operatingSecond
  /-- `REGISTER_WRITE` (R9): A host write to a register without a row of its own is checked by R456 and R460, carried
  out by its access codes, and may squash footholds. -/
  | registerWrite (f : Fin 8) (a : Fin 134217728) (be : BitVec 4) (vs : List Word)
  /-- `BAR2_WRITE` (R457): A host write through BAR2 is carried out with read-modify-write of partial words, rights per
  area, and squash of footholds that read it. Operand `bs` holds the bytes written and the reads of memory that follow: function, BAR2
  offset, length. -/
  | bar2Write (f : Fin 8) (a : Fin 268435456) (bs : List (BitVec 8) × List (Fin 8 × Fin 268435456 × Fin 4097))
  /-- `FENCE` (R463): A write of HUB_FN_CTRL_f.FENCE = 1 refuses every later access of function f. -/
  | fence (f : Fin 8) (g : Fin 8)
  /-- `FENCE_LIFT` (R463): A write of FENCE = 0 lifts the fence for accesses accepted afterwards. -/
  | fenceLift (f : Fin 8) (g : Fin 8)
  /-- `INT_EN_WRITE` (R468): A write of HUB_INT_EN_f sends a message for each cause whose enable rises while its STAT
  bit is 1. -/
  | intEnWrite (f : Fin 8) (g : Fin 8) (v : Word)
  /-- `INT_STAT_CLEAR` (R468): A W1C of HUB_INT_STAT_f clears cause bits, or leaves a bit at 1 and sends a new message
  when a setting meets it. -/
  | intStatClear (f : Fin 8) (g : Fin 8) (v : Word) (met : BitVec 12)
  /-- `MSIX_UNMASK` (R468): Unmasking an MSI-X vector with its PBA bit set sends one withheld message. -/
  | msixUnmask (f : Fin 8) (v : Fin 64)
  /-- `SERIAL_LO_READ` (R464): A read of HUB_SERIAL_LO latches the serial number's high word into the function's
  shadow. -/
  | serialLoRead (f : Fin 8) (more : Nat)
  /-- `PRF_SEQT_LO_READ` (R186): A read of PRF_SEQT_LO latches the sequence time's high word into the function's
  shadow. -/
  | prfSeqtLoRead (f : Fin 8) (t : Fin 16) (more : Nat)
  /-- `MEA_U_LASTV_LO_READ` (R250): A read of MEA_U_LASTV_LO latches the last voltage value's high word into the
  function's shadow. -/
  | meaULastvLoRead (f : Fin 8) (p : Fin 256) (more : Nat)
  /-- `MEA_U_LASTI_LO_READ` (R250): A read of MEA_U_LASTI_LO latches the last current value's high word into the
  function's shadow. -/
  | meaULastiLoRead (f : Fin 8) (p : Fin 256) (more : Nat)
  /-- `FLT_FIRST_TS_LO_READ` (R448): A read of FLT_FIRST_TS_LO_n latches the first-cause timestamp's high word into the
  function's shadow. -/
  | fltFirstTsLoRead (f : Fin 8) (n : Fin 545) (more : Nat)
  /-- `LIFE_OPS_LO_READ` (R450): A read of LIFE_OPS_LO latches the operating seconds' high word into the function's
  shadow. -/
  | lifeOpsLoRead (f : Fin 8) (more : Nat)
  /-- `LIFE_ARR_LO_READ` (R450): A read of LIFE_ARR_LO latches the Arrhenius record's high word into the function's
  shadow. -/
  | lifeArrLoRead (f : Fin 8) (more : Nat)
  /-- `LIFE_LAST_STOP_TS_LO_READ` (R450): A read of LIFE_LAST_STOP_TS_LO latches the last stop timestamp's high word
  into the function's shadow. -/
  | lifeLastStopTsLoRead (f : Fin 8) (more : Nat)
  /-- `SMB_HUB_ID` (R471): SMBus Block Read command 0x00 returns HUB_ID with PEC. -/
  | smbHubId
  /-- `SMB_SERIAL_LO` (R471): SMBus Block Read command 0x01 returns HUB_SERIAL_LO without latching a shadow. -/
  | smbSerialLo
  /-- `SMB_SERIAL_HI` (R471): SMBus Block Read command 0x02 returns HUB_SERIAL_HI. -/
  | smbSerialHi
  /-- `SMB_BOOT_STAT` (R471): SMBus Block Read command 0x03 returns HUB_BOOT_STAT. -/
  | smbBootStat
  /-- `SMB_MAX_TEMP` (R471): SMBus Block Read command 0x10 returns the greatest sensor value, substitutes included. -/
  | smbMaxTemp
  /-- `SMB_TMP_SHUT` (R471): SMBus Block Read command 0x11 returns TMP_SHUT. -/
  | smbTmpShut
  /-- `SMB_PWR_STAT` (R471): SMBus Block Read command 0x12 returns PWR_STAT. -/
  | smbPwrStat
  /-- `SMB_SEV_PEND` (R471): SMBus Block Read command 0x13 returns FLT_SEV_PEND. -/
  | smbSevPend
  /-- `SMB_LIFE_COND` (R471): SMBus Block Read command 0x14 returns LIFE_COND. -/
  | smbLifeCond
  /-- `SMB_IMG_STAT` (R471): SMBus Block Read command 0x15 returns IMG_STAT. -/
  | smbImgStat
  /-- `SMB_OTHER_COMMAND` (R471): An SMBus Block Read with any other command code answers with a byte count of 0. -/
  | smbOtherCommand (code : BitVec 8)
  /-- `SMB_WRITE` (R471): An SMBus write is acknowledged and discarded. -/
  | smbWrite (code : BitVec 8) (data : List (BitVec 8))
  /-- `JTAG_BYPASS` (R489): JTAG instruction BYPASS, or any unassigned code, selects the bypass register. -/
  | jtagBypass (code : BitVec 8)
  /-- `JTAG_SAMPLE_PRELOAD` (R489): JTAG instruction SAMPLE/PRELOAD samples and preloads the boundary register. -/
  | jtagSamplePreload (cells : List Bool)
  /-- `JTAG_EXTEST` (R489): JTAG instruction EXTEST drives the boundary pins in nightlight mode only and holds boot
  before step 3. -/
  | jtagExtest
  /-- `JTAG_CLAMP` (R489): JTAG instruction CLAMP holds the boundary outputs in nightlight mode only and holds boot
  before step 3. -/
  | jtagClamp
  /-- `JTAG_HIGHZ` (R489): JTAG instruction HIGHZ floats the boundary outputs in nightlight mode only and holds boot
  before step 3. -/
  | jtagHighz
  /-- `PCIE_LINK_UP` (R362): The PCI Express link trains and comes up, so DMA_STAT.LINK_DOWN clears while every ring
  stays disabled until re-enabled. -/
  | pcieLinkUp
  /-- `LOADER_OPERATION_END` (R373): A VERIFY, WRITE_SLOT or ERASE_SLOT operation of the image loader completes, so
  RESULT is written, BUSY clears, slot validity updates, and PF0's IMAGE cause and IMG_FAIL follow as applicable.
  -/
  | loaderOperationEnd (ok : Bool)
  /-- `LIFE_COND_RECENT_END` (R442): 24 h after a breach of an availability condition, the condition's bit in
  LIFE_COND.RECENT clears. -/
  | lifeCondRecentEnd (c : Fin 6)
  /-- `RING_MSIX_HOLDOFF_END` (R343): INT_US after a ring's previous MSI-X message, a message withheld for a later
  writeback is sent. -/
  | ringMsixHoldoffEnd (r : Fin 64)
  deriving DecidableEq, Repr

end Sys2Proof
end

