-- ==== Sys2Proof/Decode.lean ====
section
/-! DEFINITION. The decoder of the opcode table's words. No row of the table of this hardware gives bits (every row's list of
fields is empty): a command comes from a pin, a bus or the passing of time and has no word, so no word spells one. -/

namespace Sys2Proof

/-- The command that an instruction word spells by the opcode table's bits: none for every word. -/
def decodeTableWord (_nbits _w : Nat) : Option Instr := none

end Sys2Proof
end

