-- ==== Sys2Proof/Config.lean ====
section
/-! DEFINITION. What the spec leaves open, as constants without a body: nothing in Lean can evaluate them or prove a
value of them, so a statement that holds of the model holds for every choice an implementation could make. Each one is
named in a row of notes/assumptions. The type of an image's content stands here because the meaning of a section's bytes is one
of them. -/

namespace Sys2Proof

/-- What the sections of an image say (R369 of 12_berrin_image.md): values of "image" registers by BAR0 offset; blocks of regions
in partitions (key 16·t + k; byte offset in the die's BAR2 window, size); chunks for a region's blocks (BAR2 offset, bytes);
sequencer and kernel words; the entry address and AUTOSTART; the owner of a region; the loop class of each unit; user filter
taps; owners (3 bits) and SECURE (bit 3) of timestamp captures by die, capture 0 lowest; the
gain and the bandwidth word of the booster stage (R102), in the compiler's coding; the placement of the words of contexts in the
region's working-state block (R257: key 512·word + context, byte offset in the block); how many supervisory and learning slots the
assignments take (R115, R125). -/
structure ImgContent where
  vals : List (Nat × Word) := []
  blocks : List (Nat × Nat × Nat) := []
  chunks : List (Nat × List (BitVec 8)) := []
  program : List Word := []
  kernels : List Word := []
  entry : Nat := 0
  autostart : Bool := false
  owner : Nat := 0
  classes : List Nat := []
  taps : List Nat := []
  captures : List (Nat × Nat) := []
  stage : Word × Word := (0, 0)
  ctxWords : List (Nat × Nat) := []
  supSlots : Nat := 0
  deriving DecidableEq, Repr, Inhabited

/-- What one step of the learning of R and C works on (R142 of 04_control_engine.md): both values, MU, the model's form, the full
scales of the forced and of the measured quantity, the loop period in ticks, the forced sample, the one before it, the model's
voltage of the period before in 2^−64 V, the measured sample, the residual. -/
structure PlSample where
  r : Word
  c : Word
  mu : Nat
  model : Bool
  forcesI : Bool
  fsForced : Nat × Nat
  fsMeas : Nat × Nat
  period : Nat
  x : Int
  x0 : Int
  v0 : Int
  m : Int
  res : Int
  deriving DecidableEq, Repr

end Sys2Proof

namespace Sys2Proof.Config

/-- The payload of the NaN that an operation on the two given operands makes (R262 of 08_reduction_engines.md gives that
the result is a NaN and not its bits). -/
opaque nanBits : DWord → DWord → BitVec 51

/-- Whether a quotient `num / den` that the spec does not tell how to round goes up to the next representable value
rather than down. The arguments are the quotient's exact numerator and denominator. -/
opaque roundUp : Int → Int → Bool

/-- The serial number of the package, fused at manufacture (R464 of 15_register_maps.md). -/
opaque serial : DWord

/-- The die revision, shared by all six dies (R464, R454: "the revision x"). -/
opaque dieRev : BitVec 4

/-- The learned keep-alive model after one more measurement: the model so far, the mean hub temperature in 1/16 °C and
the measured offset in ppb (R43 of 02_clocks_time_alignment.md names the fit and not its form). -/
opaque kaFitUpdate : Nat → Int → Int → Nat

/-- The offset in ppb that the learned keep-alive model gives at a mean hub temperature in 1/16 °C (R43). -/
opaque kaFitOffset : Nat → Int → BitVec 24

/-- The plausibility model's prediction in ADC LSB where its formula has no value (R141 of 04_control_engine.md): an R that is
negative, 0 in voltage force or a NaN, a C that is not finite; from R, C and the forced sample. -/
opaque plPredict : Word → Word → Int → Int

/-- R after one in-envelope sample (R142 names normalised least mean squares in binary32 and not its steps). -/
opaque plAdaptR : PlSample → Word

/-- C after one in-envelope sample (R142), from the same. -/
opaque plAdaptC : PlSample → Word

/-- Tap `i` (0 to 30, tap 63 − i equals it) of FIR design 0 for the FIR decimation `F`, a signed 24-bit word in units of 2^−23 (R219
of 07_measurement_path.md gives the responses and not the taps; the DC gain leaves tap 31 no choice). -/
opaque firTap : Nat → Nat → BitVec 24

/-- The share of what is left of the half sum that tap `i` (0 to 30) of FIR design 2 takes at most, for the FIR decimation `F`, in
units of 2^−23 (R219: the step response is monotonic, so that no tap is negative). -/
opaque firStep : Nat → Nat → BitVec 24

/-- The FIR output word where the exact result lies outside the signed Q18.14 format (R219 states no result there), from the
exact result in units of 2^−14 LSB. -/
opaque firOver : Int → BitVec 32

/-- The 20-bit residual word of ENG_PL_RES where the exact residual lies outside its format (R141, R150 state no result
there). -/
opaque plOver : Int → BitVec 20

/-- The charge increment of a sample, in 2^−64 C, where the current it is computed from is not a finite number (R283 states no
result there). -/
opaque chargeNan : DWord → Int

/-- The argument of a complex zero with the given imaginary and real parts (R265 states none). -/
opaque argZero : DWord → DWord → DWord

/-- The current range code whose calibration entries serve a booster channel's current (R102 of 03_channel_front_end.md:
CH_MODE.IRNG has no effect there; R224 of 07_measurement_path.md lists no entry of its own). -/
opaque boostRange : Fin 8

/-- The factor, UQ1.15 with any number of integer bits, by which a booster's forced-path gains and feed-forward are multiplied
(R102 of 03_channel_front_end.md says that the engine uses the stage's gain, sign and bandwidth and not how; the model takes the sign from
CH_BST.STAGE_INV): the image's gain and bandwidth words, the gain correction of the booster outer loop. -/
opaque stageFactor : Word → Word → Int → Nat

/-- The operand T of a close section (R259 gives T for a value alone), from the close boundary and TFIRST. -/
opaque closeT : Nat → Nat → DWord

/-- What the payload of a section of the given TYPE says (R369 of 12_berrin_image.md names each section's content and not its
layout). -/
opaque imgSection : Nat → List (BitVec 8) → ImgContent

/-- What an operating second adds to the Arrhenius record, in 2^−32 h, where the formula of R440 of 14_faults_availability_life.md has
no value that the record could hold: EA in meV, TREF and Tj in 1/16 °C. -/
opaque arrhenius : Nat → Nat → Int → Nat

/-- The dissipation estimate in nW of a millisecond in which a unit had no loop sample, for the value number (R399 of
13_thermal_and_supply.md states none). -/
opaque unsampledPower : Nat → Nat

/-- The substitute of a sensor on a die that has no included sensor, in 1/16 °C (R400 states none). -/
opaque lostDieTemp : Nat → BitVec 16

/-- The correction of a temperature reading, in 1/16 °C, for a VDD away from its nominal 750 mV: of the uncorrected reading and the
monitor's millivolts (R394 names the correction and gives no figure). -/
opaque tempSupply : Int → Nat → BitVec 16

/-- What the word at a byte offset of hub SRAM beyond the staging buffer belongs to: 1 the state of the rings, 2 the hub's configuration,
3 the life counters, anything else a structure without a source (R429 of 14_faults_availability_life.md names the three and not where
they lie). -/
opaque hubContent : Nat → BitVec 2

/-- The source number in the log of a stop that the host commands (R443 gives such a stop a record, and no source number). -/
opaque hostStopSource : BitVec 16

/-- The source number in the log of the stop that a power-up POR is (R443: a record of source and instance; R432 names no source for
a power-up). -/
opaque porStopSource : BitVec 16

/-- The level that a walker stream draws where its table entry lies outside the region's waveform block (R33 of 01_six_levels.md: such
an access does not happen; R302 of 09_sites_and_site_walker.md states no other level), from the entry's offset in the block. -/
opaque levelOutside : Nat → Word

/-- What a read of a SEQ_FOOTHOLD_ register returns, for the value number (R215 of 06_step_sequencer_and_foothold.md: "carry no
promise of value, order or timing"). -/
opaque footholdShadow : Nat → Word

/-- The levels of SMB_ADDR1 and SMB_ADDR0, sampled when the hub leaves POR (R489 of 16_pins_and_electrical.md). -/
opaque smbAddr : BitVec 2

end Sys2Proof.Config
end

