-- ==== Sys2Proof/Machine/Bits.lean ====
section
/-! DEFINITION. Bit fields, two's complement, roundings, byte order and the CRC-32 of R494: the plain arithmetic that
every block of the model uses (R5, R6, R494 of 00_scope.md). -/

namespace Sys2Proof.Machine

/-- The unsigned value of field `f` of `w` (R5). -/
def getFld (w : Word) (f : Fld) : Nat := (w.toNat >>> f.lo) % 2 ^ f.len

/-- The bits of a word that the field `f` covers. -/
def fldMask (f : Fld) : Word := BitVec.ofNat 32 (2 ^ f.len - 1) <<< f.lo

/-- `w` with field `f` set to `v` (modulo the field's width) and every other bit unchanged. -/
def setFld (w : Word) (f : Fld) (v : Nat) : Word :=
  (w &&& ~~~ (fldMask f)) ||| (BitVec.ofNat 32 (v % 2 ^ f.len) <<< f.lo)

/-- The two's-complement value of the low `n` bits of `v` (R6). -/
def signed (n v : Nat) : Int :=
  let u := v % 2 ^ n
  if 2 * u < 2 ^ n then (u : Int) else (u : Int) - (2 ^ n : Nat)

/-- The low `n` bits of the two's complement of `i` (R6). -/
def unsigned (n : Nat) (i : Int) : Nat := (i % (2 ^ n : Nat)).toNat

/-- `i` held within `lo` to `hi`. -/
def clampI (lo hi i : Int) : Int := if i < lo then lo else if hi < i then hi else i

/-- The sign of `i`: −1, 0 or 1. -/
def sgn (i : Int) : Int := if i < 0 then -1 else if i = 0 then 0 else 1

/-- A natural number as a 32-bit register value. -/
def w32 (n : Nat) : Word := BitVec.ofNat 32 n

/-- A signed number as a 32-bit register value, sign-extended to the register's width. -/
def s32 (i : Int) : Word := BitVec.ofNat 32 (unsigned 32 i)

/-- A Bool as a one-bit field value. -/
def b2n (b : Bool) : Nat := if b then 1 else 0

/-- Bit `k` of `n`. -/
def bitOf (n k : Nat) : Bool := (n >>> k) % 2 == 1

/-- `n` with bit `k` set. -/
def withBit (n k : Nat) : Nat := if bitOf n k then n else n + 2 ^ k

/-- `n` with bit `k` cleared. -/
def withoutBit (n k : Nat) : Nat := if bitOf n k then n - 2 ^ k else n

/-- `a / b` rounded toward minus infinity, for `b > 0`. -/
def floorDiv (a b : Int) : Int := a / b

/-- `a / b` rounded toward zero, for `b > 0` (R94, R145). -/
def truncDiv (a b : Int) : Int := if 0 ≤ a then a / b else -((-a) / b)

/-- `a / b` rounded to nearest, ties away from zero, for `b > 0` (R118, R155). -/
def roundDiv (a b : Int) : Int := if 0 ≤ a then (2 * a + b) / (2 * b) else -((2 * (-a) + b) / (2 * b))

/-- `a / b` rounded up, for natural numbers. -/
def ceilDiv (a b : Nat) : Nat := (a + b - 1) / b

/-- Saturation into `n`-bit two's complement; the flag says that it saturated (R118, R126). -/
def satS (n : Nat) (i : Int) : Int × Bool :=
  let hi : Int := (2 ^ (n - 1) : Nat) - 1
  let lo : Int := -(2 ^ (n - 1) : Nat)
  if i < lo then (lo, true) else if hi < i then (hi, true) else (i, false)

/-- The integer square root: the greatest `r` with `r * r ≤ n`, found bit by bit. -/
def isqrtAux (n : Nat) : Nat → Nat → Nat
  | 0, r => r
  | k + 1, r =>
    let r' := r + 2 ^ k
    isqrtAux n k (if r' * r' ≤ n then r' else r)

/-- The integer square root of `n` (R155). -/
def isqrt (n : Nat) : Nat := isqrtAux n (n.log2 / 2 + 1) 0

/-- The `k` bytes of `n`, the least significant first (R5). -/
def leBytes : Nat → Nat → List (BitVec 8)
  | 0, _ => []
  | k + 1, n => BitVec.ofNat 8 n :: leBytes k (n / 256)

/-- The number that a little-endian list of bytes spells (R5). -/
def ofLeBytes : List (BitVec 8) → Nat
  | [] => 0
  | b :: bs => b.toNat + 256 * ofLeBytes bs

/-- The number in bytes `i` to `i + n − 1` of a list. -/
def byteField (bs : List (BitVec 8)) (i n : Nat) : Nat := ofLeBytes ((bs.drop i).take n)

/-- One bit step of the reflected CRC-32 of R494. -/
def crcBit (c : Nat) : Nat := if c % 2 = 1 then (c / 2) ^^^ 0xEDB88320 else c / 2

/-- One byte of the reflected CRC-32 of R494. -/
def crcByte (c : Nat) (b : BitVec 8) : Nat :=
  let x := c ^^^ b.toNat
  crcBit (crcBit (crcBit (crcBit (crcBit (crcBit (crcBit (crcBit x)))))))

/-- The CRC-32 of a list of bytes in ascending address or transmission order (R494). -/
def crc32 (bs : List (BitVec 8)) : Nat := (bs.foldl crcByte 0xFFFFFFFF) ^^^ 0xFFFFFFFF

/-- `l` with its first element dropped and `x` appended, or with `x` appended while it is shorter than `n`: a first-in,
first-out history of at most `n` entries, the newest first. -/
def pushHist {α : Type} (n : Nat) (x : α) (l : List α) : List α := (x :: l).take n

/-- Every index below `n` for which `p` holds, ascending. -/
def indices (n : Nat) (p : Nat → Bool) : List Nat := (List.range n).filter p

end Sys2Proof.Machine
end

