-- ==== Sys2Proof/Machine/RegMap.lean ====
section
/-! DEFINITION. The register map of the LSC-9256 (R451 to R454 of 15_register_maps.md and the register tables of every
chapter): the address of every register, its fields, and one table per block with each register's access codes (R9) and
reset value. Every address is an offset in BAR0. Names are the manual's. An index in a name becomes an argument: d is a
die, t a region's target number 4·d + g (R466), p a package channel (R1), f a physical function, n a fault source.
SEQ_FOOTHOLD registers take the foothold's number minus one. -/

namespace Sys2Proof.Machine

/-- The base of channel die `d` (R454). -/
def dieBase (d : Nat) : Nat := 0x1000000 * (d + 1)
/-- The die's event block (R454). -/
def evtBase (d : Nat) : Nat := dieBase d + 0x10000
/-- The die's thermal block (R454). -/
def dtmpBase (d : Nat) : Nat := dieBase d + 0x20000
/-- The die's site walker and site-select port (R454). -/
def siteBase (d : Nat) : Nat := dieBase d + 0x30000
/-- The die's memory, ECC and partition block (R454). -/
def memBase (d : Nat) : Nat := dieBase d + 0x40000
/-- The base of the region of target number `t` (R454). -/
def rgnBase (t : Nat) : Nat := dieBase (t / 4) + 0x200000 * (t % 4 + 1)
/-- The region's sequencer block (R454). -/
def seqBase (t : Nat) : Nat := rgnBase t + 0x10000
/-- The region's control engine (R454). -/
def engBase (t : Nat) : Nat := rgnBase t + 0x20000
/-- The region's profile and waveform block (R454). -/
def prfBase (t : Nat) : Nat := rgnBase t + 0x30000
/-- The region's measurement and pilot block (R454). -/
def meaBase (t : Nat) : Nat := rgnBase t + 0x40000
/-- The region's reducer (R454). -/
def rdcBase (t : Nat) : Nat := rgnBase t + 0x50000
/-- The register block of the unit of package channel `p` (R454). -/
def unitBase (p : Nat) : Nat := rgnBase (p / 16) + 0x80000 + 0x1000 * (p % 16)

/-- `HUB_TS_LO`, R70 of 02_clocks_time_alignment.md: timestamp bits 31:0 (R47). Reset 0x0000_0000. -/
def HUB_TS_LO : Nat := 0xA0000 + (0x0)

/-- `HUB_TS_HI`, R70 of 02_clocks_time_alignment.md: timestamp bits 63:32, from shadow. Reset 0x0000_0000. -/
def HUB_TS_HI : Nat := 0xA0000 + (0x4)

/-- `HUB_CLK_STAT`, R70 of 02_clocks_time_alignment.md: clock status. Reset by field. -/
def HUB_CLK_STAT : Nat := 0xA0000 + (0x8)

/-- HUB_CLK_STAT.REFIN_LOST, bits 4:4. -/
def HUB_CLK_STAT.REFIN_LOST : Fld := ⟨4, 1⟩

/-- HUB_CLK_STAT.SLEWING, bits 3:3. -/
def HUB_CLK_STAT.SLEWING : Fld := ⟨3, 1⟩

/-- HUB_CLK_STAT.REFIN_OK, bits 2:2. -/
def HUB_CLK_STAT.REFIN_OK : Fld := ⟨2, 1⟩

/-- HUB_CLK_STAT.REF_SRC, bits 1:1. -/
def HUB_CLK_STAT.REF_SRC : Fld := ⟨1, 1⟩

/-- HUB_CLK_STAT.PLL_LOCK, bits 0:0. -/
def HUB_CLK_STAT.PLL_LOCK : Fld := ⟨0, 1⟩

/-- `HUB_KA_STAT`, R70 of 02_clocks_time_alignment.md: keep-alive status. Reset by field. -/
def HUB_KA_STAT : Nat := 0xA0000 + (0xC)

/-- HUB_KA_STAT.LEARNED, bits 31:31. -/
def HUB_KA_STAT.LEARNED : Fld := ⟨31, 1⟩

/-- HUB_KA_STAT.OFFSET, bits 23:0. -/
def HUB_KA_STAT.OFFSET : Fld := ⟨0, 24⟩

/-- `HUB_KA_UNC`, R70 of 02_clocks_time_alignment.md: holdover uncertainty, ns (R44). Reset 0x0000_0000. -/
def HUB_KA_UNC : Nat := 0xA0000 + (0x10)

/-- `HUB_CAL_FRAC`, R70 of 02_clocks_time_alignment.md: calendar fraction, 2^−32 s. Reset journaled. -/
def HUB_CAL_FRAC : Nat := 0xA0000 + (0x20)

/-- `HUB_CAL_SEC_LO`, R70 of 02_clocks_time_alignment.md: TAI seconds bits 31:0, from shadow. Reset journaled. -/
def HUB_CAL_SEC_LO : Nat := 0xA0000 + (0x24)

/-- `HUB_CAL_SEC_HI`, R70 of 02_clocks_time_alignment.md: [15:0] TAI seconds bits 47:32; [31:16] reserved. Reset journaled. -/
def HUB_CAL_SEC_HI : Nat := 0xA0000 + (0x28)

/-- HUB_CAL_SEC_HI.TAI, bits 15:0. -/
def HUB_CAL_SEC_HI.TAI : Fld := ⟨0, 16⟩

/-- `HUB_CAL_STAT`, R70 of 02_clocks_time_alignment.md: calendar status. Reset by field. -/
def HUB_CAL_STAT : Nat := 0xA0000 + (0x2C)

/-- HUB_CAL_STAT.MEMBER, bits 8:8. -/
def HUB_CAL_STAT.MEMBER : Fld := ⟨8, 1⟩

/-- HUB_CAL_STAT.HOLDOVER, bits 7:7. -/
def HUB_CAL_STAT.HOLDOVER : Fld := ⟨7, 1⟩

/-- HUB_CAL_STAT.LEAP_ERR, bits 6:6. -/
def HUB_CAL_STAT.LEAP_ERR : Fld := ⟨6, 1⟩

/-- HUB_CAL_STAT.LEAP_STALE, bits 5:5. -/
def HUB_CAL_STAT.LEAP_STALE : Fld := ⟨5, 1⟩

/-- HUB_CAL_STAT.LEAP_NEG, bits 4:4. -/
def HUB_CAL_STAT.LEAP_NEG : Fld := ⟨4, 1⟩

/-- HUB_CAL_STAT.LEAP, bits 3:3. -/
def HUB_CAL_STAT.LEAP : Fld := ⟨3, 1⟩

/-- HUB_CAL_STAT.SET_LATE, bits 2:2. -/
def HUB_CAL_STAT.SET_LATE : Fld := ⟨2, 1⟩

/-- HUB_CAL_STAT.SET_PEND, bits 1:1. -/
def HUB_CAL_STAT.SET_PEND : Fld := ⟨1, 1⟩

/-- HUB_CAL_STAT.VALID, bits 0:0. -/
def HUB_CAL_STAT.VALID : Fld := ⟨0, 1⟩

/-- `HUB_CAL_SET_SEC_LO`, R70 of 02_clocks_time_alignment.md: TAI second to set, bits 31:0. Reset 0x0000_0000. -/
def HUB_CAL_SET_SEC_LO : Nat := 0xA0000 + (0x30)

/-- `HUB_CAL_SET_SEC_HI`, R70 of 02_clocks_time_alignment.md: [15:0] bits 47:32; [31:16] reserved. Reset 0x0000_0000. -/
def HUB_CAL_SET_SEC_HI : Nat := 0xA0000 + (0x34)

/-- `HUB_CAL_SET_AT_LO`, R70 of 02_clocks_time_alignment.md: apply timestamp bits 31:0. Reset 0x0000_0000. -/
def HUB_CAL_SET_AT_LO : Nat := 0xA0000 + (0x38)

/-- `HUB_CAL_SET_AT_HI`, R70 of 02_clocks_time_alignment.md: apply timestamp bits 63:32. Reset 0x0000_0000. -/
def HUB_CAL_SET_AT_HI : Nat := 0xA0000 + (0x3C)

/-- `HUB_CAL_CTRL`, R70 of 02_clocks_time_alignment.md: calendar control. Reset by field. -/
def HUB_CAL_CTRL : Nat := 0xA0000 + (0x40)

/-- HUB_CAL_CTRL.SYNC_IN_SET, bits 2:2. -/
def HUB_CAL_CTRL.SYNC_IN_SET : Fld := ⟨2, 1⟩

/-- HUB_CAL_CTRL.LEAP_COMMIT, bits 1:1. -/
def HUB_CAL_CTRL.LEAP_COMMIT : Fld := ⟨1, 1⟩

/-- HUB_CAL_CTRL.SET, bits 0:0. -/
def HUB_CAL_CTRL.SET : Fld := ⟨0, 1⟩

/-- `HUB_UTC_SEC_LO`, R70 of 02_clocks_time_alignment.md: UTC readout bits 31:0 (R54). Reset by field. -/
def HUB_UTC_SEC_LO : Nat := 0xA0000 + (0x48)

/-- `HUB_UTC_SEC_HI`, R70 of 02_clocks_time_alignment.md: [15:0] UTC bits 47:32; [31:16] current offset, signed. Reset by field. -/
def HUB_UTC_SEC_HI : Nat := 0xA0000 + (0x4C)

/-- HUB_UTC_SEC_HI.UTC, bits 15:0. -/
def HUB_UTC_SEC_HI.UTC : Fld := ⟨0, 16⟩

/-- `HUB_SYNC_CFG`, R70 of 02_clocks_time_alignment.md: SYNC_IN and SYNC_OUT. Reset by field. -/
def HUB_SYNC_CFG : Nat := 0xA0000 + (0x50)

/-- HUB_SYNC_CFG.IN_CNT, bits 31:24. -/
def HUB_SYNC_CFG.IN_CNT : Fld := ⟨24, 8⟩

/-- HUB_SYNC_CFG.IN_EDGE, bits 17:17. -/
def HUB_SYNC_CFG.IN_EDGE : Fld := ⟨17, 1⟩

/-- HUB_SYNC_CFG.IN_EN, bits 16:16. -/
def HUB_SYNC_CFG.IN_EN : Fld := ⟨16, 1⟩

/-- HUB_SYNC_CFG.OUT_MS, bits 15:8. -/
def HUB_SYNC_CFG.OUT_MS : Fld := ⟨8, 8⟩

/-- HUB_SYNC_CFG.OUT_SEL, bits 1:0. -/
def HUB_SYNC_CFG.OUT_SEL : Fld := ⟨0, 2⟩

/-- `HUB_SYNC_IN_TS_LO`, R70 of 02_clocks_time_alignment.md: SYNC_IN capture bits 31:0. Reset 0x0000_0000. -/
def HUB_SYNC_IN_TS_LO : Nat := 0xA0000 + (0x58)

/-- `HUB_SYNC_IN_TS_HI`, R70 of 02_clocks_time_alignment.md: SYNC_IN capture bits 63:32. Reset 0x0000_0000. -/
def HUB_SYNC_IN_TS_HI : Nat := 0xA0000 + (0x5C)

/-- `HUB_ALN_CFG`, R70 of 02_clocks_time_alignment.md: alignment control. Reset by field. -/
def HUB_ALN_CFG : Nat := 0xA0000 + (0x60)

/-- HUB_ALN_CFG.AUTO_JOIN, bits 8:8. -/
def HUB_ALN_CFG.AUTO_JOIN : Fld := ⟨8, 1⟩

/-- HUB_ALN_CFG.RECAL, bits 7:0. -/
def HUB_ALN_CFG.RECAL : Fld := ⟨0, 8⟩

/-- `HUB_ALN_STAT`, R70 of 02_clocks_time_alignment.md: alignment status. Reset by field. -/
def HUB_ALN_STAT : Nat := 0xA0000 + (0x64)

/-- HUB_ALN_STAT.TS_STEPS, bits 31:16. -/
def HUB_ALN_STAT.TS_STEPS : Fld := ⟨16, 16⟩

/-- HUB_ALN_STAT.CHAIN_LONG, bits 8:8. -/
def HUB_ALN_STAT.CHAIN_LONG : Fld := ⟨8, 1⟩

/-- HUB_ALN_STAT.JOIN, bits 7:7. -/
def HUB_ALN_STAT.JOIN : Fld := ⟨7, 1⟩

/-- HUB_ALN_STAT.HOLDOVER, bits 6:6. -/
def HUB_ALN_STAT.HOLDOVER : Fld := ⟨6, 1⟩

/-- HUB_ALN_STAT.LINK_LOST, bits 5:5. -/
def HUB_ALN_STAT.LINK_LOST : Fld := ⟨5, 1⟩

/-- HUB_ALN_STAT.ALIGNED, bits 4:4. -/
def HUB_ALN_STAT.ALIGNED : Fld := ⟨4, 1⟩

/-- HUB_ALN_STAT.PKG_NUM, bits 3:0. -/
def HUB_ALN_STAT.PKG_NUM : Fld := ⟨0, 4⟩

/-- `HUB_ALN_HOP`, R70 of 02_clocks_time_alignment.md: [23:0] t_ow in ROOT/64 units; 0 on the anchor; [31:24] reserved. Reset 0x0000_0000. -/
def HUB_ALN_HOP : Nat := 0xA0000 + (0x68)

/-- `HUB_LEAP_LO_n`, R70 of 02_clocks_time_alignment.md: entry n, n = 0 to 31: TAI second bits 31:0. Reset 0x0000_0000. -/
def HUB_LEAP_LO (n : Nat) : Nat := 0xA0000 + (0x100 + 0x8 * n)

/-- `HUB_LEAP_HI_n`, R70 of 02_clocks_time_alignment.md: [15:0] TAI second bits 47:32; [31:16] offset, signed. Reset 0x0000_0000. -/
def HUB_LEAP_HI (n : Nat) : Nat := 0xA0000 + (0x104 + 0x8 * n)

/-- HUB_LEAP_HI.TAI, bits 15:0. -/
def HUB_LEAP_HI.TAI : Fld := ⟨0, 16⟩

/-- `HUB_LEAP_VALID_LO`, R70 of 02_clocks_time_alignment.md: TAI second of table expiry, bits 31:0. Reset 0x0000_0000. -/
def HUB_LEAP_VALID_LO : Nat := 0xA0000 + (0x200)

/-- `HUB_LEAP_VALID_HI`, R70 of 02_clocks_time_alignment.md: [15:0] bits 47:32; [31:16] reserved. Reset 0x0000_0000. -/
def HUB_LEAP_VALID_HI : Nat := 0xA0000 + (0x204)

/-- `CH_CTRL`, R112 of 03_channel_front_end.md: output, sense and guard control. Reset by field. -/
def CH_CTRL (p : Nat) : Nat := unitBase p + (0x0)

/-- CH_CTRL.OPEN_FAST, bits 5:5. -/
def CH_CTRL.OPEN_FAST : Fld := ⟨5, 1⟩

/-- CH_CTRL.OLD_EN, bits 4:4. -/
def CH_CTRL.OLD_EN : Fld := ⟨4, 1⟩

/-- CH_CTRL.GUARD, bits 3:2. -/
def CH_CTRL.GUARD : Fld := ⟨2, 2⟩

/-- CH_CTRL.LOCAL_SENSE, bits 1:1. -/
def CH_CTRL.LOCAL_SENSE : Fld := ⟨1, 1⟩

/-- CH_CTRL.OUT_REQ, bits 0:0. -/
def CH_CTRL.OUT_REQ : Fld := ⟨0, 1⟩

/-- `CH_MODE`, R112 of 03_channel_front_end.md: force mode and ranges. Reset by field. -/
def CH_MODE (p : Nat) : Nat := unitBase p + (0x4)

/-- CH_MODE.IRNG, bits 6:4. -/
def CH_MODE.IRNG : Fld := ⟨4, 3⟩

/-- CH_MODE.VRNG, bits 3:2. -/
def CH_MODE.VRNG : Fld := ⟨2, 2⟩

/-- CH_MODE.FMODE, bits 0:0. -/
def CH_MODE.FMODE : Fld := ⟨0, 1⟩

/-- `CH_SETPT`, R112 of 03_channel_front_end.md: set-point, signed Q2.30 of FS (R84). Reset 0x0000_0000. -/
def CH_SETPT (p : Nat) : Nat := unitBase p + (0x8)

/-- `CH_CMPL`, R112 of 03_channel_front_end.md: compliance. Reset by field. -/
def CH_CMPL (p : Nat) : Nat := unitBase p + (0xC)

/-- CH_CMPL.LIMIT, bits 15:0. -/
def CH_CMPL.LIMIT : Fld := ⟨0, 16⟩

/-- `CH_STAT`, R112 of 03_channel_front_end.md: status and sticky flags. Reset by field. -/
def CH_STAT (p : Nat) : Nat := unitBase p + (0x10)

/-- CH_STAT.NCO_SOFT, bits 15:15. -/
def CH_STAT.NCO_SOFT : Fld := ⟨15, 1⟩

/-- CH_STAT.NCO_CLIP, bits 14:14. -/
def CH_STAT.NCO_CLIP : Fld := ⟨14, 1⟩

/-- CH_STAT.SETPT_CLIP, bits 13:13. -/
def CH_STAT.SETPT_CLIP : Fld := ⟨13, 1⟩

/-- CH_STAT.CMPL_CLIP, bits 12:12. -/
def CH_STAT.CMPL_CLIP : Fld := ⟨12, 1⟩

/-- CH_STAT.OPEN_LOAD, bits 11:11. -/
def CH_STAT.OPEN_LOAD : Fld := ⟨11, 1⟩

/-- CH_STAT.CLAMP_SEEN, bits 10:10. -/
def CH_STAT.CLAMP_SEEN : Fld := ⟨10, 1⟩

/-- CH_STAT.CMPL_SEEN, bits 9:9. -/
def CH_STAT.CMPL_SEEN : Fld := ⟨9, 1⟩

/-- CH_STAT.SAFE, bits 5:5. -/
def CH_STAT.SAFE : Fld := ⟨5, 1⟩

/-- CH_STAT.RNG_BUSY, bits 4:4. -/
def CH_STAT.RNG_BUSY : Fld := ⟨4, 1⟩

/-- CH_STAT.CLAMP, bits 3:3. -/
def CH_STAT.CLAMP : Fld := ⟨3, 1⟩

/-- CH_STAT.IN_CMPL, bits 2:2. -/
def CH_STAT.IN_CMPL : Fld := ⟨2, 1⟩

/-- CH_STAT.OUT_CLOSED, bits 0:0. -/
def CH_STAT.OUT_CLOSED : Fld := ⟨0, 1⟩

/-- `CH_DAC`, R112 of 03_channel_front_end.md: [19:0] DAC code latched last; [31:20] reserved. Reset 0x0008_0000. -/
def CH_DAC (p : Nat) : Nat := unitBase p + (0x14)

/-- CH_DAC.DAC, bits 19:0. -/
def CH_DAC.DAC : Fld := ⟨0, 20⟩

/-- `CH_VLOOP`, R112 of 03_channel_front_end.md: last voltage loop ADC code, sign-extended to 32 bits. Reset 0x0000_0000. -/
def CH_VLOOP (p : Nat) : Nat := unitBase p + (0x18)

/-- `CH_ILOOP`, R112 of 03_channel_front_end.md: last current loop ADC code, sign-extended to 32 bits. Reset 0x0000_0000. -/
def CH_ILOOP (p : Nat) : Nat := unitBase p + (0x1C)

/-- `CH_GANG`, R112 of 03_channel_front_end.md: gang membership, from the image. Reset by field. -/
def CH_GANG (p : Nat) : Nat := unitBase p + (0x30)

/-- CH_GANG.ACTIVE, bits 20:16. -/
def CH_GANG.ACTIVE : Fld := ⟨16, 5⟩

/-- CH_GANG.MASTER, bits 9:9. -/
def CH_GANG.MASTER : Fld := ⟨9, 1⟩

/-- CH_GANG.MEMBER, bits 8:8. -/
def CH_GANG.MEMBER : Fld := ⟨8, 1⟩

/-- CH_GANG.MASTER_U, bits 7:4. -/
def CH_GANG.MASTER_U : Fld := ⟨4, 4⟩

/-- CH_GANG.SIZE, bits 3:0. -/
def CH_GANG.SIZE : Fld := ⟨0, 4⟩

/-- `CH_BST`, R112 of 03_channel_front_end.md: booster mode, unit 0 only; reads 0 elsewhere. Reset by field. -/
def CH_BST (p : Nat) : Nat := unitBase p + (0x40)

/-- CH_BST.IFS_MA, bits 25:16. -/
def CH_BST.IFS_MA : Fld := ⟨16, 10⟩

/-- CH_BST.STAGE_INV, bits 1:1. -/
def CH_BST.STAGE_INV : Fld := ⟨1, 1⟩

/-- CH_BST.BOOST, bits 0:0. -/
def CH_BST.BOOST : Fld := ⟨0, 1⟩

/-- `CH_NCO_CTRL`, R112 of 03_channel_front_end.md: NCO control. Reset by field. -/
def CH_NCO_CTRL (p : Nat) : Nat := unitBase p + (0x50)

/-- CH_NCO_CTRL.APPLY, bits 3:3. -/
def CH_NCO_CTRL.APPLY : Fld := ⟨3, 1⟩

/-- CH_NCO_CTRL.ARM_AT, bits 2:2. -/
def CH_NCO_CTRL.ARM_AT : Fld := ⟨2, 1⟩

/-- CH_NCO_CTRL.SOFT, bits 1:1. -/
def CH_NCO_CTRL.SOFT : Fld := ⟨1, 1⟩

/-- CH_NCO_CTRL.EN, bits 0:0. -/
def CH_NCO_CTRL.EN : Fld := ⟨0, 1⟩

/-- `CH_NCO_FTW_LO`, R112 of 03_channel_front_end.md: staged FTW bits 31:0. Reset 0x0000_0000. -/
def CH_NCO_FTW_LO (p : Nat) : Nat := unitBase p + (0x54)

/-- `CH_NCO_FTW_HI`, R112 of 03_channel_front_end.md: [15:0] staged FTW bits 47:32; [31:16] reserved. Reset 0x0000_0000. -/
def CH_NCO_FTW_HI (p : Nat) : Nat := unitBase p + (0x58)

/-- `CH_NCO_PHASE`, R112 of 03_channel_front_end.md: [15:0] phase offset, unsigned, 2^−16 cycle; [31:16] reserved. Reset 0x0000_0000. -/
def CH_NCO_PHASE (p : Nat) : Nat := unitBase p + (0x5C)

/-- `CH_NCO_AMP`, R112 of 03_channel_front_end.md: [15:0] amplitude, UQ1.15 of FS, at most 0x8000; a larger value is stored as 0x8000 (R108); [31:16] reserved. Reset 0x0000_0000. -/
def CH_NCO_AMP (p : Nat) : Nat := unitBase p + (0x60)

/-- `CH_NCO_AT_LO`, R112 of 03_channel_front_end.md: apply timestamp bits 31:0. Reset 0x0000_0000. -/
def CH_NCO_AT_LO (p : Nat) : Nat := unitBase p + (0x64)

/-- `CH_NCO_AT_HI`, R112 of 03_channel_front_end.md: apply timestamp bits 63:32. Reset 0x0000_0000. -/
def CH_NCO_AT_HI (p : Nat) : Nat := unitBase p + (0x68)

/-- `CH_SKEW`, R112 of 03_channel_front_end.md: skew trim. Reset by field. -/
def CH_SKEW (p : Nat) : Nat := unitBase p + (0xF0)

/-- CH_SKEW.AT_LIMIT, bits 17:17. -/
def CH_SKEW.AT_LIMIT : Fld := ⟨17, 1⟩

/-- CH_SKEW.CAL_EN, bits 16:16. -/
def CH_SKEW.CAL_EN : Fld := ⟨16, 1⟩

/-- CH_SKEW.USER, bits 15:8. -/
def CH_SKEW.USER : Fld := ⟨8, 8⟩

/-- CH_SKEW.TRIM, bits 7:0. -/
def CH_SKEW.TRIM : Fld := ⟨0, 8⟩

/-- `ENG_CTRL`, R149 of 04_control_engine.md: loop rate. Reset by field. -/
def ENG_CTRL (t : Nat) : Nat := engBase t + (0x0)

/-- ENG_CTRL.RATE_PEND, bits 8:8. -/
def ENG_CTRL.RATE_PEND : Fld := ⟨8, 1⟩

/-- ENG_CTRL.RATE, bits 2:0. -/
def ENG_CTRL.RATE : Fld := ⟨0, 3⟩

/-- `ENG_STAT`, R149 of 04_control_engine.md: [15:0] EMBER_U, one bit per unit; [23:16] EMBER_S, one bit per supervisory slot; [31:24] reserved. Reset 0x0000_0000. -/
def ENG_STAT (t : Nat) : Nat := engBase t + (0x4)

/-- ENG_STAT.EMBER_U, bits 15:0. -/
def ENG_STAT.EMBER_U : Fld := ⟨0, 16⟩

/-- ENG_STAT.EMBER_S, bits 23:16. -/
def ENG_STAT.EMBER_S : Fld := ⟨16, 8⟩

/-- `ENG_RGAIN_r`, R149 of 04_control_engine.md: r = 0 to 7: [15:0] GAIN, UQ1.15 (R133); [31:16] reserved. Reset 0x0000_8000. -/
def ENG_RGAIN (t r : Nat) : Nat := engBase t + (0x20 + 0x4 * r)

/-- ENG_RGAIN.GAIN, bits 15:0. -/
def ENG_RGAIN.GAIN : Fld := ⟨0, 16⟩

/-- `ENG_SUP_CFG_n`, R149 of 04_control_engine.md: n = 0 to 7: [3:0] KIND; [11:8] UNIT, target unit or gang master; [31:12] reserved. Reset image. -/
def ENG_SUP_CFG (t n : Nat) : Nat := engBase t + (0x100 + 0x20 * n)

/-- ENG_SUP_CFG.KIND, bits 3:0. -/
def ENG_SUP_CFG.KIND : Fld := ⟨0, 4⟩

/-- ENG_SUP_CFG.UNIT, bits 11:8. -/
def ENG_SUP_CFG.UNIT : Fld := ⟨8, 4⟩

/-- `ENG_SUP_LIM_n`, R149 of 04_control_engine.md: [23:0] LIM, output bound in DAC LSB or in the kind's unit; [31:24] reserved. Reset image. -/
def ENG_SUP_LIM (t n : Nat) : Nat := engBase t + (0x104 + 0x20 * n)

/-- ENG_SUP_LIM.LIM, bits 23:0. -/
def ENG_SUP_LIM.LIM : Fld := ⟨0, 24⟩

/-- `ENG_SUP_OUT_n`, R149 of 04_control_engine.md: last output, signed, sign-extended. Reset 0x0000_0000. -/
def ENG_SUP_OUT (t n : Nat) : Nat := engBase t + (0x108 + 0x20 * n)

/-- `ENG_SUP_EMBER_n`, R149 of 04_control_engine.md: [0] MUL_SAT; [1] ACC_SAT; [2] SUM_SAT; [3] OUT_SAT; [31:4] reserved. Reset 0x0000_0000. -/
def ENG_SUP_EMBER (t n : Nat) : Nat := engBase t + (0x10C + 0x20 * n)

/-- ENG_SUP_EMBER.MUL_SAT, bits 0:0. -/
def ENG_SUP_EMBER.MUL_SAT : Fld := ⟨0, 1⟩

/-- ENG_SUP_EMBER.ACC_SAT, bits 1:1. -/
def ENG_SUP_EMBER.ACC_SAT : Fld := ⟨1, 1⟩

/-- ENG_SUP_EMBER.SUM_SAT, bits 2:2. -/
def ENG_SUP_EMBER.SUM_SAT : Fld := ⟨2, 1⟩

/-- ENG_SUP_EMBER.OUT_SAT, bits 3:3. -/
def ENG_SUP_EMBER.OUT_SAT : Fld := ⟨3, 1⟩

/-- `ENG_SUP_KP_n`, R149 of 04_control_engine.md: [23:0] Q1.23; [31:24] reserved. Reset image. -/
def ENG_SUP_KP (t n : Nat) : Nat := engBase t + (0x110 + 0x20 * n)

/-- ENG_SUP_KP.Q1, bits 23:0. -/
def ENG_SUP_KP.Q1 : Fld := ⟨0, 24⟩

/-- `ENG_SUP_KI_n`, R149 of 04_control_engine.md: [23:0] Q1.23; [31:24] reserved. Reset image. -/
def ENG_SUP_KI (t n : Nat) : Nat := engBase t + (0x114 + 0x20 * n)

/-- ENG_SUP_KI.Q1, bits 23:0. -/
def ENG_SUP_KI.Q1 : Fld := ⟨0, 24⟩

/-- `ENG_SUP_KD_n`, R149 of 04_control_engine.md: [23:0] Q1.23; [31:24] reserved. Reset image. -/
def ENG_SUP_KD (t n : Nat) : Nat := engBase t + (0x118 + 0x20 * n)

/-- ENG_SUP_KD.Q1, bits 23:0. -/
def ENG_SUP_KD.Q1 : Fld := ⟨0, 24⟩

/-- `ENG_SUP_KEXP_n`, R149 of 04_control_engine.md: [3:0] exponent; [31:4] reserved. Reset image. -/
def ENG_SUP_KEXP (t n : Nat) : Nat := engBase t + (0x11C + 0x20 * n)

/-- `ENG_UCTRL`, R150 of 04_control_engine.md: unit control. Reset by field. -/
def ENG_UCTRL (p : Nat) : Nat := engBase (p / 16) + (0x400 + 0x80 * (p % 16))

/-- ENG_UCTRL.RC_CLR, bits 6:6. -/
def ENG_UCTRL.RC_CLR : Fld := ⟨6, 1⟩

/-- ENG_UCTRL.HOLD_COEF, bits 5:5. -/
def ENG_UCTRL.HOLD_COEF : Fld := ⟨5, 1⟩

/-- ENG_UCTRL.RC_EN, bits 4:4. -/
def ENG_UCTRL.RC_EN : Fld := ⟨4, 1⟩

/-- ENG_UCTRL.FF_EN, bits 3:3. -/
def ENG_UCTRL.FF_EN : Fld := ⟨3, 1⟩

/-- ENG_UCTRL.LOF, bits 2:1. -/
def ENG_UCTRL.LOF : Fld := ⟨1, 2⟩

/-- ENG_UCTRL.AUTO, bits 0:0. -/
def ENG_UCTRL.AUTO : Fld := ⟨0, 1⟩

/-- `ENG_USTAT`, R150 of 04_control_engine.md: unit status. Reset by field. -/
def ENG_USTAT (p : Nat) : Nat := engBase (p / 16) + (0x404 + 0x80 * (p % 16))

/-- ENG_USTAT.PL_OUT, bits 5:5. -/
def ENG_USTAT.PL_OUT : Fld := ⟨5, 1⟩

/-- ENG_USTAT.PL_LEARNED, bits 4:4. -/
def ENG_USTAT.PL_LEARNED : Fld := ⟨4, 1⟩

/-- ENG_USTAT.COEF_PEND, bits 3:3. -/
def ENG_USTAT.COEF_PEND : Fld := ⟨3, 1⟩

/-- ENG_USTAT.LOF_RAMP, bits 2:2. -/
def ENG_USTAT.LOF_RAMP : Fld := ⟨2, 1⟩

/-- ENG_USTAT.BELAY, bits 1:1. -/
def ENG_USTAT.BELAY : Fld := ⟨1, 1⟩

/-- ENG_USTAT.AUTO_ACT, bits 0:0. -/
def ENG_USTAT.AUTO_ACT : Fld := ⟨0, 1⟩

/-- `ENG_EMBER`, R150 of 04_control_engine.md: ember flags. Reset by field. -/
def ENG_EMBER (p : Nat) : Nat := engBase (p / 16) + (0x408 + 0x80 * (p % 16))

/-- ENG_EMBER.PRE_SAT, bits 6:6. -/
def ENG_EMBER.PRE_SAT : Fld := ⟨6, 1⟩

/-- ENG_EMBER.RC_SKIP, bits 5:5. -/
def ENG_EMBER.RC_SKIP : Fld := ⟨5, 1⟩

/-- ENG_EMBER.RC_LATE, bits 4:4. -/
def ENG_EMBER.RC_LATE : Fld := ⟨4, 1⟩

/-- ENG_EMBER.RC_SAT, bits 3:3. -/
def ENG_EMBER.RC_SAT : Fld := ⟨3, 1⟩

/-- ENG_EMBER.ACC_SAT, bits 2:2. -/
def ENG_EMBER.ACC_SAT : Fld := ⟨2, 1⟩

/-- ENG_EMBER.INT_STOP_XOVER, bits 1:1. -/
def ENG_EMBER.INT_STOP_XOVER : Fld := ⟨1, 1⟩

/-- ENG_EMBER.INT_STOP_DAC, bits 0:0. -/
def ENG_EMBER.INT_STOP_DAC : Fld := ⟨0, 1⟩

/-- `ENG_MANUAL`, R150 of 04_control_engine.md: [19:0] manual DAC code (R136 to R138); [31:20] reserved. Reset 0x0008_0000. -/
def ENG_MANUAL (p : Nat) : Nat := engBase (p / 16) + (0x40C + 0x80 * (p % 16))

/-- `ENG_KP_F`, R150 of 04_control_engine.md: [23:0] forced path KP, Q1.23; [31:24] reserved. Reset image. -/
def ENG_KP_F (p : Nat) : Nat := engBase (p / 16) + (0x410 + 0x80 * (p % 16))

/-- `ENG_KI_F`, R150 of 04_control_engine.md: [23:0] forced path KI, Q1.23; [31:24] reserved. Reset image. -/
def ENG_KI_F (p : Nat) : Nat := engBase (p / 16) + (0x414 + 0x80 * (p % 16))

/-- `ENG_KD_F`, R150 of 04_control_engine.md: [23:0] forced path KD, Q1.23; [31:24] reserved. Reset image. -/
def ENG_KD_F (p : Nat) : Nat := engBase (p / 16) + (0x418 + 0x80 * (p % 16))

/-- `ENG_KP_L`, R150 of 04_control_engine.md: [23:0] limited path KP, Q1.23; [31:24] reserved. Reset image. -/
def ENG_KP_L (p : Nat) : Nat := engBase (p / 16) + (0x41C + 0x80 * (p % 16))

/-- `ENG_KI_L`, R150 of 04_control_engine.md: [23:0] limited path KI, Q1.23; [31:24] reserved. Reset image. -/
def ENG_KI_L (p : Nat) : Nat := engBase (p / 16) + (0x420 + 0x80 * (p % 16))

/-- `ENG_KD_L`, R150 of 04_control_engine.md: [23:0] limited path KD, Q1.23; [31:24] reserved. Reset image. -/
def ENG_KD_L (p : Nat) : Nat := engBase (p / 16) + (0x424 + 0x80 * (p % 16))

/-- `ENG_DPOLE`, R150 of 04_control_engine.md: [23:0] derivative pole, Q1.23, 0 to 1 − 2^−23; [31:24] reserved. Reset image. -/
def ENG_DPOLE (p : Nat) : Nat := engBase (p / 16) + (0x428 + 0x80 * (p % 16))

/-- `ENG_KEXP`, R150 of 04_control_engine.md: [3:0] EXP_F; [7:4] EXP_L; [11:8] EXP_FF; [31:12] reserved. Reset image. -/
def ENG_KEXP (p : Nat) : Nat := engBase (p / 16) + (0x42C + 0x80 * (p % 16))

/-- ENG_KEXP.EXP_F, bits 3:0. -/
def ENG_KEXP.EXP_F : Fld := ⟨0, 4⟩

/-- ENG_KEXP.EXP_L, bits 7:4. -/
def ENG_KEXP.EXP_L : Fld := ⟨4, 4⟩

/-- ENG_KEXP.EXP_FF, bits 11:8. -/
def ENG_KEXP.EXP_FF : Fld := ⟨8, 4⟩

/-- `ENG_KV`, R150 of 04_control_engine.md: [23:0] velocity feed-forward, Q1.23; [31:24] reserved. Reset image. -/
def ENG_KV (p : Nat) : Nat := engBase (p / 16) + (0x430 + 0x80 * (p % 16))

/-- `ENG_KA`, R150 of 04_control_engine.md: [23:0] acceleration feed-forward, Q1.23; [31:24] reserved. Reset image. -/
def ENG_KA (p : Nat) : Nat := engBase (p / 16) + (0x434 + 0x80 * (p % 16))

/-- `ENG_INT_LO`, R150 of 04_control_engine.md: selected path's integrator, bits 31:0. Reset 0x0000_0000. -/
def ENG_INT_LO (p : Nat) : Nat := engBase (p / 16) + (0x438 + 0x80 * (p % 16))

/-- `ENG_INT_HI`, R150 of 04_control_engine.md: [7:0] integrator bits 39:32; [31:8] reserved. Reset 0x0000_0000. -/
def ENG_INT_HI (p : Nat) : Nat := engBase (p / 16) + (0x43C + 0x80 * (p % 16))

/-- `ENG_RC_CFG`, R150 of 04_control_engine.md: [9:0] LEN; [13:10] LEAD; [15:14] reserved; [24:16] SRC_CH, die event channel; [31:25] reserved. Reset 0x0000_03FF. -/
def ENG_RC_CFG (p : Nat) : Nat := engBase (p / 16) + (0x440 + 0x80 * (p % 16))

/-- ENG_RC_CFG.LEN, bits 9:0. -/
def ENG_RC_CFG.LEN : Fld := ⟨0, 10⟩

/-- ENG_RC_CFG.LEAD, bits 13:10. -/
def ENG_RC_CFG.LEAD : Fld := ⟨10, 4⟩

/-- ENG_RC_CFG.SRC_CH, bits 24:16. -/
def ENG_RC_CFG.SRC_CH : Fld := ⟨16, 9⟩

/-- `ENG_RC_DIV`, R150 of 04_control_engine.md: [15:0] DIV; [31:16] reserved. Reset 0x0000_0000. -/
def ENG_RC_DIV (p : Nat) : Nat := engBase (p / 16) + (0x444 + 0x80 * (p % 16))

/-- ENG_RC_DIV.DIV, bits 15:0. -/
def ENG_RC_DIV.DIV : Fld := ⟨0, 16⟩

/-- `ENG_RC_GAIN`, R150 of 04_control_engine.md: [23:0] learning gain l, Q1.23; [31:24] reserved. Reset 0x0000_0000. -/
def ENG_RC_GAIN (p : Nat) : Nat := engBase (p / 16) + (0x448 + 0x80 * (p % 16))

/-- `ENG_RC_FQ`, R150 of 04_control_engine.md: [15:0] FORGET, UQ1.15, at most 0x8000; [31:16] QF, UQ1.15, at most 0x2000. Reset 0x0000_8000. -/
def ENG_RC_FQ (p : Nat) : Nat := engBase (p / 16) + (0x44C + 0x80 * (p % 16))

/-- ENG_RC_FQ.FORGET, bits 15:0. -/
def ENG_RC_FQ.FORGET : Fld := ⟨0, 16⟩

/-- ENG_RC_FQ.QF, bits 31:16. -/
def ENG_RC_FQ.QF : Fld := ⟨16, 16⟩

/-- `ENG_PL_CFG`, R150 of 04_control_engine.md: plausibility control. Reset by field. -/
def ENG_PL_CFG (p : Nat) : Nat := engBase (p / 16) + (0x450 + 0x80 * (p % 16))

/-- ENG_PL_CFG.ENV, bits 31:16. -/
def ENG_PL_CFG.ENV : Fld := ⟨16, 16⟩

/-- ENG_PL_CFG.MU, bits 15:12. -/
def ENG_PL_CFG.MU : Fld := ⟨12, 4⟩

/-- ENG_PL_CFG.EN, bits 10:10. -/
def ENG_PL_CFG.EN : Fld := ⟨10, 1⟩

/-- ENG_PL_CFG.LEARN, bits 9:9. -/
def ENG_PL_CFG.LEARN : Fld := ⟨9, 1⟩

/-- ENG_PL_CFG.MODEL, bits 8:8. -/
def ENG_PL_CFG.MODEL : Fld := ⟨8, 1⟩

/-- ENG_PL_CFG.COUNT, bits 7:0. -/
def ENG_PL_CFG.COUNT : Fld := ⟨0, 8⟩

/-- `ENG_PL_R`, R150 of 04_control_engine.md: load resistance, binary32, ohms (reset +∞). Reset 0x7F80_0000. -/
def ENG_PL_R (p : Nat) : Nat := engBase (p / 16) + (0x454 + 0x80 * (p % 16))

/-- `ENG_PL_C`, R150 of 04_control_engine.md: load capacitance, binary32, farads. Reset 0x0000_0000. -/
def ENG_PL_C (p : Nat) : Nat := engBase (p / 16) + (0x458 + 0x80 * (p % 16))

/-- `ENG_PL_RES`, R150 of 04_control_engine.md: [19:0] last residual, signed, ADC LSB; [23:20] reserved; [31:24] out-of-envelope count. Reset 0x0000_0000. -/
def ENG_PL_RES (p : Nat) : Nat := engBase (p / 16) + (0x45C + 0x80 * (p % 16))

/-- `ENG_FRZ`, R150 of 04_control_engine.md: [6:0] voltage ADC run; [7] reserved; [14:8] current ADC run; [31:15] reserved. Reset 0x0000_0000. -/
def ENG_FRZ (p : Nat) : Nat := engBase (p / 16) + (0x460 + 0x80 * (p % 16))

/-- `ENG_GOOD_DAC`, R150 of 04_control_engine.md: [19:0] last good code (R145); [31:20] reserved. Reset 0x0008_0000. -/
def ENG_GOOD_DAC (p : Nat) : Nat := engBase (p / 16) + (0x464 + 0x80 * (p % 16))

/-- `ENG_RC_IDX`, R150 of 04_control_engine.md: [9:0] table index; [31:10] reserved. Reset 0x0000_0000. -/
def ENG_RC_IDX (p : Nat) : Nat := engBase (p / 16) + (0x468 + 0x80 * (p % 16))

/-- `PRF_CTRL`, R186 of 05_setpoints_sweeps_waveforms.md: player control. Reset by field. -/
def PRF_CTRL (t : Nat) : Nat := prfBase t + (0x0)

/-- PRF_CTRL.START_SEG, bits 23:16. -/
def PRF_CTRL.START_SEG : Fld := ⟨16, 8⟩

/-- PRF_CTRL.WF_DIV, bits 15:8. -/
def PRF_CTRL.WF_DIV : Fld := ⟨8, 8⟩

/-- PRF_CTRL.WF_TRACKS, bits 7:4. -/
def PRF_CTRL.WF_TRACKS : Fld := ⟨4, 4⟩

/-- PRF_CTRL.TRIG_AT_LATCH, bits 3:3. -/
def PRF_CTRL.TRIG_AT_LATCH : Fld := ⟨3, 1⟩

/-- PRF_CTRL.UNDERRUN_MODE, bits 2:2. -/
def PRF_CTRL.UNDERRUN_MODE : Fld := ⟨2, 1⟩

/-- PRF_CTRL.ABORT, bits 1:1. -/
def PRF_CTRL.ABORT : Fld := ⟨1, 1⟩

/-- PRF_CTRL.START, bits 0:0. -/
def PRF_CTRL.START : Fld := ⟨0, 1⟩

/-- `PRF_STAT`, R186 of 05_setpoints_sweeps_waveforms.md: player status. Reset by field. -/
def PRF_STAT (t : Nat) : Nat := prfBase t + (0x4)

/-- PRF_STAT.CUR_SEG, bits 23:16. -/
def PRF_STAT.CUR_SEG : Fld := ⟨16, 8⟩

/-- PRF_STAT.OVERPOST, bits 11:11. -/
def PRF_STAT.OVERPOST : Fld := ⟨11, 1⟩

/-- PRF_STAT.DESC_BAD, bits 10:10. -/
def PRF_STAT.DESC_BAD : Fld := ⟨10, 1⟩

/-- PRF_STAT.UNDERRUN, bits 9:9. -/
def PRF_STAT.UNDERRUN : Fld := ⟨9, 1⟩

/-- PRF_STAT.JUMP_REPL, bits 8:8. -/
def PRF_STAT.JUMP_REPL : Fld := ⟨8, 1⟩

/-- PRF_STAT.JUMP_LATE, bits 7:7. -/
def PRF_STAT.JUMP_LATE : Fld := ⟨7, 1⟩

/-- PRF_STAT.RATE_MOVE, bits 6:6. -/
def PRF_STAT.RATE_MOVE : Fld := ⟨6, 1⟩

/-- PRF_STAT.START_IGN, bits 5:5. -/
def PRF_STAT.START_IGN : Fld := ⟨5, 1⟩

/-- PRF_STAT.JUMP_PEND, bits 4:4. -/
def PRF_STAT.JUMP_PEND : Fld := ⟨4, 1⟩

/-- PRF_STAT.HOLDING, bits 3:3. -/
def PRF_STAT.HOLDING : Fld := ⟨3, 1⟩

/-- PRF_STAT.STALLED, bits 2:2. -/
def PRF_STAT.STALLED : Fld := ⟨2, 1⟩

/-- PRF_STAT.WAITING, bits 1:1. -/
def PRF_STAT.WAITING : Fld := ⟨1, 1⟩

/-- PRF_STAT.RUNNING, bits 0:0. -/
def PRF_STAT.RUNNING : Fld := ⟨0, 1⟩

/-- `PRF_WF_JUMP`, R186 of 05_setpoints_sweeps_waveforms.md: jump request. Reset by field. -/
def PRF_WF_JUMP (t : Nat) : Nat := prfBase t + (0x8)

/-- PRF_WF_JUMP.REQ, bits 31:31. -/
def PRF_WF_JUMP.REQ : Fld := ⟨31, 1⟩

/-- PRF_WF_JUMP.TARGET, bits 7:0. -/
def PRF_WF_JUMP.TARGET : Fld := ⟨0, 8⟩

/-- `PRF_PASS`, R186 of 05_setpoints_sweeps_waveforms.md: [15:0] passes completed in the present segment; [31:16] reserved. Reset 0x0000_0000. -/
def PRF_PASS (t : Nat) : Nat := prfBase t + (0xC)

/-- `PRF_WF_BASE`, R186 of 05_setpoints_sweeps_waveforms.md: waveform block offset in the die's BAR2 window, bytes (R170). Reset image. -/
def PRF_WF_BASE (t : Nat) : Nat := prfBase t + (0x10)

/-- `PRF_WF_SIZE`, R186 of 05_setpoints_sweeps_waveforms.md: waveform block size, bytes. Reset image. -/
def PRF_WF_SIZE (t : Nat) : Nat := prfBase t + (0x14)

/-- `PRF_SWP_BASE`, R186 of 05_setpoints_sweeps_waveforms.md: [16:0] die-wide index of the first entry (R164); [31:17] reserved. Reset image. -/
def PRF_SWP_BASE (t : Nat) : Nat := prfBase t + (0x18)

/-- `PRF_SWP_LEN`, R186 of 05_setpoints_sweeps_waveforms.md: [17:0] entries, 0 to 131,072; [31:18] reserved. Reset image. -/
def PRF_SWP_LEN (t : Nat) : Nat := prfBase t + (0x1C)

/-- `PRF_STR_BASE`, R186 of 05_setpoints_sweeps_waveforms.md: [23:0] ring offset in the waveform block, multiple of 128; [31:24] reserved. Reset 0x0000_0000. -/
def PRF_STR_BASE (t : Nat) : Nat := prfBase t + (0x20)

/-- `PRF_STR_RING`, R186 of 05_setpoints_sweeps_waveforms.md: [12:0] ring slots, 2 to 4,096; a value below 2 acts as 2; [31:13] reserved. Reset 0x0000_0002. -/
def PRF_STR_RING (t : Nat) : Nat := prfBase t + (0x24)

/-- `PRF_STR_POST`, R186 of 05_setpoints_sweeps_waveforms.md: [12:0] granules posted (R179); [31:13] reserved. Reset 0x0000_0000. -/
def PRF_STR_POST (t : Nat) : Nat := prfBase t + (0x28)

/-- `PRF_STR_STAT`, R186 of 05_setpoints_sweeps_waveforms.md: [12:0] FILLED; [15:13] reserved; [28:16] NEXT_SLOT; [31:29] reserved. Reset 0x0000_0000. -/
def PRF_STR_STAT (t : Nat) : Nat := prfBase t + (0x2C)

/-- PRF_STR_STAT.FILLED, bits 12:0. -/
def PRF_STR_STAT.FILLED : Fld := ⟨0, 13⟩

/-- PRF_STR_STAT.NEXT_SLOT, bits 28:16. -/
def PRF_STR_STAT.NEXT_SLOT : Fld := ⟨16, 13⟩

/-- `PRF_STR_DEBT`, R186 of 05_setpoints_sweeps_waveforms.md: [12:0] skipped slots not yet paid (R181); [31:13] reserved. Reset 0x0000_0000. -/
def PRF_STR_DEBT (t : Nat) : Nat := prfBase t + (0x30)

/-- `PRF_UNDER_CNT`, R186 of 05_setpoints_sweeps_waveforms.md: underrun episodes. Reset 0x0000_0000. -/
def PRF_UNDER_CNT (t : Nat) : Nat := prfBase t + (0x34)

/-- `PRF_SKIP_CNT`, R186 of 05_setpoints_sweeps_waveforms.md: granules skipped in HOLD. Reset 0x0000_0000. -/
def PRF_SKIP_CNT (t : Nat) : Nat := prfBase t + (0x38)

/-- `PRF_STALL_LO`, R186 of 05_setpoints_sweeps_waveforms.md: stopped time, FCLK ticks, bits 31:0. Reset 0x0000_0000. -/
def PRF_STALL_LO (t : Nat) : Nat := prfBase t + (0x40)

/-- `PRF_STALL_HI`, R186 of 05_setpoints_sweeps_waveforms.md: bits 63:32. Reset 0x0000_0000. -/
def PRF_STALL_HI (t : Nat) : Nat := prfBase t + (0x44)

/-- `PRF_SEQT_LO`, R186 of 05_setpoints_sweeps_waveforms.md: sequence time, FCLK ticks, bits 31:0; read first, shadows HI as R47. Reset 0x0000_0000. -/
def PRF_SEQT_LO (t : Nat) : Nat := prfBase t + (0x48)

/-- `PRF_SEQT_HI`, R186 of 05_setpoints_sweeps_waveforms.md: bits 63:32, from shadow. Reset 0x0000_0000. -/
def PRF_SEQT_HI (t : Nat) : Nat := prfBase t + (0x4C)

/-- `PRF_LIM_SUM`, R186 of 05_setpoints_sweeps_waveforms.md: [15:0] PROFILE_LIMITED of units 0 to 15; [31:16] reserved. Reset 0x0000_0000. -/
def PRF_LIM_SUM (t : Nat) : Nat := prfBase t + (0x50)

/-- PRF_LIM_SUM.PROFILE_LIMITED, bits 15:0. -/
def PRF_LIM_SUM.PROFILE_LIMITED : Fld := ⟨0, 16⟩

/-- `PRF_SEG_ADDR_s`, R186 of 05_setpoints_sweeps_waveforms.md: s = 0 to 255: [23:0] ADDR, multiple of 128; [31:24] reserved. Reset image. -/
def PRF_SEG_ADDR (t s : Nat) : Nat := prfBase t + (0x1000 + 0x10 * s)

/-- PRF_SEG_ADDR.ADDR, bits 23:0. -/
def PRF_SEG_ADDR.ADDR : Fld := ⟨0, 24⟩

/-- `PRF_SEG_LEN_s`, R186 of 05_setpoints_sweeps_waveforms.md: [15:0] LEN, granules; [31:16] LOOP, passes − 1; 0xFFFF: until a jump. Reset image. -/
def PRF_SEG_LEN (t s : Nat) : Nat := prfBase t + (0x1004 + 0x10 * s)

/-- PRF_SEG_LEN.LEN, bits 15:0. -/
def PRF_SEG_LEN.LEN : Fld := ⟨0, 16⟩

/-- PRF_SEG_LEN.LOOP, bits 31:16. -/
def PRF_SEG_LEN.LOOP : Fld := ⟨16, 16⟩

/-- `PRF_SEG_CTRL_s`, R186 of 05_setpoints_sweeps_waveforms.md: segment control. Reset by field. -/
def PRF_SEG_CTRL (t s : Nat) : Nat := prfBase t + (0x1008 + 0x10 * s)

/-- PRF_SEG_CTRL.TRIG_SEL, bits 14:13. -/
def PRF_SEG_CTRL.TRIG_SEL : Fld := ⟨13, 2⟩

/-- PRF_SEG_CTRL.TRIG_EVERY, bits 12:12. -/
def PRF_SEG_CTRL.TRIG_EVERY : Fld := ⟨12, 1⟩

/-- PRF_SEG_CTRL.TRIG_OUT, bits 11:11. -/
def PRF_SEG_CTRL.TRIG_OUT : Fld := ⟨11, 1⟩

/-- PRF_SEG_CTRL.WAIT_TRIG, bits 10:10. -/
def PRF_SEG_CTRL.WAIT_TRIG : Fld := ⟨10, 1⟩

/-- PRF_SEG_CTRL.STREAM, bits 9:9. -/
def PRF_SEG_CTRL.STREAM : Fld := ⟨9, 1⟩

/-- PRF_SEG_CTRL.END, bits 8:8. -/
def PRF_SEG_CTRL.END : Fld := ⟨8, 1⟩

/-- PRF_SEG_CTRL.NEXT, bits 7:0. -/
def PRF_SEG_CTRL.NEXT : Fld := ⟨0, 8⟩

/-- `PRF_UCTRL`, R188 of 05_setpoints_sweeps_waveforms.md: waveform assignment. Reset by field. -/
def PRF_UCTRL (p : Nat) : Nat := prfBase (p / 16) + (0x800 + 0x40 * (p % 16))

/-- PRF_UCTRL.WF_GAIN, bits 31:16. -/
def PRF_UCTRL.WF_GAIN : Fld := ⟨16, 16⟩

/-- PRF_UCTRL.TRACK, bits 7:4. -/
def PRF_UCTRL.TRACK : Fld := ⟨4, 4⟩

/-- PRF_UCTRL.WF_EN, bits 0:0. -/
def PRF_UCTRL.WF_EN : Fld := ⟨0, 1⟩

/-- `PRF_USTAT`, R188 of 05_setpoints_sweeps_waveforms.md: generator status. Reset by field. -/
def PRF_USTAT (p : Nat) : Nat := prfBase (p / 16) + (0x804 + 0x40 * (p % 16))

/-- PRF_USTAT.LIM_ERR, bits 5:5. -/
def PRF_USTAT.LIM_ERR : Fld := ⟨5, 1⟩

/-- PRF_USTAT.A_REDUCED, bits 4:4. -/
def PRF_USTAT.A_REDUCED : Fld := ⟨4, 1⟩

/-- PRF_USTAT.LIM_PEND, bits 3:3. -/
def PRF_USTAT.LIM_PEND : Fld := ⟨3, 1⟩

/-- PRF_USTAT.AMP_MOVING, bits 2:2. -/
def PRF_USTAT.AMP_MOVING : Fld := ⟨2, 1⟩

/-- PRF_USTAT.PROFILE_LIMITED, bits 1:1. -/
def PRF_USTAT.PROFILE_LIMITED : Fld := ⟨1, 1⟩

/-- PRF_USTAT.MOVING, bits 0:0. -/
def PRF_USTAT.MOVING : Fld := ⟨0, 1⟩

/-- `PRF_VEL_V`, R188 of 05_setpoints_sweeps_waveforms.md: velocity limit, binary32, V/s (10,000 V/s). Reset 0x461C_4000. -/
def PRF_VEL_V (p : Nat) : Nat := prfBase (p / 16) + (0x808 + 0x40 * (p % 16))

/-- `PRF_ACC_V`, R188 of 05_setpoints_sweeps_waveforms.md: acceleration limit, binary32, V/s² (+∞). Reset 0x7F80_0000. -/
def PRF_ACC_V (p : Nat) : Nat := prfBase (p / 16) + (0x80C + 0x40 * (p % 16))

/-- `PRF_JRK_V`, R188 of 05_setpoints_sweeps_waveforms.md: jerk limit, binary32, V/s³ (+∞). Reset 0x7F80_0000. -/
def PRF_JRK_V (p : Nat) : Nat := prfBase (p / 16) + (0x810 + 0x40 * (p % 16))

/-- `PRF_VEL_I`, R188 of 05_setpoints_sweeps_waveforms.md: velocity limit, binary32, A/s (10 A/s). Reset 0x4120_0000. -/
def PRF_VEL_I (p : Nat) : Nat := prfBase (p / 16) + (0x814 + 0x40 * (p % 16))

/-- `PRF_ACC_I`, R188 of 05_setpoints_sweeps_waveforms.md: acceleration limit, binary32, A/s² (+∞). Reset 0x7F80_0000. -/
def PRF_ACC_I (p : Nat) : Nat := prfBase (p / 16) + (0x818 + 0x40 * (p % 16))

/-- `PRF_JRK_I`, R188 of 05_setpoints_sweeps_waveforms.md: jerk limit, binary32, A/s³ (+∞). Reset 0x7F80_0000. -/
def PRF_JRK_I (p : Nat) : Nat := prfBase (p / 16) + (0x81C + 0x40 * (p % 16))

/-- `PRF_OUT`, R188 of 05_setpoints_sweeps_waveforms.md: last generator output, signed Q2.30 of FS. Reset 0x0000_0000. -/
def PRF_OUT (p : Nat) : Nat := prfBase (p / 16) + (0x820 + 0x40 * (p % 16))

/-- `PRF_TARGET`, R188 of 05_setpoints_sweeps_waveforms.md: target in force, signed Q2.30 of FS, after clipping. Reset 0x0000_0000. -/
def PRF_TARGET (p : Nat) : Nat := prfBase (p / 16) + (0x824 + 0x40 * (p % 16))

/-- `PRF_NFILT`, R188 of 05_setpoints_sweeps_waveforms.md: [10:0] nf, 1 to 1,024 (R154); [31:11] reserved. Reset 0x0000_0001. -/
def PRF_NFILT (p : Nat) : Nat := prfBase (p / 16) + (0x828 + 0x40 * (p % 16))

/-- `SEQ_CTRL`, R214 of 06_step_sequencer_and_foothold.md: start, stop, abort, continue. Reset by field. -/
def SEQ_CTRL (t : Nat) : Nat := seqBase t + (0x0)

/-- SEQ_CTRL.CONT, bits 4:4. -/
def SEQ_CTRL.CONT : Fld := ⟨4, 1⟩

/-- SEQ_CTRL.ABORT, bits 3:3. -/
def SEQ_CTRL.ABORT : Fld := ⟨3, 1⟩

/-- SEQ_CTRL.STOP, bits 2:2. -/
def SEQ_CTRL.STOP : Fld := ⟨2, 1⟩

/-- SEQ_CTRL.START, bits 0:0. -/
def SEQ_CTRL.START : Fld := ⟨0, 1⟩

/-- `SEQ_STAT`, R214 of 06_step_sequencer_and_foothold.md: sequencer status. Reset by field. -/
def SEQ_STAT (t : Nat) : Nat := seqBase t + (0x4)

/-- SEQ_STAT.PS_WR, bits 11:11. -/
def SEQ_STAT.PS_WR : Fld := ⟨11, 1⟩

/-- SEQ_STAT.START_IGN, bits 10:10. -/
def SEQ_STAT.START_IGN : Fld := ⟨10, 1⟩

/-- SEQ_STAT.FIRE_REF, bits 9:9. -/
def SEQ_STAT.FIRE_REF : Fld := ⟨9, 1⟩

/-- SEQ_STAT.RNGLA_MISS, bits 8:8. -/
def SEQ_STAT.RNGLA_MISS : Fld := ⟨8, 1⟩

/-- SEQ_STAT.RECONF, bits 5:5. -/
def SEQ_STAT.RECONF : Fld := ⟨5, 1⟩

/-- SEQ_STAT.QP, bits 4:4. -/
def SEQ_STAT.QP : Fld := ⟨4, 1⟩

/-- SEQ_STAT.WAIT_HOST, bits 3:3. -/
def SEQ_STAT.WAIT_HOST : Fld := ⟨3, 1⟩

/-- SEQ_STAT.WAIT_BAR, bits 2:2. -/
def SEQ_STAT.WAIT_BAR : Fld := ⟨2, 1⟩

/-- SEQ_STAT.WAIT_GATE, bits 1:1. -/
def SEQ_STAT.WAIT_GATE : Fld := ⟨1, 1⟩

/-- SEQ_STAT.RUNNING, bits 0:0. -/
def SEQ_STAT.RUNNING : Fld := ⟨0, 1⟩

/-- `SEQ_START_PC`, R214 of 06_step_sequencer_and_foothold.md: [13:0] start address; [31:14] reserved. Reset 0x0000_0000. -/
def SEQ_START_PC (t : Nat) : Nat := seqBase t + (0x8)

/-- `SEQ_PC`, R214 of 06_step_sequencer_and_foothold.md: [13:0] address after the confirmed step's terminator; [31:14] reserved. Reset 0x0000_0000. -/
def SEQ_PC (t : Nat) : Nat := seqBase t + (0xC)

/-- `SEQ_STEPNUM`, R214 of 06_step_sequencer_and_foothold.md: number of the next step to commit (R192). Reset 0x0000_0000. -/
def SEQ_STEPNUM (t : Nat) : Nat := seqBase t + (0x10)

/-- `SEQ_OUTCOME`, R214 of 06_step_sequencer_and_foothold.md: [1:0] LAST: 0 CLEAN, 1 CMPL, 2 ABORT, 3 FAULT; [2] VALID; [31:3] reserved. Reset 0x0000_0000. -/
def SEQ_OUTCOME (t : Nat) : Nat := seqBase t + (0x14)

/-- SEQ_OUTCOME.VALID, bits 2:2. -/
def SEQ_OUTCOME.VALID : Fld := ⟨2, 1⟩

/-- `SEQ_UMASK`, R214 of 06_step_sequencer_and_foothold.md: [15:0] confirmed UMASK; [31:16] reserved. Reset 0x0000_0000. -/
def SEQ_UMASK (t : Nat) : Nat := seqBase t + (0x18)

/-- `SEQ_SWP`, R214 of 06_step_sequencer_and_foothold.md: [17:0] confirmed SWP; [31:18] reserved. Reset 0x0000_0000. -/
def SEQ_SWP (t : Nat) : Nat := seqBase t + (0x1C)

/-- `SEQ_SITE`, R214 of 06_step_sequencer_and_foothold.md: [13:0] confirmed SITE; [14] reserved; [15] VALID; [31:16] reserved. Reset 0x0000_0000. -/
def SEQ_SITE (t : Nat) : Nat := seqBase t + (0x20)

/-- SEQ_SITE.VALID, bits 15:15. -/
def SEQ_SITE.VALID : Fld := ⟨15, 1⟩

/-- `SEQ_VERD`, R214 of 06_step_sequencer_and_foothold.md: [15:0] verdicts of the last closed step, as *Reducers* states; 0 for a step without a window; [31:16] reserved. Reset 0x0000_0000. -/
def SEQ_VERD (t : Nat) : Nat := seqBase t + (0x24)

/-- `SEQ_STACK`, R214 of 06_step_sequencer_and_foothold.md: [3:0] stack depth, 0 to 8; [31:4] reserved. Reset 0x0000_0000. -/
def SEQ_STACK (t : Nat) : Nat := seqBase t + (0x28)

/-- `SEQ_PS_BASE`, R214 of 06_step_sequencer_and_foothold.md: active program bank offset in the die's BAR2 window, bytes (R189). Reset image. -/
def SEQ_PS_BASE (t : Nat) : Nat := seqBase t + (0x2C)

/-- `SEQ_CNTn`, R214 of 06_step_sequencer_and_foothold.md: n = 0 to 7: confirmed counter. Reset 0x0000_0000. -/
def SEQ_CNT (t n : Nat) : Nat := seqBase t + (0x40 + 0x4 * n)

/-- `SEQ_VEC_CMPL`, R214 of 06_step_sequencer_and_foothold.md: [13:0] ADDR; [14] reserved; [15] EN; [31:16] reserved (R204). Reset 0x0000_0000. -/
def SEQ_VEC_CMPL (t : Nat) : Nat := seqBase t + (0x60)

/-- SEQ_VEC_CMPL.ADDR, bits 13:0. -/
def SEQ_VEC_CMPL.ADDR : Fld := ⟨0, 14⟩

/-- SEQ_VEC_CMPL.EN, bits 15:15. -/
def SEQ_VEC_CMPL.EN : Fld := ⟨15, 1⟩

/-- `SEQ_VEC_ABORT`, R214 of 06_step_sequencer_and_foothold.md: as SEQ_VEC_CMPL. Reset 0x0000_0000. -/
def SEQ_VEC_ABORT (t : Nat) : Nat := seqBase t + (0x64)

/-- SEQ_VEC_ABORT.ADDR, bits 13:0. -/
def SEQ_VEC_ABORT.ADDR : Fld := ⟨0, 14⟩

/-- SEQ_VEC_ABORT.EN, bits 15:15. -/
def SEQ_VEC_ABORT.EN : Fld := ⟨15, 1⟩

/-- `SEQ_VEC_FAULT`, R214 of 06_step_sequencer_and_foothold.md: as SEQ_VEC_CMPL. Reset 0x0000_0000. -/
def SEQ_VEC_FAULT (t : Nat) : Nat := seqBase t + (0x68)

/-- SEQ_VEC_FAULT.ADDR, bits 13:0. -/
def SEQ_VEC_FAULT.ADDR : Fld := ⟨0, 14⟩

/-- SEQ_VEC_FAULT.EN, bits 15:15. -/
def SEQ_VEC_FAULT.EN : Fld := ⟨15, 1⟩

/-- `SEQ_RNGLA`, R214 of 06_step_sequencer_and_foothold.md: [15:0] UP, UQ1.15 (0.9); [31:16] DN, UQ1.15 (0.05) (R199). Reset 0x0666_7333. -/
def SEQ_RNGLA (t : Nat) : Nat := seqBase t + (0x6C)

/-- SEQ_RNGLA.UP, bits 15:0. -/
def SEQ_RNGLA.UP : Fld := ⟨0, 16⟩

/-- SEQ_RNGLA.DN, bits 31:16. -/
def SEQ_RNGLA.DN : Fld := ⟨16, 16⟩

/-- `SEQ_SQ_CMPL`, R214 of 06_step_sequencer_and_foothold.md: squashes by compliance. Reset 0x0000_0000. -/
def SEQ_SQ_CMPL (t : Nat) : Nat := seqBase t + (0x80)

/-- `SEQ_SQ_ABORT`, R214 of 06_step_sequencer_and_foothold.md: squashes by abort. Reset 0x0000_0000. -/
def SEQ_SQ_ABORT (t : Nat) : Nat := seqBase t + (0x84)

/-- `SEQ_SQ_HOST`, R214 of 06_step_sequencer_and_foothold.md: squashes by host write. Reset 0x0000_0000. -/
def SEQ_SQ_HOST (t : Nat) : Nat := seqBase t + (0x88)

/-- `SEQ_SQ_RECONF`, R214 of 06_step_sequencer_and_foothold.md: squashes by reconfiguration request. Reset 0x0000_0000. -/
def SEQ_SQ_RECONF (t : Nat) : Nat := seqBase t + (0x8C)

/-- `SEQ_SQ_FAULT`, R214 of 06_step_sequencer_and_foothold.md: squashes by fault. Reset 0x0000_0000. -/
def SEQ_SQ_FAULT (t : Nat) : Nat := seqBase t + (0x90)

/-- `SEQ_SQ_SITE`, R214 of 06_step_sequencer_and_foothold.md: squashes by site range. Reset 0x0000_0000. -/
def SEQ_SQ_SITE (t : Nat) : Nat := seqBase t + (0x94)

/-- `SEQ_NC_CNT`, R214 of 06_step_sequencer_and_foothold.md: non-clean closes. Reset 0x0000_0000. -/
def SEQ_NC_CNT (t : Nat) : Nat := seqBase t + (0x98)

/-- `SEQ_FOOTHOLD_PC_f`, R214 of 06_step_sequencer_and_foothold.md: f = 1 to 4: [13:0] next instruction of foothold f; [31:14] reserved. Reset by field. -/
def SEQ_FOOTHOLD_PC (t f : Nat) : Nat := seqBase t + (0x100 + 0x10 * f)

/-- `SEQ_FOOTHOLD_STAT_f`, R214 of 06_step_sequencer_and_foothold.md: foothold f status. Reset by field. -/
def SEQ_FOOTHOLD_STAT (t f : Nat) : Nat := seqBase t + (0x104 + 0x10 * f)

/-- `SEQ_FOOTHOLD_SWP_f`, R214 of 06_step_sequencer_and_foothold.md: [17:0] SWP of foothold f; [31:18] reserved. Reset by field. -/
def SEQ_FOOTHOLD_SWP (t f : Nat) : Nat := seqBase t + (0x108 + 0x10 * f)

/-- SEQ_FOOTHOLD_SWP.SWP, bits 17:0. -/
def SEQ_FOOTHOLD_SWP.SWP : Fld := ⟨0, 18⟩

/-- `MEA_CTRL`, R249 of 07_measurement_path.md: [15:0] LATE_US, µs, 0 disables LATE (R235); [31:16] reserved. Reset 0x0000_2710. -/
def MEA_CTRL (t : Nat) : Nat := meaBase t + (0x0)

/-- MEA_CTRL.LATE_US, bits 15:0. -/
def MEA_CTRL.LATE_US : Fld := ⟨0, 16⟩

/-- `MEA_STAT`, R249 of 07_measurement_path.md: [15:0] overrange now, one bit per unit; [19:16] SUBST per cluster; [23:20] PILOT_FAIL per cluster; [31:24] reserved. Reset 0x0000_0000. -/
def MEA_STAT (t : Nat) : Nat := meaBase t + (0x4)

/-- MEA_STAT.SUBST, bits 19:16. -/
def MEA_STAT.SUBST : Fld := ⟨16, 4⟩

/-- MEA_STAT.PILOT_FAIL, bits 23:20. -/
def MEA_STAT.PILOT_FAIL : Fld := ⟨20, 4⟩

/-- `MEA_REQ`, R249 of 07_measurement_path.md: self-test and calibration request. Reset by field. -/
def MEA_REQ (t : Nat) : Nat := meaBase t + (0x10)

/-- MEA_REQ.GO, bits 31:31. -/
def MEA_REQ.GO : Fld := ⟨31, 1⟩

/-- MEA_REQ.KIND, bits 9:8. -/
def MEA_REQ.KIND : Fld := ⟨8, 2⟩

/-- MEA_REQ.UNIT, bits 3:0. -/
def MEA_REQ.UNIT : Fld := ⟨0, 4⟩

/-- `MEA_REQ_STAT`, R249 of 07_measurement_path.md: request status. Reset by field. -/
def MEA_REQ_STAT (t : Nat) : Nat := meaBase t + (0x14)

/-- MEA_REQ_STAT.QUEUED, bits 31:16. -/
def MEA_REQ_STAT.QUEUED : Fld := ⟨16, 16⟩

/-- MEA_REQ_STAT.RESULT, bits 1:0. -/
def MEA_REQ_STAT.RESULT : Fld := ⟨0, 2⟩

/-- `MEA_WIN_CFG_n`, R249 of 07_measurement_path.md: n = 0 to 15: window definition. Reset by field. -/
def MEA_WIN_CFG (t n : Nat) : Nat := meaBase t + (0x40 + 0x10 * n)

/-- MEA_WIN_CFG.KERNEL, bits 11:8. -/
def MEA_WIN_CFG.KERNEL : Fld := ⟨8, 4⟩

/-- MEA_WIN_CFG.RDC, bits 3:3. -/
def MEA_WIN_CFG.RDC : Fld := ⟨3, 1⟩

/-- MEA_WIN_CFG.REC, bits 2:2. -/
def MEA_WIN_CFG.REC : Fld := ⟨2, 1⟩

/-- MEA_WIN_CFG.QTY, bits 1:0. -/
def MEA_WIN_CFG.QTY : Fld := ⟨0, 2⟩

/-- `MEA_WIN_DLY_n`, R249 of 07_measurement_path.md: [23:0] DLY, LCLK ticks; [31:24] reserved. Reset image. -/
def MEA_WIN_DLY (t n : Nat) : Nat := meaBase t + (0x44 + 0x10 * n)

/-- MEA_WIN_DLY.DLY, bits 23:0. -/
def MEA_WIN_DLY.DLY : Fld := ⟨0, 24⟩

/-- `MEA_WIN_LEN_n`, R249 of 07_measurement_path.md: [23:0] LEN, LCLK ticks, 0: to step close; [31:24] reserved. Reset image. -/
def MEA_WIN_LEN (t n : Nat) : Nat := meaBase t + (0x48 + 0x10 * n)

/-- MEA_WIN_LEN.LEN, bits 23:0. -/
def MEA_WIN_LEN.LEN : Fld := ⟨0, 24⟩

/-- `MEA_U_FILT`, R250 of 07_measurement_path.md: filter setting. Reset by field. -/
def MEA_U_FILT (p : Nat) : Nat := meaBase (p / 16) + (0x1000 + 0x800 * (p % 16))

/-- MEA_U_FILT.FIR_SEL, bits 19:18. -/
def MEA_U_FILT.FIR_SEL : Fld := ⟨18, 2⟩

/-- MEA_U_FILT.FDEC, bits 17:16. -/
def MEA_U_FILT.FDEC : Fld := ⟨16, 2⟩

/-- MEA_U_FILT.M_M1, bits 15:0. -/
def MEA_U_FILT.M_M1 : Fld := ⟨0, 16⟩

/-- `MEA_U_STAT`, R250 of 07_measurement_path.md: status. Reset by field. -/
def MEA_U_STAT (p : Nat) : Nat := meaBase (p / 16) + (0x1004 + 0x800 * (p % 16))

/-- MEA_U_STAT.COMMIT_IGN, bits 9:9. -/
def MEA_U_STAT.COMMIT_IGN : Fld := ⟨9, 1⟩

/-- MEA_U_STAT.BANK_WR, bits 8:8. -/
def MEA_U_STAT.BANK_WR : Fld := ⟨8, 1⟩

/-- MEA_U_STAT.FILT_ADJ, bits 7:7. -/
def MEA_U_STAT.FILT_ADJ : Fld := ⟨7, 1⟩

/-- MEA_U_STAT.FILT_ERR, bits 6:6. -/
def MEA_U_STAT.FILT_ERR : Fld := ⟨6, 1⟩

/-- MEA_U_STAT.PROC, bits 5:5. -/
def MEA_U_STAT.PROC : Fld := ⟨5, 1⟩

/-- MEA_U_STAT.SUSPECT, bits 4:4. -/
def MEA_U_STAT.SUSPECT : Fld := ⟨4, 1⟩

/-- MEA_U_STAT.SETTLE, bits 3:3. -/
def MEA_U_STAT.SETTLE : Fld := ⟨3, 1⟩

/-- MEA_U_STAT.OVR_I, bits 1:1. -/
def MEA_U_STAT.OVR_I : Fld := ⟨1, 1⟩

/-- MEA_U_STAT.OVR_V, bits 0:0. -/
def MEA_U_STAT.OVR_V : Fld := ⟨0, 1⟩

/-- `MEA_U_BANK`, R250 of 07_measurement_path.md: bank control. Reset by field. -/
def MEA_U_BANK (p : Nat) : Nat := meaBase (p / 16) + (0x1008 + 0x800 * (p % 16))

/-- MEA_U_BANK.CPEND, bits 3:3. -/
def MEA_U_BANK.CPEND : Fld := ⟨3, 1⟩

/-- MEA_U_BANK.JPEND, bits 2:2. -/
def MEA_U_BANK.JPEND : Fld := ⟨2, 1⟩

/-- MEA_U_BANK.COMMIT, bits 1:1. -/
def MEA_U_BANK.COMMIT : Fld := ⟨1, 1⟩

/-- MEA_U_BANK.ACT, bits 0:0. -/
def MEA_U_BANK.ACT : Fld := ⟨0, 1⟩

/-- `MEA_U_ST`, R250 of 07_measurement_path.md: self-test result. Reset by field. -/
def MEA_U_ST (p : Nat) : Nat := meaBase (p / 16) + (0x100C + 0x800 * (p % 16))

/-- MEA_U_ST.FAIL, bits 15:8. -/
def MEA_U_ST.FAIL : Fld := ⟨8, 8⟩

/-- MEA_U_ST.ABORTED, bits 2:2. -/
def MEA_U_ST.ABORTED : Fld := ⟨2, 1⟩

/-- MEA_U_ST.PASS, bits 1:1. -/
def MEA_U_ST.PASS : Fld := ⟨1, 1⟩

/-- MEA_U_ST.DONE, bits 0:0. -/
def MEA_U_ST.DONE : Fld := ⟨0, 1⟩

/-- `MEA_U_LASTV_LO`, R250 of 07_measurement_path.md: last voltage value, binary64 bits 31:0; read first, shadows HI as R47. Reset 0x0000_0000. -/
def MEA_U_LASTV_LO (p : Nat) : Nat := meaBase (p / 16) + (0x1010 + 0x800 * (p % 16))

/-- `MEA_U_LASTV_HI`, R250 of 07_measurement_path.md: bits 63:32, from shadow. Reset 0x0000_0000. -/
def MEA_U_LASTV_HI (p : Nat) : Nat := meaBase (p / 16) + (0x1014 + 0x800 * (p % 16))

/-- `MEA_U_LASTI_LO`, R250 of 07_measurement_path.md: last current value, binary64 bits 31:0; read first. Reset 0x0000_0000. -/
def MEA_U_LASTI_LO (p : Nat) : Nat := meaBase (p / 16) + (0x1018 + 0x800 * (p % 16))

/-- `MEA_U_LASTI_HI`, R250 of 07_measurement_path.md: bits 63:32, from shadow. Reset 0x0000_0000. -/
def MEA_U_LASTI_HI (p : Nat) : Nat := meaBase (p / 16) + (0x101C + 0x800 * (p % 16))

/-- `MEA_U_OVR_CNT`, R250 of 07_measurement_path.md: overrange episodes (R232). Reset 0x0000_0000. -/
def MEA_U_OVR_CNT (p : Nat) : Nat := meaBase (p / 16) + (0x1020 + 0x800 * (p % 16))

/-- `BANK0_O`, R250 of 07_measurement_path.md: offset, signed Q18.14, ADC LSB; 0 without NVM data. Reset NVM. -/
def MEA_BANK0_O (p e : Nat) : Nat := meaBase (p / 16) + (0x1100 + 0x800 * (p % 16) + 0x20 * e)

/-- `BANK1_O`, R250 of 07_measurement_path.md: offset, signed Q18.14, ADC LSB; 0 without NVM data. Reset NVM. -/
def MEA_BANK1_O (p e : Nat) : Nat := meaBase (p / 16) + (0x1300 + 0x800 * (p % 16) + 0x20 * e)

/-- `BANK0_G`, R250 of 07_measurement_path.md: gain, UQ2.30; 0x4000_0000 without NVM data. Reset NVM. -/
def MEA_BANK0_G (p e : Nat) : Nat := meaBase (p / 16) + (0x1104 + 0x800 * (p % 16) + 0x20 * e)

/-- `BANK1_G`, R250 of 07_measurement_path.md: gain, UQ2.30; 0x4000_0000 without NVM data. Reset NVM. -/
def MEA_BANK1_G (p e : Nat) : Nat := meaBase (p / 16) + (0x1304 + 0x800 * (p % 16) + 0x20 * e)

/-- `BANK0_T1`, R250 of 07_measurement_path.md: binary32, 1/K; 0 without NVM data. Reset NVM. -/
def MEA_BANK0_T1 (p e : Nat) : Nat := meaBase (p / 16) + (0x1108 + 0x800 * (p % 16) + 0x20 * e)

/-- `BANK1_T1`, R250 of 07_measurement_path.md: binary32, 1/K; 0 without NVM data. Reset NVM. -/
def MEA_BANK1_T1 (p e : Nat) : Nat := meaBase (p / 16) + (0x1308 + 0x800 * (p % 16) + 0x20 * e)

/-- `BANK0_T2`, R250 of 07_measurement_path.md: binary32, 1/K²; 0 without NVM data. Reset NVM. -/
def MEA_BANK0_T2 (p e : Nat) : Nat := meaBase (p / 16) + (0x110C + 0x800 * (p % 16) + 0x20 * e)

/-- `BANK1_T2`, R250 of 07_measurement_path.md: binary32, 1/K²; 0 without NVM data. Reset NVM. -/
def MEA_BANK1_T2 (p e : Nat) : Nat := meaBase (p / 16) + (0x130C + 0x800 * (p % 16) + 0x20 * e)

/-- `BANK0_T0`, R250 of 07_measurement_path.md: binary32, °C; 0x41C8_0000 (25.0) without NVM data. Reset NVM. -/
def MEA_BANK0_T0 (p e : Nat) : Nat := meaBase (p / 16) + (0x1110 + 0x800 * (p % 16) + 0x20 * e)

/-- `BANK1_T0`, R250 of 07_measurement_path.md: binary32, °C; 0x41C8_0000 (25.0) without NVM data. Reset NVM. -/
def MEA_BANK1_T0 (p e : Nat) : Nat := meaBase (p / 16) + (0x1310 + 0x800 * (p % 16) + 0x20 * e)

/-- `BANK0_STAMP`, R250 of 07_measurement_path.md: TAI second of the calibration, bits 31:0. Reset NVM. -/
def MEA_BANK0_STAMP (p e : Nat) : Nat := meaBase (p / 16) + (0x1114 + 0x800 * (p % 16) + 0x20 * e)

/-- `BANK1_STAMP`, R250 of 07_measurement_path.md: TAI second of the calibration, bits 31:0. Reset NVM. -/
def MEA_BANK1_STAMP (p e : Nat) : Nat := meaBase (p / 16) + (0x1314 + 0x800 * (p % 16) + 0x20 * e)

/-- `MEA_PIL_CFG`, R251 of 07_measurement_path.md: [7:0] ROT_MS, 1 to 255, 0 acts as 1; [15:8] DIS_LSB, 1 to 255, 0 acts as 1; [31:16] reserved. Reset 0x0000_1032. -/
def MEA_PIL_CFG (t c : Nat) : Nat := meaBase t + (0x200 + 0x40 * c)

/-- MEA_PIL_CFG.ROT_MS, bits 7:0. -/
def MEA_PIL_CFG.ROT_MS : Fld := ⟨0, 8⟩

/-- MEA_PIL_CFG.DIS_LSB, bits 15:8. -/
def MEA_PIL_CFG.DIS_LSB : Fld := ⟨8, 8⟩

/-- `MEA_PIL_STAT`, R251 of 07_measurement_path.md: pilot status. Reset by field. -/
def MEA_PIL_STAT (t c : Nat) : Nat := meaBase t + (0x204 + 0x40 * c)

/-- MEA_PIL_STAT.PILOT_FAIL, bits 16:16. -/
def MEA_PIL_STAT.PILOT_FAIL : Fld := ⟨16, 1⟩

/-- MEA_PIL_STAT.SUB_SLICE, bits 15:12. -/
def MEA_PIL_STAT.SUB_SLICE : Fld := ⟨12, 4⟩

/-- MEA_PIL_STAT.SUBST, bits 8:8. -/
def MEA_PIL_STAT.SUBST : Fld := ⟨8, 1⟩

/-- MEA_PIL_STAT.PHASE, bits 6:4. -/
def MEA_PIL_STAT.PHASE : Fld := ⟨4, 3⟩

/-- MEA_PIL_STAT.SLICE, bits 3:0. -/
def MEA_PIL_STAT.SLICE : Fld := ⟨0, 4⟩

/-- `MEA_PIL_DIFF`, R251 of 07_measurement_path.md: last mean difference, signed Q18.14, ADC LSB. Reset 0x0000_0000. -/
def MEA_PIL_DIFF (t c : Nat) : Nat := meaBase t + (0x208 + 0x40 * c)

/-- `MEA_PIL_CNT`, R251 of 07_measurement_path.md: handovers completed, wrapping. Reset 0x0000_0000. -/
def MEA_PIL_CNT (t c : Nat) : Nat := meaBase t + (0x20C + 0x40 * c)

/-- `MEA_PIL_ABANDON`, R251 of 07_measurement_path.md: handovers abandoned (R239). Reset 0x0000_0000. -/
def MEA_PIL_ABANDON (t c : Nat) : Nat := meaBase t + (0x210 + 0x40 * c)

/-- `MEA_PIL_CTRL`, R251 of 07_measurement_path.md: [0] RESTORE (R242), PF0 only; [31:1] reserved. Reset 0x0000_0000. -/
def MEA_PIL_CTRL (t c : Nat) : Nat := meaBase t + (0x214 + 0x40 * c)

/-- MEA_PIL_CTRL.RESTORE, bits 0:0. -/
def MEA_PIL_CTRL.RESTORE : Fld := ⟨0, 1⟩

/-- `MEA_TRIM_k`, R251 of 07_measurement_path.md: k = 0 to 8, 8 is the pilot: [15:0] offset trim, signed, 1/16 LSB; [31:16] gain trim, signed, 2^−20. Reset NVM. -/
def MEA_TRIM (t c k : Nat) : Nat := meaBase t + (0x218 + 0x40 * c + 0x4 * k)

/-- `RDC_STAT`, R276 of 08_reduction_engines.md: reducer status. Reset by field. -/
def RDC_STAT (t : Nat) : Nat := rdcBase t + (0x0)

/-- RDC_STAT.QUSE, bits 25:16. -/
def RDC_STAT.QUSE : Fld := ⟨16, 10⟩

/-- RDC_STAT.KINV, bits 5:5. -/
def RDC_STAT.KINV : Fld := ⟨5, 1⟩

/-- RDC_STAT.ALIAS, bits 4:4. -/
def RDC_STAT.ALIAS : Fld := ⟨4, 1⟩

/-- RDC_STAT.QFULL, bits 3:3. -/
def RDC_STAT.QFULL : Fld := ⟨3, 1⟩

/-- RDC_STAT.ILLEGAL, bits 2:2. -/
def RDC_STAT.ILLEGAL : Fld := ⟨2, 1⟩

/-- RDC_STAT.KS_WR, bits 1:1. -/
def RDC_STAT.KS_WR : Fld := ⟨1, 1⟩

/-- RDC_STAT.BUSY, bits 0:0. -/
def RDC_STAT.BUSY : Fld := ⟨0, 1⟩

/-- `RDC_KS_BASE`, R276 of 08_reduction_engines.md: active kernel bank offset in the die's BAR2 window, bytes. Reset image. -/
def RDC_KS_BASE (t : Nat) : Nat := rdcBase t + (0x4)

/-- `RDC_QDROP`, R276 of 08_reduction_engines.md: value jobs dropped by a full queue. Reset 0x0000_0000. -/
def RDC_QDROP (t : Nat) : Nat := rdcBase t + (0x8)

/-- `RDC_LOAD`, R276 of 08_reduction_engines.md: [9:0] execution share of the last millisecond, ‰; [31:10] reserved. Reset 0x0000_0000. -/
def RDC_LOAD (t : Nat) : Nat := rdcBase t + (0xC)

/-- `RDC_CHK`, R276 of 08_reduction_engines.md: [15:0] MISM, one bit per unit (R271); [31:16] reserved. Reset package. -/
def RDC_CHK (t : Nat) : Nat := rdcBase t + (0x10)

/-- RDC_CHK.MISM, bits 15:0. -/
def RDC_CHK.MISM : Fld := ⟨0, 16⟩

/-- `RDC_KENT_k`, R276 of 08_reduction_engines.md: k = 0 to 15: [12:0] ENTRY; [15:13] reserved; [28:16] CLOSE; [30:29] reserved; [31] VALID. Reset image. -/
def RDC_KENT (t k : Nat) : Nat := rdcBase t + (0x40 + 0x8 * k)

/-- RDC_KENT.ENTRY, bits 12:0. -/
def RDC_KENT.ENTRY : Fld := ⟨0, 13⟩

/-- RDC_KENT.CLOSE, bits 28:16. -/
def RDC_KENT.CLOSE : Fld := ⟨16, 13⟩

/-- RDC_KENT.VALID, bits 31:31. -/
def RDC_KENT.VALID : Fld := ⟨31, 1⟩

/-- `RDC_KHDR_k`, R276 of 08_reduction_engines.md: [11:0] EXCL, 0x002 when no image; [12] ZFILL; [15:13] reserved; [22:16] STATE, 0 to 64; [23] reserved; [31:24] HBINS, 0 to 255. Reset image. -/
def RDC_KHDR (t k : Nat) : Nat := rdcBase t + (0x44 + 0x8 * k)

/-- RDC_KHDR.EXCL, bits 11:0. -/
def RDC_KHDR.EXCL : Fld := ⟨0, 12⟩

/-- RDC_KHDR.ZFILL, bits 12:12. -/
def RDC_KHDR.ZFILL : Fld := ⟨12, 1⟩

/-- RDC_KHDR.STATE, bits 22:16. -/
def RDC_KHDR.STATE : Fld := ⟨16, 7⟩

/-- RDC_KHDR.HBINS, bits 31:24. -/
def RDC_KHDR.HBINS : Fld := ⟨24, 8⟩

/-- `RDC_K_k_i_LO`, R276 of 08_reduction_engines.md: constant Ki of kernel k, binary64 bits 31:0. Reset image. -/
def RDC_K_LO (t k i : Nat) : Nat := rdcBase t + (0x800 + 0x80 * k + 0x8 * i)

/-- `RDC_K_k_i_HI`, R276 of 08_reduction_engines.md: bits 63:32. Reset image. -/
def RDC_K_HI (t k i : Nat) : Nat := rdcBase t + (0x804 + 0x80 * k + 0x8 * i)

/-- `RDC_PROD_LO`, R277 of 08_reduction_engines.md: PROD bits 31:0; latches the shadows. Reset package. -/
def RDC_PROD_LO (p : Nat) : Nat := rdcBase (p / 16) + (0x100 + 0x40 * (p % 16))

/-- `RDC_PROD_HI`, R277 of 08_reduction_engines.md: PROD bits 63:32, from shadow. Reset package. -/
def RDC_PROD_HI (p : Nat) : Nat := rdcBase (p / 16) + (0x104 + 0x40 * (p % 16))

/-- `RDC_DELIV_LO`, R277 of 08_reduction_engines.md: DELIV bits 31:0, from shadow. Reset package. -/
def RDC_DELIV_LO (p : Nat) : Nat := rdcBase (p / 16) + (0x108 + 0x40 * (p % 16))

/-- `RDC_DELIV_HI`, R277 of 08_reduction_engines.md: DELIV bits 63:32, from shadow. Reset package. -/
def RDC_DELIV_HI (p : Nat) : Nat := rdcBase (p / 16) + (0x10C + 0x40 * (p % 16))

/-- `RDC_RONLY_LO`, R277 of 08_reduction_engines.md: RONLY bits 31:0, from shadow. Reset package. -/
def RDC_RONLY_LO (p : Nat) : Nat := rdcBase (p / 16) + (0x110 + 0x40 * (p % 16))

/-- `RDC_RONLY_HI`, R277 of 08_reduction_engines.md: RONLY bits 63:32, from shadow. Reset package. -/
def RDC_RONLY_HI (p : Nat) : Nat := rdcBase (p / 16) + (0x114 + 0x40 * (p % 16))

/-- `RDC_DROP_LO`, R277 of 08_reduction_engines.md: DROP bits 31:0, from shadow. Reset package. -/
def RDC_DROP_LO (p : Nat) : Nat := rdcBase (p / 16) + (0x118 + 0x40 * (p % 16))

/-- `RDC_DROP_HI`, R277 of 08_reduction_engines.md: DROP bits 63:32, from shadow. Reset package. -/
def RDC_DROP_HI (p : Nat) : Nat := rdcBase (p / 16) + (0x11C + 0x40 * (p % 16))

/-- `RDC_FLIGHT_LO`, R277 of 08_reduction_engines.md: FLIGHT bits 31:0, from shadow. Reset package. -/
def RDC_FLIGHT_LO (p : Nat) : Nat := rdcBase (p / 16) + (0x120 + 0x40 * (p % 16))

/-- `RDC_FLIGHT_HI`, R277 of 08_reduction_engines.md: FLIGHT bits 63:32, from shadow. Reset package. -/
def RDC_FLIGHT_HI (p : Nat) : Nat := rdcBase (p / 16) + (0x124 + 0x40 * (p % 16))

/-- `RDC_DIFF`, R277 of 08_reduction_engines.md: difference at the last check, signed, saturated (R271). Reset package. -/
def RDC_DIFF (p : Nat) : Nat := rdcBase (p / 16) + (0x128 + 0x40 * (p % 16))

/-- `SITE_PORT_CFG`, R309 of 09_sites_and_site_walker.md: port mode and inputs. Reset by field. -/
def SITE_PORT_CFG (d : Nat) : Nat := siteBase d + (0x0)

/-- SITE_PORT_CFG.REGIONS, bits 19:16. -/
def SITE_PORT_CFG.REGIONS : Fld := ⟨16, 4⟩

/-- SITE_PORT_CFG.SRDY_EN, bits 3:3. -/
def SITE_PORT_CFG.SRDY_EN : Fld := ⟨3, 1⟩

/-- SITE_PORT_CFG.SERR_EN, bits 2:2. -/
def SITE_PORT_CFG.SERR_EN : Fld := ⟨2, 1⟩

/-- SITE_PORT_CFG.MODE, bits 0:0. -/
def SITE_PORT_CFG.MODE : Fld := ⟨0, 1⟩

/-- `SITE_PORT_TBRK`, R309 of 09_sites_and_site_walker.md: [15:0] BREAK_US, 1 to 65,535, 0 acts as 1; [23:16] STB, 10 ns units, 1 to 255, 0 acts as 1; [31:24] reserved. Reset 0x000A_00C8. -/
def SITE_PORT_TBRK (d : Nat) : Nat := siteBase d + (0x4)

/-- SITE_PORT_TBRK.BREAK_US, bits 15:0. -/
def SITE_PORT_TBRK.BREAK_US : Fld := ⟨0, 16⟩

/-- SITE_PORT_TBRK.STB, bits 23:16. -/
def SITE_PORT_TBRK.STB : Fld := ⟨16, 8⟩

/-- `SITE_PORT_TSET`, R309 of 09_sites_and_site_walker.md: [15:0] SETTLE_US; [31:16] SRDY_TMO_US (R295). Reset 0x2710_07D0. -/
def SITE_PORT_TSET (d : Nat) : Nat := siteBase d + (0x8)

/-- SITE_PORT_TSET.SETTLE_US, bits 15:0. -/
def SITE_PORT_TSET.SETTLE_US : Fld := ⟨0, 16⟩

/-- SITE_PORT_TSET.SRDY_TMO_US, bits 31:16. -/
def SITE_PORT_TSET.SRDY_TMO_US : Fld := ⟨16, 16⟩

/-- `SITE_PORT_STAT`, R309 of 09_sites_and_site_walker.md: [15:0] SA driven; [23:16] SD driven; [26:24] SST2 to SST0; [27] SRDY; [28] SERR_N low; [30:29] PHASE: 0 idle, 1 break, 2 settle, 3 reserved; [31] reserved. Reset 0x2000_0000. -/
def SITE_PORT_STAT (d : Nat) : Nat := siteBase d + (0xC)

/-- SITE_PORT_STAT.SA, bits 15:0. -/
def SITE_PORT_STAT.SA : Fld := ⟨0, 16⟩

/-- SITE_PORT_STAT.SD, bits 23:16. -/
def SITE_PORT_STAT.SD : Fld := ⟨16, 8⟩

/-- SITE_PORT_STAT.SST2, bits 26:24. -/
def SITE_PORT_STAT.SST2 : Fld := ⟨24, 3⟩

/-- SITE_PORT_STAT.SRDY, bits 27:27. -/
def SITE_PORT_STAT.SRDY : Fld := ⟨27, 1⟩

/-- SITE_PORT_STAT.SERR_N, bits 28:28. -/
def SITE_PORT_STAT.SERR_N : Fld := ⟨28, 1⟩

/-- `SITE_PORT_FLAG`, R309 of 09_sites_and_site_walker.md: [0] REFUSED; [1] ERR; [2] TMO; [3] RESTARTED; [31:4] reserved. Reset 0x0000_0000. -/
def SITE_PORT_FLAG (d : Nat) : Nat := siteBase d + (0x10)

/-- SITE_PORT_FLAG.REFUSED, bits 0:0. -/
def SITE_PORT_FLAG.REFUSED : Fld := ⟨0, 1⟩

/-- SITE_PORT_FLAG.ERR, bits 1:1. -/
def SITE_PORT_FLAG.ERR : Fld := ⟨1, 1⟩

/-- SITE_PORT_FLAG.TMO, bits 2:2. -/
def SITE_PORT_FLAG.TMO : Fld := ⟨2, 1⟩

/-- SITE_PORT_FLAG.RESTARTED, bits 3:3. -/
def SITE_PORT_FLAG.RESTARTED : Fld := ⟨3, 1⟩

/-- `SITE_PORT_CNT`, R309 of 09_sites_and_site_walker.md: makes performed. Reset 0x0000_0000. -/
def SITE_PORT_CNT (d : Nat) : Nat := siteBase d + (0x14)

/-- `SITE_BLK_g`, R309 of 09_sites_and_site_walker.md: g = 0 to 3: [13:0] BASE; [15:14] reserved; [29:16] LEN; [31:30] reserved (R278). Reset image. -/
def SITE_BLK (d g : Nat) : Nat := siteBase d + (0x20 + 0x4 * g)

/-- SITE_BLK.BASE, bits 13:0. -/
def SITE_BLK.BASE : Fld := ⟨0, 14⟩

/-- SITE_BLK.LEN, bits 29:16. -/
def SITE_BLK.LEN : Fld := ⟨16, 14⟩

/-- `SITE_ACC_UMASK_g`, R309 of 09_sites_and_site_walker.md: [15:0] units of region g that accumulate (R283); [31:16] reserved. Reset 0x0000_FFFF. -/
def SITE_ACC_UMASK (d g : Nat) : Nat := siteBase d + (0x30 + 0x4 * g)

/-- `SITE_ACC_SEL`, R309 of 09_sites_and_site_walker.md: [13:0] die-local site; [31:14] reserved. Reset 0x0000_0000. -/
def SITE_ACC_SEL (d : Nat) : Nat := siteBase d + (0x40)

/-- `SITE_ACC_CTRL`, R309 of 09_sites_and_site_walker.md: [0] SNAP; [1] CLR (R287); [31:2] reserved. Reset 0x0000_0000. -/
def SITE_ACC_CTRL (d : Nat) : Nat := siteBase d + (0x44)

/-- SITE_ACC_CTRL.SNAP, bits 0:0. -/
def SITE_ACC_CTRL.SNAP : Fld := ⟨0, 1⟩

/-- SITE_ACC_CTRL.CLR, bits 1:1. -/
def SITE_ACC_CTRL.CLR : Fld := ⟨1, 1⟩

/-- `SITE_ACC_STRESS_LO`, R309 of 09_sites_and_site_walker.md: STRESS bits 31:0. Reset 0x0000_0000. -/
def SITE_ACC_STRESS_LO (d : Nat) : Nat := siteBase d + (0x48)

/-- `SITE_ACC_STRESS_HI`, R309 of 09_sites_and_site_walker.md: STRESS bits 63:32. Reset 0x0000_0000. -/
def SITE_ACC_STRESS_HI (d : Nat) : Nat := siteBase d + (0x4C)

/-- `SITE_ACC_CHG_0`, R309 of 09_sites_and_site_walker.md: CHARGE bits 31:0. Reset 0x0000_0000. -/
def SITE_ACC_CHG_0 (d : Nat) : Nat := siteBase d + (0x50)

/-- `SITE_ACC_CHG_1`, R309 of 09_sites_and_site_walker.md: CHARGE bits 63:32. Reset 0x0000_0000. -/
def SITE_ACC_CHG_1 (d : Nat) : Nat := siteBase d + (0x54)

/-- `SITE_ACC_CHG_2`, R309 of 09_sites_and_site_walker.md: CHARGE bits 95:64. Reset 0x0000_0000. -/
def SITE_ACC_CHG_2 (d : Nat) : Nat := siteBase d + (0x58)

/-- `SITE_JCFG`, R309 of 09_sites_and_site_walker.md: [15:0] INTERVAL_S, values below 600 act as 600; [16] EN; [31:17] reserved. Reset 0x0001_0E10. -/
def SITE_JCFG (d : Nat) : Nat := siteBase d + (0x60)

/-- SITE_JCFG.INTERVAL_S, bits 15:0. -/
def SITE_JCFG.INTERVAL_S : Fld := ⟨0, 16⟩

/-- SITE_JCFG.EN, bits 16:16. -/
def SITE_JCFG.EN : Fld := ⟨16, 1⟩

/-- `SITE_JFIRST`, R309 of 09_sites_and_site_walker.md: [13:0] first context; [31:14] reserved. Reset 0x0000_0000. -/
def SITE_JFIRST (d : Nat) : Nat := siteBase d + (0x64)

/-- `SITE_JCOUNT`, R309 of 09_sites_and_site_walker.md: [13:0] contexts, 0 acts as 1; [31:14] reserved. Reset 0x0000_0001. -/
def SITE_JCOUNT (d : Nat) : Nat := siteBase d + (0x68)

/-- `SITE_JCTRL`, R309 of 09_sites_and_site_walker.md: [0] GO (R288); [31:1] reserved. Reset 0x0000_0000. -/
def SITE_JCTRL (d : Nat) : Nat := siteBase d + (0x6C)

/-- SITE_JCTRL.GO, bits 0:0. -/
def SITE_JCTRL.GO : Fld := ⟨0, 1⟩

/-- `SITE_JSTAT`, R309 of 09_sites_and_site_walker.md: [0] BUSY; [15:1] reserved; [29:16] LOST, set at POR (R289); [31:30] reserved. Reset 0x0000_0000. -/
def SITE_JSTAT (d : Nat) : Nat := siteBase d + (0x70)

/-- SITE_JSTAT.BUSY, bits 0:0. -/
def SITE_JSTAT.BUSY : Fld := ⟨0, 1⟩

/-- SITE_JSTAT.LOST, bits 29:16. -/
def SITE_JSTAT.LOST : Fld := ⟨16, 14⟩

/-- `SITE_WS_CFG_s`, R311 of 09_sites_and_site_walker.md: stream configuration. Reset by field. -/
def SITE_WS_CFG (d s : Nat) : Nat := siteBase d + (0x400 + 0x100 * s)

/-- SITE_WS_CFG.REGION, bits 9:8. -/
def SITE_WS_CFG.REGION : Fld := ⟨8, 2⟩

/-- SITE_WS_CFG.LVL_EN, bits 7:7. -/
def SITE_WS_CFG.LVL_EN : Fld := ⟨7, 1⟩

/-- SITE_WS_CFG.LSRC, bits 6:6. -/
def SITE_WS_CFG.LSRC : Fld := ⟨6, 1⟩

/-- SITE_WS_CFG.SCR, bits 5:4. -/
def SITE_WS_CFG.SCR : Fld := ⟨4, 2⟩

/-- SITE_WS_CFG.EN, bits 0:0. -/
def SITE_WS_CFG.EN : Fld := ⟨0, 1⟩

/-- `SITE_WS_RANGE_s`, R311 of 09_sites_and_site_walker.md: [15:0] LO; [31:16] HI; HI below LO acts as LO. Reset image. -/
def SITE_WS_RANGE (d s : Nat) : Nat := siteBase d + (0x404 + 0x100 * s)

/-- SITE_WS_RANGE.LO, bits 15:0. -/
def SITE_WS_RANGE.LO : Fld := ⟨0, 16⟩

/-- SITE_WS_RANGE.HI, bits 31:16. -/
def SITE_WS_RANGE.HI : Fld := ⟨16, 16⟩

/-- `SITE_WS_GEOM_s`, R311 of 09_sites_and_site_walker.md: [4:0] WIDTH, 1 to 16, other values act as 16; [7:5] reserved; [11:8] COLBITS; [15:12] reserved; [29:16] SITEBASE; [31:30] reserved. Reset image. -/
def SITE_WS_GEOM (d s : Nat) : Nat := siteBase d + (0x408 + 0x100 * s)

/-- SITE_WS_GEOM.WIDTH, bits 4:0. -/
def SITE_WS_GEOM.WIDTH : Fld := ⟨0, 5⟩

/-- SITE_WS_GEOM.COLBITS, bits 11:8. -/
def SITE_WS_GEOM.COLBITS : Fld := ⟨8, 4⟩

/-- SITE_WS_GEOM.SITEBASE, bits 29:16. -/
def SITE_WS_GEOM.SITEBASE : Fld := ⟨16, 14⟩

/-- `SITE_WS_LFSR_s`, R311 of 09_sites_and_site_walker.md: [15:0] SEED; [31:16] TAPS (R300). Reset 0xB400_0001. -/
def SITE_WS_LFSR (d s : Nat) : Nat := siteBase d + (0x40C + 0x100 * s)

/-- SITE_WS_LFSR.SEED, bits 15:0. -/
def SITE_WS_LFSR.SEED : Fld := ⟨0, 16⟩

/-- SITE_WS_LFSR.TAPS, bits 31:16. -/
def SITE_WS_LFSR.TAPS : Fld := ⟨16, 16⟩

/-- `SITE_WS_POS_s`, R311 of 09_sites_and_site_walker.md: confirmed position: [3:0] element; [5:4] op; [7:6] reserved; [23:8] c; [31:24] reserved. Reset 0x0000_0000. -/
def SITE_WS_POS (d s : Nat) : Nat := siteBase d + (0x410 + 0x100 * s)

/-- `SITE_WS_STAT_s`, R311 of 09_sites_and_site_walker.md: [0] WRAPPED; [1] LFSR_SHORT; [31:2] reserved. Reset 0x0000_0000. -/
def SITE_WS_STAT (d s : Nat) : Nat := siteBase d + (0x414 + 0x100 * s)

/-- SITE_WS_STAT.WRAPPED, bits 0:0. -/
def SITE_WS_STAT.WRAPPED : Fld := ⟨0, 1⟩

/-- SITE_WS_STAT.LFSR_SHORT, bits 1:1. -/
def SITE_WS_STAT.LFSR_SHORT : Fld := ⟨1, 1⟩

/-- `SITE_WS_TOTAL_s`, R311 of 09_sites_and_site_walker.md: [22:0] outputs of one run (R301); [31:23] reserved. Reset 0x0000_0000. -/
def SITE_WS_TOTAL (d s : Nat) : Nat := siteBase d + (0x418 + 0x100 * s)

/-- `SITE_WS_CTRL_s`, R311 of 09_sites_and_site_walker.md: [0] RESTART (R303); [31:1] reserved. Reset 0x0000_0000. -/
def SITE_WS_CTRL (d s : Nat) : Nat := siteBase d + (0x41C + 0x100 * s)

/-- SITE_WS_CTRL.RESTART, bits 0:0. -/
def SITE_WS_CTRL.RESTART : Fld := ⟨0, 1⟩

/-- `SITE_WS_LVL_s_l`, R311 of 09_sites_and_site_walker.md: l = 0 to 3: level, signed Q2.30 of FS. Reset 0x0000_0000. -/
def SITE_WS_LVL (d s l : Nat) : Nat := siteBase d + (0x420 + 0x100 * s + 0x4 * l)

/-- `SITE_WS_LVLTAB_s`, R311 of 09_sites_and_site_walker.md: [23:0] level table offset in the waveform block, multiple of 4; [31:24] reserved. Reset 0x0000_0000. -/
def SITE_WS_LVLTAB (d s : Nat) : Nat := siteBase d + (0x430 + 0x100 * s)

/-- `SITE_WS_ELEM_s_e`, R311 of 09_sites_and_site_walker.md: e = 0 to 15: march element. Reset by field. -/
def SITE_WS_ELEM (d s e : Nat) : Nat := siteBase d + (0x440 + 0x100 * s + 0x4 * e)

/-- SITE_WS_ELEM.LAST, bits 31:31. -/
def SITE_WS_ELEM.LAST : Fld := ⟨31, 1⟩

/-- SITE_WS_ELEM.ORDER, bits 30:30. -/
def SITE_WS_ELEM.ORDER : Fld := ⟨30, 1⟩

/-- SITE_WS_ELEM.NOPS, bits 29:28. -/
def SITE_WS_ELEM.NOPS : Fld := ⟨28, 2⟩

/-- SITE_WS_ELEM.BG, bits 27:26. -/
def SITE_WS_ELEM.BG : Fld := ⟨26, 2⟩

/-- SITE_WS_ELEM.DATA, bits 23:16. -/
def SITE_WS_ELEM.DATA : Fld := ⟨16, 8⟩

/-- SITE_WS_ELEM.OPS, bits 15:0. -/
def SITE_WS_ELEM.OPS : Fld := ⟨0, 16⟩

/-- `LIFE_RW_SEL`, R314 of 09_sites_and_site_walker.md: [15:0] relay index; [31:16] reserved. Reset 0x0000_0000. -/
def LIFE_RW_SEL : Nat := 0x80000 + (0x800)

/-- `LIFE_RW_CNT`, R314 of 09_sites_and_site_walker.md: closures of the selected relay (R304). Reset NVM. -/
def LIFE_RW_CNT : Nat := 0x80000 + (0x804)

/-- `LIFE_RW_CLASS`, R314 of 09_sites_and_site_walker.md: [3:0] class of the selected relay; [31:4] reserved. Reset NVM. -/
def LIFE_RW_CLASS : Nat := 0x80000 + (0x808)

/-- `LIFE_RW_CTRL`, R314 of 09_sites_and_site_walker.md: [0] CLR_CNT (R305); [31:1] reserved. Reset 0x0000_0000. -/
def LIFE_RW_CTRL : Nat := 0x80000 + (0x80C)

/-- LIFE_RW_CTRL.CLR_CNT, bits 0:0. -/
def LIFE_RW_CTRL.CLR_CNT : Fld := ⟨0, 1⟩

/-- `LIFE_RW_THR_k`, R314 of 09_sites_and_site_walker.md: k = 0 to 15: warning threshold of class k; 0x0098_9680 (10,000,000) without NVM data. Reset NVM. -/
def LIFE_RW_THR (k : Nat) : Nat := 0x80000 + (0x840 + 0x4 * k)

/-- `LIFE_RW_WARN`, R314 of 09_sites_and_site_walker.md: [16:0] relays past their threshold; [31:17] reserved. Reset NVM. -/
def LIFE_RW_WARN : Nat := 0x80000 + (0x880)

/-- `LIFE_RW_LAST`, R314 of 09_sites_and_site_walker.md: [15:0] last relay to reach its threshold; [30:16] reserved; [31] VALID. Reset NVM. -/
def LIFE_RW_LAST : Nat := 0x80000 + (0x884)

/-- LIFE_RW_LAST.VALID, bits 31:31. -/
def LIFE_RW_LAST.VALID : Fld := ⟨31, 1⟩

/-- `EVT_FIRE`, R336 of 10_event_fabric.md: [8:0] channel to fire (R325); [31:9] reserved. Reset 0x0000_0000. -/
def EVT_FIRE (d : Nat) : Nat := evtBase d + (0x0)

/-- `EVT_STAT`, R336 of 10_event_fabric.md: fabric status. Reset by field. -/
def EVT_STAT (d : Nat) : Nat := evtBase d + (0x4)

/-- EVT_STAT.FIRE_REF, bits 3:3. -/
def EVT_STAT.FIRE_REF : Fld := ⟨3, 1⟩

/-- EVT_STAT.WSAT, bits 2:2. -/
def EVT_STAT.WSAT : Fld := ⟨2, 1⟩

/-- EVT_STAT.LOOP, bits 1:1. -/
def EVT_STAT.LOOP : Fld := ⟨1, 1⟩

/-- EVT_STAT.COINCIDENT, bits 0:0. -/
def EVT_STAT.COINCIDENT : Fld := ⟨0, 1⟩

/-- `EVT_LOOP_CNT`, R336 of 10_event_fabric.md: events not issued by R329. Reset 0x0000_0000. -/
def EVT_LOOP_CNT (d : Nat) : Nat := evtBase d + (0x8)

/-- `EVT_LOOP_LAST`, R336 of 10_event_fabric.md: [11:0] last producer stopped; [31:12] reserved. Reset 0x0000_0000. -/
def EVT_LOOP_LAST (d : Nat) : Nat := evtBase d + (0xC)

/-- `EVT_FIRE_SET_k`, R336 of 10_event_fabric.md: k = 0 to 15: bit j fires channel 32·k + j. Reset 0x0000_0000. -/
def EVT_FIRE_SET (d k : Nat) : Nat := evtBase d + (0x40 + 0x4 * k)

/-- `EVT_SLVL_k`, R336 of 10_event_fabric.md: bit j: software level of channel 32·k + j (R324). Reset 0x0000_0000. -/
def EVT_SLVL (d k : Nat) : Nat := evtBase d + (0x80 + 0x4 * k)

/-- `EVT_LVL_k`, R336 of 10_event_fabric.md: bit j: level of channel 32·k + j. Reset 0x0000_0000. -/
def EVT_LVL (d k : Nat) : Nat := evtBase d + (0xC0 + 0x4 * k)

/-- `EVT_CH_n`, R336 of 10_event_fabric.md: n = 0 to 511: channel configuration. Reset by field. -/
def EVT_CH (d n : Nat) : Nat := evtBase d + (0x1000 + 0x8 * n)

/-- EVT_CH.SECURE, bits 16:16. -/
def EVT_CH.SECURE : Fld := ⟨16, 1⟩

/-- EVT_CH.OWNER, bits 14:12. -/
def EVT_CH.OWNER : Fld := ⟨12, 3⟩

/-- EVT_CH.SRC, bits 11:0. -/
def EVT_CH.SRC : Fld := ⟨0, 12⟩

/-- `EVT_ISSUE_n`, R336 of 10_event_fabric.md: weighted events issued on channel n. Reset 0x0000_0000. -/
def EVT_ISSUE (d n : Nat) : Nat := evtBase d + (0x1004 + 0x8 * n)

/-- `EVT_IN_CFG_i`, R336 of 10_event_fabric.md: i = 0 to 2,047: input configuration. Reset by field. -/
def EVT_IN_CFG (d i : Nat) : Nat := evtBase d + (0x2000 + 0x10 * i)

/-- EVT_IN_CFG.KIND, bits 23:22. -/
def EVT_IN_CFG.KIND : Fld := ⟨22, 2⟩

/-- EVT_IN_CFG.RING, bits 21:21. -/
def EVT_IN_CFG.RING : Fld := ⟨21, 1⟩

/-- EVT_IN_CFG.GINV, bits 20:20. -/
def EVT_IN_CFG.GINV : Fld := ⟨20, 1⟩

/-- EVT_IN_CFG.GATE_EN, bits 19:19. -/
def EVT_IN_CFG.GATE_EN : Fld := ⟨19, 1⟩

/-- EVT_IN_CFG.GATE, bits 18:10. -/
def EVT_IN_CFG.GATE : Fld := ⟨10, 9⟩

/-- EVT_IN_CFG.SEL, bits 9:0. -/
def EVT_IN_CFG.SEL : Fld := ⟨0, 10⟩

/-- `EVT_IN_STAT_i`, R336 of 10_event_fabric.md: input status. Reset by field. -/
def EVT_IN_STAT (d i : Nat) : Nat := evtBase d + (0x2004 + 0x10 * i)

/-- EVT_IN_STAT.BLK, bits 31:16. -/
def EVT_IN_STAT.BLK : Fld := ⟨16, 16⟩

/-- EVT_IN_STAT.LIN, bits 3:1. -/
def EVT_IN_STAT.LIN : Fld := ⟨1, 3⟩

/-- EVT_IN_STAT.PEND, bits 0:0. -/
def EVT_IN_STAT.PEND : Fld := ⟨0, 1⟩

/-- `EVT_IN_TAKEN_i`, R336 of 10_event_fabric.md: events taken, weighted by R328. Reset 0x0000_0000. -/
def EVT_IN_TAKEN (d i : Nat) : Nat := evtBase d + (0x2008 + 0x10 * i)

/-- `EVT_IN_OVF_i`, R336 of 10_event_fabric.md: overflow, weighted by R328. Reset 0x0000_0000. -/
def EVT_IN_OVF (d i : Nat) : Nat := evtBase d + (0x200C + 0x10 * i)

/-- `EVT_CNT_VALUE_m`, R336 of 10_event_fabric.md: m = 0 to 15: counter value. Reset 0x0000_0000. -/
def EVT_CNT_VALUE (d m : Nat) : Nat := evtBase d + (0xB000 + 0x10 * m)

/-- `EVT_CNT_CMP_m`, R336 of 10_event_fabric.md: compare value. Reset 0xFFFF_FFFF. -/
def EVT_CNT_CMP (d m : Nat) : Nat := evtBase d + (0xB004 + 0x10 * m)

/-- `EVT_CNT_CTRL_m`, R336 of 10_event_fabric.md: [0] AUTO_CLR; [3:1] reserved; [6:4] OWNER, image; [7] SECURE, image; [31:8] reserved. Reset 0x0000_0000. -/
def EVT_CNT_CTRL (d m : Nat) : Nat := evtBase d + (0xB008 + 0x10 * m)

/-- EVT_CNT_CTRL.AUTO_CLR, bits 0:0. -/
def EVT_CNT_CTRL.AUTO_CLR : Fld := ⟨0, 1⟩

/-- EVT_CNT_CTRL.OWNER, bits 6:4. -/
def EVT_CNT_CTRL.OWNER : Fld := ⟨4, 3⟩

/-- EVT_CNT_CTRL.SECURE, bits 7:7. -/
def EVT_CNT_CTRL.SECURE : Fld := ⟨7, 1⟩

/-- `EVT_CAP_LO_m`, R336 of 10_event_fabric.md: m = 0 to 7: captured timestamp bits 31:0; read first, shadows HI as R47. Reset 0x0000_0000. -/
def EVT_CAP_LO (d m : Nat) : Nat := evtBase d + (0xB100 + 0x10 * m)

/-- `EVT_CAP_HI_m`, R336 of 10_event_fabric.md: bits 63:32, from shadow. Reset 0x0000_0000. -/
def EVT_CAP_HI (d m : Nat) : Nat := evtBase d + (0xB104 + 0x10 * m)

/-- `EVT_CAP_COUNT_m`, R336 of 10_event_fabric.md: weighted captures. Reset 0x0000_0000. -/
def EVT_CAP_COUNT (d m : Nat) : Nat := evtBase d + (0xB108 + 0x10 * m)

/-- `EVT_EVIO_k`, R336 of 10_event_fabric.md: k = 0 to 7: EVIO pin 8·d + k. Reset by field. -/
def EVT_EVIO (d k : Nat) : Nat := evtBase d + (0xB200 + 0x4 * k)

/-- EVT_EVIO.PIN, bits 31:31. -/
def EVT_EVIO.PIN : Fld := ⟨31, 1⟩

/-- EVT_EVIO.OWNER, bits 19:16. -/
def EVT_EVIO.OWNER : Fld := ⟨16, 4⟩

/-- EVT_EVIO.PW, bits 15:8. -/
def EVT_EVIO.PW : Fld := ⟨8, 8⟩

/-- EVT_EVIO.LVL, bits 2:2. -/
def EVT_EVIO.LVL : Fld := ⟨2, 1⟩

/-- EVT_EVIO.INV, bits 1:1. -/
def EVT_EVIO.INV : Fld := ⟨1, 1⟩

/-- EVT_EVIO.DIR, bits 0:0. -/
def EVT_EVIO.DIR : Fld := ⟨0, 1⟩

/-- `EVT_PFIRE`, R338 of 10_event_fabric.md: [7:0] package channel to fire; [31:8] reserved. Reset 0x0000_0000. -/
def EVT_PFIRE : Nat := 0x30000 + (0x0)

/-- `EVT_SFIRE`, R338 of 10_event_fabric.md: [5:0] system channel to fire at its source package (R325); [31:6] reserved. Reset 0x0000_0000. -/
def EVT_SFIRE : Nat := 0x30000 + (0x4)

/-- `EVT_SYS_CFG`, R338 of 10_event_fabric.md: [3:0] HOPS, 0 to 15; [8] ALIGN (R323); [31:9] and [7:4] reserved. Reset 0x0000_000F. -/
def EVT_SYS_CFG : Nat := 0x30000 + (0x8)

/-- EVT_SYS_CFG.HOPS, bits 3:0. -/
def EVT_SYS_CFG.HOPS : Fld := ⟨0, 4⟩

/-- EVT_SYS_CFG.ALIGN, bits 8:8. -/
def EVT_SYS_CFG.ALIGN : Fld := ⟨8, 1⟩

/-- `EVT_PSTAT`, R338 of 10_event_fabric.md: [0] COINCIDENT; [1] MERGED; [2] SYS_LATE; [3] FIRE_REF; [31:4] reserved. Reset 0x0000_0000. -/
def EVT_PSTAT : Nat := 0x30000 + (0xC)

/-- EVT_PSTAT.COINCIDENT, bits 0:0. -/
def EVT_PSTAT.COINCIDENT : Fld := ⟨0, 1⟩

/-- EVT_PSTAT.MERGED, bits 1:1. -/
def EVT_PSTAT.MERGED : Fld := ⟨1, 1⟩

/-- EVT_PSTAT.SYS_LATE, bits 2:2. -/
def EVT_PSTAT.SYS_LATE : Fld := ⟨2, 1⟩

/-- EVT_PSTAT.FIRE_REF, bits 3:3. -/
def EVT_PSTAT.FIRE_REF : Fld := ⟨3, 1⟩

/-- `EVT_PCH_n`, R338 of 10_event_fabric.md: n = 0 to 255: [1:0] KIND: 0 die channel, 1 hub producer, 2 system channel, 3 none; [3:2] DIE; [12:4] INDEX; [15:13] reserved; [18:16] OWNER; [19] SECURE; [31:20] reserved. Reset image. -/
def EVT_PCH (n : Nat) : Nat := 0x30000 + (0x1000 + 0x8 * n)

/-- EVT_PCH.DIE, bits 3:2. -/
def EVT_PCH.DIE : Fld := ⟨2, 2⟩

/-- EVT_PCH.INDEX, bits 12:4. -/
def EVT_PCH.INDEX : Fld := ⟨4, 9⟩

/-- EVT_PCH.OWNER, bits 18:16. -/
def EVT_PCH.OWNER : Fld := ⟨16, 3⟩

/-- EVT_PCH.SECURE, bits 19:19. -/
def EVT_PCH.SECURE : Fld := ⟨19, 1⟩

/-- `EVT_PISSUE_n`, R338 of 10_event_fabric.md: weighted events issued. Reset 0x0000_0000. -/
def EVT_PISSUE (n : Nat) : Nat := 0x30000 + (0x1004 + 0x8 * n)

/-- `EVT_SCH_n`, R338 of 10_event_fabric.md: n = 0 to 63: [3:0] source package; [11:4] package channel; [14:12] OWNER; [15] SECURE; [16] VALID; [31:17] reserved. Reset image. -/
def EVT_SCH (n : Nat) : Nat := 0x30000 + (0x2000 + 0x8 * n)

/-- EVT_SCH.OWNER, bits 14:12. -/
def EVT_SCH.OWNER : Fld := ⟨12, 3⟩

/-- EVT_SCH.SECURE, bits 15:15. -/
def EVT_SCH.SECURE : Fld := ⟨15, 1⟩

/-- EVT_SCH.VALID, bits 16:16. -/
def EVT_SCH.VALID : Fld := ⟨16, 1⟩

/-- `EVT_SISSUE_n`, R338 of 10_event_fabric.md: weighted events issued, at the source package. Reset 0x0000_0000. -/
def EVT_SISSUE (n : Nat) : Nat := 0x30000 + (0x2004 + 0x8 * n)

/-- `DMA_CFG`, R362 of 11_data_movement_and_credits.md: [15:0] STALL_US, 1 to 65,535, 0 acts as 1; [16] NL_EN; [31:17] reserved. Reset 0x0000_0064. -/
def DMA_CFG : Nat := 0x40000 + (0x0)

/-- DMA_CFG.STALL_US, bits 15:0. -/
def DMA_CFG.STALL_US : Fld := ⟨0, 16⟩

/-- DMA_CFG.NL_EN, bits 16:16. -/
def DMA_CFG.NL_EN : Fld := ⟨16, 1⟩

/-- `DMA_STAT`, R362 of 11_data_movement_and_credits.md: host link status. Reset by field. -/
def DMA_STAT : Nat := 0x40000 + (0x4)

/-- DMA_STAT.REG_TMO, bits 3:3. -/
def DMA_STAT.REG_TMO : Fld := ⟨3, 1⟩

/-- DMA_STAT.STALL_SEEN, bits 2:2. -/
def DMA_STAT.STALL_SEEN : Fld := ⟨2, 1⟩

/-- DMA_STAT.LINK_DOWN, bits 1:1. -/
def DMA_STAT.LINK_DOWN : Fld := ⟨1, 1⟩

/-- DMA_STAT.STALL, bits 0:0. -/
def DMA_STAT.STALL : Fld := ⟨0, 1⟩

/-- `DMA_RMAP_d_g`, R362 of 11_data_movement_and_credits.md: [5:0] ring of region g of die d; [31:6] reserved. Reset image. -/
def DMA_RMAP (t : Nat) : Nat := 0x40000 + (0x40 + 0x4 * t)

/-- `DMA_AUD_SEL`, R362 of 11_data_movement_and_credits.md: [11:0] pool (R358); [31:12] reserved. Reset 0x0000_0000. -/
def DMA_AUD_SEL : Nat := 0x40000 + (0x100)

/-- `DMA_AUD_TOTAL`, R362 of 11_data_movement_and_credits.md: total of the selected pool. Reset 0x0000_0000. -/
def DMA_AUD_TOTAL : Nat := 0x40000 + (0x104)

/-- `DMA_AUD_HELD`, R362 of 11_data_movement_and_credits.md: held at the last audit. Reset 0x0000_0000. -/
def DMA_AUD_HELD : Nat := 0x40000 + (0x108)

/-- `DMA_AUD_INFL`, R362 of 11_data_movement_and_credits.md: in flight at the last audit. Reset 0x0000_0000. -/
def DMA_AUD_INFL : Nat := 0x40000 + (0x10C)

/-- `DMA_AUD_RET`, R362 of 11_data_movement_and_credits.md: returned at the last audit. Reset 0x0000_0000. -/
def DMA_AUD_RET : Nat := 0x40000 + (0x110)

/-- `DMA_AUD_STAT`, R362 of 11_data_movement_and_credits.md: audit status. Reset by field. -/
def DMA_AUD_STAT : Nat := 0x40000 + (0x114)

/-- DMA_AUD_STAT.MISM_CNT, bits 31:16. -/
def DMA_AUD_STAT.MISM_CNT : Fld := ⟨16, 16⟩

/-- DMA_AUD_STAT.MISM, bits 0:0. -/
def DMA_AUD_STAT.MISM : Fld := ⟨0, 1⟩

/-- `DMA_RING_CTRL`, R363 of 11_data_movement_and_credits.md: ring control. Reset by field. -/
def DMA_RING_CTRL (r : Nat) : Nat := 0x40000 + (0x1000 + 0x40 * r)

/-- DMA_RING_CTRL.OWNER, bits 18:16. -/
def DMA_RING_CTRL.OWNER : Fld := ⟨16, 3⟩

/-- DMA_RING_CTRL.VEC, bits 13:8. -/
def DMA_RING_CTRL.VEC : Fld := ⟨8, 6⟩

/-- DMA_RING_CTRL.IEN, bits 1:1. -/
def DMA_RING_CTRL.IEN : Fld := ⟨1, 1⟩

/-- DMA_RING_CTRL.EN, bits 0:0. -/
def DMA_RING_CTRL.EN : Fld := ⟨0, 1⟩

/-- `DMA_RING_SIZE`, R363 of 11_data_movement_and_credits.md: [4:0] LOG2, 6 to 24; other values act as 6; [31:5] reserved. Reset 0x0000_0006. -/
def DMA_RING_SIZE (r : Nat) : Nat := 0x40000 + (0x1004 + 0x40 * r)

/-- DMA_RING_SIZE.LOG2, bits 4:0. -/
def DMA_RING_SIZE.LOG2 : Fld := ⟨0, 5⟩

/-- `DMA_RING_BASE_LO`, R363 of 11_data_movement_and_credits.md: host address bits 31:0; [11:0] read 0. Reset 0x0000_0000. -/
def DMA_RING_BASE_LO (r : Nat) : Nat := 0x40000 + (0x1008 + 0x40 * r)

/-- `DMA_RING_BASE_HI`, R363 of 11_data_movement_and_credits.md: host address bits 63:32. Reset 0x0000_0000. -/
def DMA_RING_BASE_HI (r : Nat) : Nat := 0x40000 + (0x100C + 0x40 * r)

/-- `DMA_RING_WB_LO`, R363 of 11_data_movement_and_credits.md: writeback address bits 31:0; [2:0] read 0. Reset 0x0000_0000. -/
def DMA_RING_WB_LO (r : Nat) : Nat := 0x40000 + (0x1010 + 0x40 * r)

/-- `DMA_RING_WB_HI`, R363 of 11_data_movement_and_credits.md: writeback address bits 63:32. Reset 0x0000_0000. -/
def DMA_RING_WB_HI (r : Nat) : Nat := 0x40000 + (0x1014 + 0x40 * r)

/-- `DMA_RING_HEAD`, R363 of 11_data_movement_and_credits.md: records released (R341). Reset 0x0000_0000. -/
def DMA_RING_HEAD (r : Nat) : Nat := 0x40000 + (0x1018 + 0x40 * r)

/-- `DMA_RING_TAIL`, R363 of 11_data_movement_and_credits.md: records written. Reset 0x0000_0000. -/
def DMA_RING_TAIL (r : Nat) : Nat := 0x40000 + (0x101C + 0x40 * r)

/-- `DMA_RING_DROP`, R363 of 11_data_movement_and_credits.md: records dropped (R344). Reset 0x0000_0000. -/
def DMA_RING_DROP (r : Nat) : Nat := 0x40000 + (0x1020 + 0x40 * r)

/-- `DMA_RING_MOD`, R363 of 11_data_movement_and_credits.md: [11:0] WB_CNT, 1 to 4,095, 0 acts as 1; [15:12] reserved; [31:16] INT_US; WB_US equals INT_US. Reset 0x0064_0100. -/
def DMA_RING_MOD (r : Nat) : Nat := 0x40000 + (0x1024 + 0x40 * r)

/-- DMA_RING_MOD.WB_CNT, bits 11:0. -/
def DMA_RING_MOD.WB_CNT : Fld := ⟨0, 12⟩

/-- DMA_RING_MOD.INT_US, bits 31:16. -/
def DMA_RING_MOD.INT_US : Fld := ⟨16, 16⟩

/-- `DMA_RING_STAT`, R363 of 11_data_movement_and_credits.md: [0] HEAD_ERR; [1] DROPPED; [31:2] reserved. Reset 0x0000_0000. -/
def DMA_RING_STAT (r : Nat) : Nat := 0x40000 + (0x1028 + 0x40 * r)

/-- DMA_RING_STAT.HEAD_ERR, bits 0:0. -/
def DMA_RING_STAT.HEAD_ERR : Fld := ⟨0, 1⟩

/-- DMA_RING_STAT.DROPPED, bits 1:1. -/
def DMA_RING_STAT.DROPPED : Fld := ⟨1, 1⟩

/-- `ROPE_CFG`, R364 of 11_data_movement_and_credits.md: [0] SAFE_PROP (R357); [31:1] reserved. Reset 0x0000_0000. -/
def ROPE_CFG : Nat := 0x50000 + (0x0)

/-- ROPE_CFG.SAFE_PROP, bits 0:0. -/
def ROPE_CFG.SAFE_PROP : Fld := ⟨0, 1⟩

/-- `ROPE_MBX_TX`, R364 of 11_data_movement_and_credits.md: mailbox send. Reset by field. -/
def ROPE_MBX_TX : Nat := 0x50000 + (0x10)

/-- ROPE_MBX_TX.GO, bits 31:31. -/
def ROPE_MBX_TX.GO : Fld := ⟨31, 1⟩

/-- ROPE_MBX_TX.BUSY, bits 30:30. -/
def ROPE_MBX_TX.BUSY : Fld := ⟨30, 1⟩

/-- ROPE_MBX_TX.NUM, bits 15:8. -/
def ROPE_MBX_TX.NUM : Fld := ⟨8, 8⟩

/-- ROPE_MBX_TX.LEN, bits 7:4. -/
def ROPE_MBX_TX.LEN : Fld := ⟨4, 4⟩

/-- ROPE_MBX_TX.DEST, bits 3:0. -/
def ROPE_MBX_TX.DEST : Fld := ⟨0, 4⟩

/-- `ROPE_MBX_TXD_LO`, R364 of 11_data_movement_and_credits.md: data bytes 0 to 3. Reset 0x0000_0000. -/
def ROPE_MBX_TXD_LO : Nat := 0x50000 + (0x14)

/-- `ROPE_MBX_TXD_HI`, R364 of 11_data_movement_and_credits.md: data bytes 4 to 7. Reset 0x0000_0000. -/
def ROPE_MBX_TXD_HI : Nat := 0x50000 + (0x18)

/-- `ROPE_MBX_RXD_LO`, R364 of 11_data_movement_and_credits.md: head entry, data bytes 0 to 3. Reset 0x0000_0000. -/
def ROPE_MBX_RXD_LO : Nat := 0x50000 + (0x20)

/-- `ROPE_MBX_RXD_HI`, R364 of 11_data_movement_and_credits.md: head entry, data bytes 4 to 7. Reset 0x0000_0000. -/
def ROPE_MBX_RXD_HI : Nat := 0x50000 + (0x24)

/-- `ROPE_MBX_RXC`, R364 of 11_data_movement_and_credits.md: [3:0] source; [7:4] length; [15:8] message number; [20:16] entries queued; [31] VALID; a read removes the head entry. Reset 0x0000_0000. -/
def ROPE_MBX_RXC : Nat := 0x50000 + (0x28)

/-- ROPE_MBX_RXC.VALID, bits 31:31. -/
def ROPE_MBX_RXC.VALID : Fld := ⟨31, 1⟩

/-- `ROPE_PEER_FLT`, R364 of 11_data_movement_and_credits.md: fault reports received. Reset 0x0000_0000. -/
def ROPE_PEER_FLT : Nat := 0x50000 + (0x30)

/-- `ROPE_PEER_LAST`, R364 of 11_data_movement_and_credits.md: [3:0] package; [7:4] reserved; [15:8] severity; [31:16] fault source number. Reset 0x0000_0000. -/
def ROPE_PEER_LAST : Nat := 0x50000 + (0x34)

/-- `ROPE_STAT_p`, R364 of 11_data_movement_and_credits.md: p = 0 UP, 1 DOWN: [0] LINK_UP; [4:1] block lock per lane; [5] PARTNER; [31:6] reserved. Reset 0x0000_0000. -/
def ROPE_STAT (p : Nat) : Nat := 0x50000 + (0x100 + 0x100 * p)

/-- ROPE_STAT.LINK_UP, bits 0:0. -/
def ROPE_STAT.LINK_UP : Fld := ⟨0, 1⟩

/-- ROPE_STAT.PARTNER, bits 5:5. -/
def ROPE_STAT.PARTNER : Fld := ⟨5, 1⟩

/-- `ROPE_CRC_p`, R364 of 11_data_movement_and_credits.md: frames failed. Reset 0x0000_0000. -/
def ROPE_CRC (p : Nat) : Nat := 0x50000 + (0x104 + 0x100 * p)

/-- `ROPE_REPLAY_p`, R364 of 11_data_movement_and_credits.md: frames replayed. Reset 0x0000_0000. -/
def ROPE_REPLAY (p : Nat) : Nat := 0x50000 + (0x108 + 0x100 * p)

/-- `ROPE_BADSLOT_p`, R364 of 11_data_movement_and_credits.md: slots discarded (R353, R355). Reset 0x0000_0000. -/
def ROPE_BADSLOT (p : Nat) : Nat := 0x50000 + (0x10C + 0x100 * p)

/-- `DIE_SPINE_STAT`, R365 of 11_data_movement_and_credits.md: [0] UP; [1] RETRAINING; [31:2] reserved. Reset 0x0000_0000. -/
def DIE_SPINE_STAT (d : Nat) : Nat := dieBase d + (0x100)

/-- DIE_SPINE_STAT.UP, bits 0:0. -/
def DIE_SPINE_STAT.UP : Fld := ⟨0, 1⟩

/-- DIE_SPINE_STAT.RETRAINING, bits 1:1. -/
def DIE_SPINE_STAT.RETRAINING : Fld := ⟨1, 1⟩

/-- `DIE_SPINE_CRC`, R365 of 11_data_movement_and_credits.md: transfers replayed (R350). Reset 0x0000_0000. -/
def DIE_SPINE_CRC (d : Nat) : Nat := dieBase d + (0x104)

/-- `DIE_SPINE_RETRAIN`, R365 of 11_data_movement_and_credits.md: retrain attempts, failed attempts and 10 ms retries included (R350). Reset 0x0000_0000. -/
def DIE_SPINE_RETRAIN (d : Nat) : Nat := dieBase d + (0x108)

/-- `DIE_SPINE_Q_g`, R365 of 11_data_movement_and_credits.md: [9:0] class 1 quota of region g (R349); [31:10] reserved. Reset image; 0x0000_0080 without an image. -/
def DIE_SPINE_Q (d g : Nat) : Nat := dieBase d + (0x110 + 0x4 * g)

/-- `DIE_RBUF_DROP_g`, R365 of 11_data_movement_and_credits.md: measurement records dropped at a full result buffer. Reset 0x0000_0000. -/
def DIE_RBUF_DROP (d g : Nat) : Nat := dieBase d + (0x120 + 0x4 * g)

/-- `IMG_CMD`, R391 of 12_berrin_image.md: image command. Reset by field. -/
def IMG_CMD : Nat := 0x90000 + (0x0)

/-- IMG_CMD.GO, bits 31:31. -/
def IMG_CMD.GO : Fld := ⟨31, 1⟩

/-- IMG_CMD.AT, bits 12:12. -/
def IMG_CMD.AT : Fld := ⟨12, 1⟩

/-- IMG_CMD.SRC, bits 11:11. -/
def IMG_CMD.SRC : Fld := ⟨11, 1⟩

/-- IMG_CMD.SLOT, bits 9:9. -/
def IMG_CMD.SLOT : Fld := ⟨9, 1⟩

/-- IMG_CMD.TARGET, bits 8:4. -/
def IMG_CMD.TARGET : Fld := ⟨4, 5⟩

/-- IMG_CMD.OP, bits 3:0. -/
def IMG_CMD.OP : Fld := ⟨0, 4⟩

/-- `IMG_STAT`, R391 of 12_berrin_image.md: loader status. Reset by field. -/
def IMG_STAT : Nat := 0x90000 + (0x4)

/-- IMG_STAT.RESULT, bits 23:16. -/
def IMG_STAT.RESULT : Fld := ⟨16, 8⟩

/-- IMG_STAT.NL, bits 11:11. -/
def IMG_STAT.NL : Fld := ⟨11, 1⟩

/-- IMG_STAT.FALLBACK, bits 10:10. -/
def IMG_STAT.FALLBACK : Fld := ⟨10, 1⟩

/-- IMG_STAT.STG_WR, bits 9:9. -/
def IMG_STAT.STG_WR : Fld := ⟨9, 1⟩

/-- IMG_STAT.AT_LATE, bits 8:8. -/
def IMG_STAT.AT_LATE : Fld := ⟨8, 1⟩

/-- IMG_STAT.WAIT_IDLE, bits 7:7. -/
def IMG_STAT.WAIT_IDLE : Fld := ⟨7, 1⟩

/-- IMG_STAT.PHASE, bits 6:4. -/
def IMG_STAT.PHASE : Fld := ⟨4, 3⟩

/-- IMG_STAT.BUSY, bits 0:0. -/
def IMG_STAT.BUSY : Fld := ⟨0, 1⟩

/-- `IMG_AT_LO`, R391 of 12_berrin_image.md: swap timestamp bits 31:0 (R377). Reset 0x0000_0000. -/
def IMG_AT_LO : Nat := 0x90000 + (0x8)

/-- `IMG_AT_HI`, R391 of 12_berrin_image.md: bits 63:32. Reset 0x0000_0000. -/
def IMG_AT_HI : Nat := 0x90000 + (0xC)

/-- `IMG_SWAP_TMO`, R391 of 12_berrin_image.md: [15:0] idle wait, ms, 0 acts as 1 (R378); [31:16] reserved. Reset 0x0000_03E8. -/
def IMG_SWAP_TMO : Nat := 0x90000 + (0x10)

/-- `IMG_PKG_SEQ`, R391 of 12_berrin_image.md: SEQ of the package image in force; 0 in nightlight. Reset 0x0000_0000. -/
def IMG_PKG_SEQ : Nat := 0x90000 + (0x14)

/-- `IMG_FAIL_CNT`, R391 of 12_berrin_image.md: image operations ended with a failure code. Reset 0x0000_0000. -/
def IMG_FAIL_CNT : Nat := 0x90000 + (0x18)

/-- `IMG_KEY_STAT`, R391 of 12_berrin_image.md: key slots. Reset by field. -/
def IMG_KEY_STAT : Nat := 0x90000 + (0x20)

/-- IMG_KEY_STAT.PROG_ERR, bits 8:8. -/
def IMG_KEY_STAT.PROG_ERR : Fld := ⟨8, 1⟩

/-- IMG_KEY_STAT.REVOKED, bits 7:4. -/
def IMG_KEY_STAT.REVOKED : Fld := ⟨4, 4⟩

/-- IMG_KEY_STAT.PROGRAMMED, bits 3:0. -/
def IMG_KEY_STAT.PROGRAMMED : Fld := ⟨0, 4⟩

/-- `IMG_KEY_CTRL`, R391 of 12_berrin_image.md: key programming. Reset by field. -/
def IMG_KEY_CTRL : Nat := 0x90000 + (0x24)

/-- IMG_KEY_CTRL.REVOKE, bits 9:9. -/
def IMG_KEY_CTRL.REVOKE : Fld := ⟨9, 1⟩

/-- IMG_KEY_CTRL.PROG, bits 8:8. -/
def IMG_KEY_CTRL.PROG : Fld := ⟨8, 1⟩

/-- IMG_KEY_CTRL.SLOT, bits 1:0. -/
def IMG_KEY_CTRL.SLOT : Fld := ⟨0, 2⟩

/-- `IMG_KEY_DATA_k`, R391 of 12_berrin_image.md: k = 0 to 15: key bytes 4k to 4k + 3, X then Y. Reset 0x0000_0000. -/
def IMG_KEY_DATA (k : Nat) : Nat := 0x90000 + (0x40 + 0x4 * k)

/-- `IMG_SLOTINFO_t`, R391 of 12_berrin_image.md: t = 0 to 16: [0] A_VALID; [1] B_VALID; [2] BOOT, 0 A, 1 B; [3] RUN, 0 A, 1 B; [4] RUN_VOL; [5] NONE: no image running; [31:6] reserved. Reset NVM. -/
def IMG_SLOTINFO (t : Nat) : Nat := if t < 16 then 0x90000 + (0x100 + 0x10 * t) else 0x1000_0000 + (0x100 + 0x10 * t)

/-- IMG_SLOTINFO.A_VALID, bits 0:0. -/
def IMG_SLOTINFO.A_VALID : Fld := ⟨0, 1⟩

/-- IMG_SLOTINFO.B_VALID, bits 1:1. -/
def IMG_SLOTINFO.B_VALID : Fld := ⟨1, 1⟩

/-- IMG_SLOTINFO.BOOT, bits 2:2. -/
def IMG_SLOTINFO.BOOT : Fld := ⟨2, 1⟩

/-- IMG_SLOTINFO.RUN, bits 3:3. -/
def IMG_SLOTINFO.RUN : Fld := ⟨3, 1⟩

/-- IMG_SLOTINFO.RUN_VOL, bits 4:4. -/
def IMG_SLOTINFO.RUN_VOL : Fld := ⟨4, 1⟩

/-- `IMG_SEQ_A_t`, R391 of 12_berrin_image.md: SEQ of the image in slot A. Reset NVM. -/
def IMG_SEQ_A (t : Nat) : Nat := if t < 16 then 0x90000 + (0x104 + 0x10 * t) else 0x1000_0000 + (0x104 + 0x10 * t)

/-- `IMG_SEQ_B_t`, R391 of 12_berrin_image.md: SEQ of the image in slot B. Reset NVM. -/
def IMG_SEQ_B (t : Nat) : Nat := if t < 16 then 0x90000 + (0x108 + 0x10 * t) else 0x1000_0000 + (0x108 + 0x10 * t)

/-- `IMG_MIN_SEQ_t`, R391 of 12_berrin_image.md: lowest accepted SEQ; a write that lowers it is ignored (R372). Reset NVM. -/
def IMG_MIN_SEQ (t : Nat) : Nat := if t < 16 then 0x90000 + (0x10C + 0x10 * t) else 0x1000_0000 + (0x10C + 0x10 * t)

/-- `IMG_RGN_STAT_t`, R391 of 12_berrin_image.md: t = 0 to 15: [1:0] STATE: 0 nightlight, 1 running, 2 APPLY pending, 3 restarting; [31:2] reserved. Reset 0x0000_0000. -/
def IMG_RGN_STAT (t : Nat) : Nat := 0x90000 + (0x200 + 0x4 * t)

/-- `IMG_NL_MIN_LO_p`, R392 of 12_berrin_image.md: minimum, binary64 bits 31:0; latches the shadows (R386). Reset 0x0000_0000. -/
def IMG_NL_MIN_LO (p : Nat) : Nat := 0x90000 + (0x1000 + 0x20 * p)

/-- `IMG_NL_MIN_HI_p`, R392 of 12_berrin_image.md: bits 63:32, from shadow. Reset 0x0000_0000. -/
def IMG_NL_MIN_HI (p : Nat) : Nat := 0x90000 + (0x1004 + 0x20 * p)

/-- `IMG_NL_MAX_LO_p`, R392 of 12_berrin_image.md: maximum, bits 31:0, from shadow. Reset 0x0000_0000. -/
def IMG_NL_MAX_LO (p : Nat) : Nat := 0x90000 + (0x1008 + 0x20 * p)

/-- `IMG_NL_MAX_HI_p`, R392 of 12_berrin_image.md: bits 63:32, from shadow. Reset 0x0000_0000. -/
def IMG_NL_MAX_HI (p : Nat) : Nat := 0x90000 + (0x100C + 0x20 * p)

/-- `IMG_NL_MEAN_LO_p`, R392 of 12_berrin_image.md: mean, bits 31:0, from shadow. Reset 0x0000_0000. -/
def IMG_NL_MEAN_LO (p : Nat) : Nat := 0x90000 + (0x1010 + 0x20 * p)

/-- `IMG_NL_MEAN_HI_p`, R392 of 12_berrin_image.md: bits 63:32, from shadow. Reset 0x0000_0000. -/
def IMG_NL_MEAN_HI (p : Nat) : Nat := 0x90000 + (0x1014 + 0x20 * p)

/-- `IMG_NL_FLAGS_p`, R392 of 12_berrin_image.md: [11:0] OR of the second's record flags; [15:12] reserved; [26:16] values reduced, 0 to 1,000; [31:27] reserved. Reset 0x0000_0000. -/
def IMG_NL_FLAGS (p : Nat) : Nat := 0x90000 + (0x1018 + 0x20 * p)

/-- IMG_NL_FLAGS.OR, bits 11:0. -/
def IMG_NL_FLAGS.OR : Fld := ⟨0, 12⟩

/-- `TMP_CFG`, R413 of 13_thermal_and_supply.md: thermal configuration. Reset by field. -/
def TMP_CFG : Nat := 0x60000 + (0x0)

/-- TMP_CFG.XCHK_C, bits 15:8. -/
def TMP_CFG.XCHK_C : Fld := ⟨8, 8⟩

/-- TMP_CFG.REC_EN, bits 2:2. -/
def TMP_CFG.REC_EN : Fld := ⟨2, 1⟩

/-- TMP_CFG.AUTO_RESTART, bits 1:1. -/
def TMP_CFG.AUTO_RESTART : Fld := ⟨1, 1⟩

/-- TMP_CFG.LEGACY_BROKEN_HOT, bits 0:0. -/
def TMP_CFG.LEGACY_BROKEN_HOT : Fld := ⟨0, 1⟩

/-- `TMP_CTRL`, R413 of 13_thermal_and_supply.md: restart and re-admission. Reset by field. -/
def TMP_CTRL : Nat := 0x60000 + (0x4)

/-- TMP_CTRL.READMIT, bits 8:8. -/
def TMP_CTRL.READMIT : Fld := ⟨8, 1⟩

/-- TMP_CTRL.RESTART, bits 7:7. -/
def TMP_CTRL.RESTART : Fld := ⟨7, 1⟩

/-- TMP_CTRL.SENSOR, bits 6:0. -/
def TMP_CTRL.SENSOR : Fld := ⟨0, 7⟩

/-- `TMP_GRACE`, R413 of 13_thermal_and_supply.md: [15:0] grace, ms, 10 to 60,000; smaller values act as 10, larger as 60,000 (R397); [31:16] reserved. Reset 0x0000_01F4. -/
def TMP_GRACE : Nat := 0x60000 + (0x8)

/-- `TMP_ENF_CFG`, R413 of 13_thermal_and_supply.md: enforcement settings. Reset by field. -/
def TMP_ENF_CFG : Nat := 0x60000 + (0xC)

/-- TMP_ENF_CFG.FRAC, bits 31:25. -/
def TMP_ENF_CFG.FRAC : Fld := ⟨25, 7⟩

/-- TMP_ENF_CFG.RDC, bits 21:12. -/
def TMP_ENF_CFG.RDC : Fld := ⟨12, 10⟩

/-- TMP_ENF_CFG.RATE, bits 11:9. -/
def TMP_ENF_CFG.RATE : Fld := ⟨9, 3⟩

/-- TMP_ENF_CFG.STEP_MS, bits 8:0. -/
def TMP_ENF_CFG.STEP_MS : Fld := ⟨0, 9⟩

/-- `TMP_ENF_IDLE`, R413 of 13_thermal_and_supply.md: [23:0] idle dwell, LCLK ticks (R398); [31:24] reserved. Reset 0x0000_03E8. -/
def TMP_ENF_IDLE : Nat := 0x60000 + (0x10)

/-- `TMP_RATE`, R413 of 13_thermal_and_supply.md: [7:0] WARN, °C/s; [15:8] THR, °C/s; 0 acts as 1; [31:16] reserved. Reset 0x0000_1405. -/
def TMP_RATE : Nat := 0x60000 + (0x14)

/-- TMP_RATE.WARN, bits 7:0. -/
def TMP_RATE.WARN : Fld := ⟨0, 8⟩

/-- TMP_RATE.THR, bits 15:8. -/
def TMP_RATE.THR : Fld := ⟨8, 8⟩

/-- `TMP_SHUT`, R413 of 13_thermal_and_supply.md: shutdown status. Reset by field. -/
def TMP_SHUT : Nat := 0x60000 + (0x18)

/-- TMP_SHUT.SENSOR, bits 23:16. -/
def TMP_SHUT.SENSOR : Fld := ⟨16, 8⟩

/-- TMP_SHUT.NO_AUTO, bits 9:9. -/
def TMP_SHUT.NO_AUTO : Fld := ⟨9, 1⟩

/-- TMP_SHUT.SHUT, bits 8:8. -/
def TMP_SHUT.SHUT : Fld := ⟨8, 1⟩

/-- TMP_SHUT.COUNT, bits 7:0. -/
def TMP_SHUT.COUNT : Fld := ⟨0, 8⟩

/-- `TMP_REC`, R413 of 13_thermal_and_supply.md: [7:0] INT_S, 1 to 255, 0 acts as 1 (R409); [31:8] reserved. Reset 0x0000_000A. -/
def TMP_REC : Nat := 0x60000 + (0x1C)

/-- TMP_REC.INT_S, bits 7:0. -/
def TMP_REC.INT_S : Fld := ⟨0, 8⟩

/-- `TMP_EXCL_0`, R413 of 13_thermal_and_supply.md: bit j: sensor j excluded, j = 0 to 31. Reset NVM. -/
def TMP_EXCL_0 : Nat := 0x60000 + (0x20)

/-- `TMP_EXCL_1`, R413 of 13_thermal_and_supply.md: bit j: sensor 32 + j. Reset NVM. -/
def TMP_EXCL_1 : Nat := 0x60000 + (0x24)

/-- `TMP_EXCL_2`, R413 of 13_thermal_and_supply.md: [23:0] sensors 64 to 87; [31:24] reserved. Reset NVM. -/
def TMP_EXCL_2 : Nat := 0x60000 + (0x28)

/-- `TMP_RD_s`, R413 of 13_thermal_and_supply.md: s = 0 to 87: [15:0] value, signed, 1/16 °C; [16] SUBST; [17] EXCL; [31:18] reserved. Reset 0x0000_0000. -/
def TMP_RD (s : Nat) : Nat := 0x60000 + (0x40 + 0x4 * s)

/-- TMP_RD.SUBST, bits 16:16. -/
def TMP_RD.SUBST : Fld := ⟨16, 1⟩

/-- TMP_RD.EXCL, bits 17:17. -/
def TMP_RD.EXCL : Fld := ⟨17, 1⟩

/-- `TMP_RGN_t`, R413 of 13_thermal_and_supply.md: t = 0 to 15: [1:0] REQ; [3:2] ENF, steps in force; [6:4] EFF_RATE; [7] GRACE, timer running; [8] WARN; [31:9] reserved. Reset 0x0000_0000. -/
def TMP_RGN (t : Nat) : Nat := 0x60000 + (0x200 + 0x4 * t)

/-- TMP_RGN.REQ, bits 1:0. -/
def TMP_RGN.REQ : Fld := ⟨0, 2⟩

/-- TMP_RGN.ENF, bits 3:2. -/
def TMP_RGN.ENF : Fld := ⟨2, 2⟩

/-- TMP_RGN.EFF_RATE, bits 6:4. -/
def TMP_RGN.EFF_RATE : Fld := ⟨4, 3⟩

/-- TMP_RGN.GRACE, bits 7:7. -/
def TMP_RGN.GRACE : Fld := ⟨7, 1⟩

/-- TMP_RGN.WARN, bits 8:8. -/
def TMP_RGN.WARN : Fld := ⟨8, 1⟩

/-- `PWR_STAT`, R413 of 13_thermal_and_supply.md: supply status. Reset by field. -/
def PWR_STAT : Nat := 0x60000 + (0x300)

/-- PWR_STAT.OV_SEEN, bits 21:16. -/
def PWR_STAT.OV_SEEN : Fld := ⟨16, 6⟩

/-- PWR_STAT.WARN_SEEN, bits 13:8. -/
def PWR_STAT.WARN_SEEN : Fld := ⟨8, 6⟩

/-- PWR_STAT.WARN, bits 5:0. -/
def PWR_STAT.WARN : Fld := ⟨0, 6⟩

/-- `PWR_BUDGET`, R413 of 13_thermal_and_supply.md: [7:0] budget, W, 10 to 80; other values act as the nearer bound; [31:8] reserved. Reset 0x0000_003C. -/
def PWR_BUDGET : Nat := 0x60000 + (0x304)

/-- `PWR_EST`, R413 of 13_thermal_and_supply.md: [15:0] analog estimate, 1/16 W (R399); [31:16] reserved. Reset 0x0000_0000. -/
def PWR_EST : Nat := 0x60000 + (0x308)

/-- `PWR_GOV`, R413 of 13_thermal_and_supply.md: [15:0] K, UQ1.15; [16] ACTIVE; [31:17] reserved. Reset 0x0000_8000. -/
def PWR_GOV : Nat := 0x60000 + (0x30C)

/-- PWR_GOV.K, bits 15:0. -/
def PWR_GOV.K : Fld := ⟨0, 16⟩

/-- PWR_GOV.ACTIVE, bits 16:16. -/
def PWR_GOV.ACTIVE : Fld := ⟨16, 1⟩

/-- `PWR_FLUSH_EST`, R413 of 13_thermal_and_supply.md: [15:0] flush bound, ms, rounded up (R407); [31:16] reserved. Reset 0x0000_0004. -/
def PWR_FLUSH_EST : Nat := 0x60000 + (0x310)

/-- `PWR_WARN_CNT`, R413 of 13_thermal_and_supply.md: warning crossings of all rails. Reset 0x0000_0000. -/
def PWR_WARN_CNT : Nat := 0x60000 + (0x314)

/-- `PWR_LAST_RESET`, R413 of 13_thermal_and_supply.md: [2:0] rail of the last supply reset; [3] VALID; [31:4] reserved. Reset 0x0000_0000. -/
def PWR_LAST_RESET : Nat := 0x60000 + (0x318)

/-- PWR_LAST_RESET.VALID, bits 3:3. -/
def PWR_LAST_RESET.VALID : Fld := ⟨3, 1⟩

/-- `PWR_RAIL_r`, R413 of 13_thermal_and_supply.md: r = 0 to 5: [15:0] rail magnitude, mV; [31:16] reserved. Reset 0x0000_0000. -/
def PWR_RAIL (r : Nat) : Nat := 0x60000 + (0x320 + 0x4 * r)

/-- `TMP_DRD_k`, R414 of 13_thermal_and_supply.md: k = 0 to 19: as TMP_RD of sensor 20·d + k. Reset 0x0000_0000. -/
def TMP_DRD (d k : Nat) : Nat := dtmpBase d + (0x0 + 0x4 * k)

/-- `TMP_TRIM_k`, R414 of 13_thermal_and_supply.md: [15:0] offset trim, signed, 1/16 °C; [31:16] slope trim, signed, 2^−16. Reset NVM. -/
def TMP_TRIM (d k : Nat) : Nat := dtmpBase d + (0x100 + 0x4 * k)

/-- `TMP_DSTAT`, R414 of 13_thermal_and_supply.md: [0] COMP, shutdown line asserted; [1] ANALOG_OFF; [31:2] reserved. Reset 0x0000_0000. -/
def TMP_DSTAT (d : Nat) : Nat := dtmpBase d + (0x200)

/-- TMP_DSTAT.COMP, bits 0:0. -/
def TMP_DSTAT.COMP : Fld := ⟨0, 1⟩

/-- TMP_DSTAT.ANALOG_OFF, bits 1:1. -/
def TMP_DSTAT.ANALOG_OFF : Fld := ⟨1, 1⟩

/-- `FLT_CFG`, R447 of 14_faults_availability_life.md: [15:0] SETTLE_US, 0 acts as 1 (R423); [31:16] reserved. Reset 0x0000_07D0. -/
def FLT_CFG : Nat := 0x70000 + (0x0)

/-- FLT_CFG.SETTLE_US, bits 15:0. -/
def FLT_CFG.SETTLE_US : Fld := ⟨0, 16⟩

/-- `FLT_STAT`, R447 of 14_faults_availability_life.md: [0] SEV_CLIP (R416); [31:1] reserved. Reset 0x0000_0000. -/
def FLT_STAT : Nat := 0x70000 + (0x4)

/-- FLT_STAT.SEV_CLIP, bits 0:0. -/
def FLT_STAT.SEV_CLIP : Fld := ⟨0, 1⟩

/-- `FLT_NSRC`, R447 of 14_faults_availability_life.md: [15:0] highest source number plus 1; [31:16] reserved. Reset 0x0000_0221. -/
def FLT_NSRC : Nat := 0x70000 + (0x8)

/-- `FLT_RESET_CAUSE`, R447 of 14_faults_availability_life.md: [1:0] 0 POR, 1 PERST#, 2 software, 3 supply; [31:2] reserved. Reset set at reset. -/
def FLT_RESET_CAUSE : Nat := 0x70000 + (0xC)

/-- `FLT_SEV_PEND`, R447 of 14_faults_availability_life.md: [6:1] one bit per severity with a latched, unacknowledged source; [0], [31:7] reserved. Reset 0x0000_0000. -/
def FLT_SEV_PEND : Nat := 0x70000 + (0x10)

/-- `FLT_HUB_CORR`, R447 of 14_faults_availability_life.md: hub SRAM symbols corrected. Reset 0x0000_0000. -/
def FLT_HUB_CORR : Nat := 0x70000 + (0x14)

/-- `FLT_HUB_UNCORR`, R447 of 14_faults_availability_life.md: hub SRAM words uncorrectable. Reset 0x0000_0000. -/
def FLT_HUB_UNCORR : Nat := 0x70000 + (0x18)

/-- `FLT_INJ_SEL`, R447 of 14_faults_availability_life.md: [2:0] CHECKER (R431); [4:3] DIE; [7:5] reserved; [31:8] TARGET. Reset 0x0000_0000. -/
def FLT_INJ_SEL : Nat := 0x70000 + (0x20)

/-- FLT_INJ_SEL.CHECKER, bits 2:0. -/
def FLT_INJ_SEL.CHECKER : Fld := ⟨0, 3⟩

/-- FLT_INJ_SEL.DIE, bits 4:3. -/
def FLT_INJ_SEL.DIE : Fld := ⟨3, 2⟩

/-- FLT_INJ_SEL.TARGET, bits 31:8. -/
def FLT_INJ_SEL.TARGET : Fld := ⟨8, 24⟩

/-- `FLT_INJ_CTRL`, R447 of 14_faults_availability_life.md: injection control. Reset by field. -/
def FLT_INJ_CTRL : Nat := 0x70000 + (0x24)

/-- FLT_INJ_CTRL.DONE, bits 3:3. -/
def FLT_INJ_CTRL.DONE : Fld := ⟨3, 1⟩

/-- FLT_INJ_CTRL.MODE, bits 1:1. -/
def FLT_INJ_CTRL.MODE : Fld := ⟨1, 1⟩

/-- FLT_INJ_CTRL.ARM, bits 0:0. -/
def FLT_INJ_CTRL.ARM : Fld := ⟨0, 1⟩

/-- `FLT_SRC_CFG_n`, R448 of 14_faults_availability_life.md: severity and path. Reset by field. -/
def FLT_SRC_CFG (n : Nat) : Nat := 0x70000 + (0x1000 + 0x20 * n)

/-- FLT_SRC_CFG.EXT, bits 15:15. -/
def FLT_SRC_CFG.EXT : Fld := ⟨15, 1⟩

/-- FLT_SRC_CFG.FLOOR, bits 14:12. -/
def FLT_SRC_CFG.FLOOR : Fld := ⟨12, 3⟩

/-- FLT_SRC_CFG.PATH, bits 8:8. -/
def FLT_SRC_CFG.PATH : Fld := ⟨8, 1⟩

/-- FLT_SRC_CFG.SEV, bits 2:0. -/
def FLT_SRC_CFG.SEV : Fld := ⟨0, 3⟩

/-- `FLT_SRC_STAT_n`, R448 of 14_faults_availability_life.md: latch status. Reset by field. -/
def FLT_SRC_STAT (n : Nat) : Nat := 0x70000 + (0x1004 + 0x20 * n)

/-- FLT_SRC_STAT.COUNT, bits 31:16. -/
def FLT_SRC_STAT.COUNT : Fld := ⟨16, 16⟩

/-- FLT_SRC_STAT.INJ, bits 4:4. -/
def FLT_SRC_STAT.INJ : Fld := ⟨4, 1⟩

/-- FLT_SRC_STAT.CONSEQ, bits 3:3. -/
def FLT_SRC_STAT.CONSEQ : Fld := ⟨3, 1⟩

/-- FLT_SRC_STAT.OVERDUE, bits 2:2. -/
def FLT_SRC_STAT.OVERDUE : Fld := ⟨2, 1⟩

/-- FLT_SRC_STAT.LATCHED, bits 1:1. -/
def FLT_SRC_STAT.LATCHED : Fld := ⟨1, 1⟩

/-- FLT_SRC_STAT.LIVE, bits 0:0. -/
def FLT_SRC_STAT.LIVE : Fld := ⟨0, 1⟩

/-- `FLT_FIRST_CAUSE_n`, R448 of 14_faults_availability_life.md: first cause word (R420). Reset 0x0000_0000. -/
def FLT_FIRST_CAUSE (n : Nat) : Nat := 0x70000 + (0x1008 + 0x20 * n)

/-- `FLT_FIRST_TS_LO_n`, R448 of 14_faults_availability_life.md: first-cause timestamp bits 31:0; read first, shadows HI as R47. Reset 0x0000_0000. -/
def FLT_FIRST_TS_LO (n : Nat) : Nat := 0x70000 + (0x100C + 0x20 * n)

/-- `FLT_FIRST_TS_HI_n`, R448 of 14_faults_availability_life.md: bits 63:32, from shadow. Reset 0x0000_0000. -/
def FLT_FIRST_TS_HI (n : Nat) : Nat := 0x70000 + (0x1010 + 0x20 * n)

/-- `FLT_LAST_CAUSE_n`, R448 of 14_faults_availability_life.md: cause word of the latest occurrence. Reset 0x0000_0000. -/
def FLT_LAST_CAUSE (n : Nat) : Nat := 0x70000 + (0x1014 + 0x20 * n)

/-- `FLT_CONSEQ_CNT_n`, R448 of 14_faults_availability_life.md: consequential occurrences (R424). Reset 0x0000_0000. -/
def FLT_CONSEQ_CNT (n : Nat) : Nat := 0x70000 + (0x1018 + 0x20 * n)

/-- `DIE_ECC_CTRL`, R449 of 14_faults_availability_life.md: [0] SCRUB_EN (R428); [31:1] reserved. Reset 0x0000_0001. -/
def DIE_ECC_CTRL (d : Nat) : Nat := memBase d + (0x0)

/-- DIE_ECC_CTRL.SCRUB_EN, bits 0:0. -/
def DIE_ECC_CTRL.SCRUB_EN : Fld := ⟨0, 1⟩

/-- `DIE_SCRUB_INT`, R449 of 14_faults_availability_life.md: [11:0] seconds per pass, 10 to 3,600; other values act as the nearer bound; [31:12] reserved. Reset 0x0000_003C. -/
def DIE_SCRUB_INT (d : Nat) : Nat := memBase d + (0x4)

/-- `DIE_SCRUB_POS`, R449 of 14_faults_availability_life.md: [20:0] word index of the scrubber; [31:21] reserved. Reset 0x0000_0000. -/
def DIE_SCRUB_POS (d : Nat) : Nat := memBase d + (0x8)

/-- `DIE_ECC_CORR`, R449 of 14_faults_availability_life.md: symbols corrected. Reset 0x0000_0000. -/
def DIE_ECC_CORR (d : Nat) : Nat := memBase d + (0xC)

/-- `DIE_ECC_UNCORR`, R449 of 14_faults_availability_life.md: words uncorrectable. Reset 0x0000_0000. -/
def DIE_ECC_UNCORR (d : Nat) : Nat := memBase d + (0x10)

/-- `DIE_ECC_LAST`, R449 of 14_faults_availability_life.md: [23:0] byte offset of the last erroneous word in the die's BAR2 window; [30:24] reserved; [31] UNCORR. Reset 0x0000_0000. -/
def DIE_ECC_LAST (d : Nat) : Nat := memBase d + (0x14)

/-- DIE_ECC_LAST.UNCORR, bits 31:31. -/
def DIE_ECC_LAST.UNCORR : Fld := ⟨31, 1⟩

/-- `DIE_CFG_RELOAD`, R449 of 14_faults_availability_life.md: configuration blocks reloaded (R430). Reset 0x0000_0000. -/
def DIE_CFG_RELOAD (d : Nat) : Nat := memBase d + (0x18)

/-- `DIE_SCRUB_PASSES`, R449 of 14_faults_availability_life.md: passes completed, wrapping. Reset 0x0000_0000. -/
def DIE_SCRUB_PASSES (d : Nat) : Nat := memBase d + (0x1C)

/-- `DIE_PART_BASE_k`, R449 of 14_faults_availability_life.md: k = 0 sweep, 1 site, 2 waveform, 3 result, 4 learning, 5 reducer, 6 program, 7 configuration shadow, 8 free: partition offset in the die's BAR2 window. Reset image. -/
def DIE_PART_BASE (d k : Nat) : Nat := memBase d + (0x100 + 0x8 * k)

/-- `DIE_PART_SIZE_k`, R449 of 14_faults_availability_life.md: partition size, bytes. Reset image. -/
def DIE_PART_SIZE (d k : Nat) : Nat := memBase d + (0x104 + 0x8 * k)

/-- `LIFE_OPS_LO`, R450 of 14_faults_availability_life.md: operating seconds bits 31:0; read first, shadows HI as R47. Reset NVM. -/
def LIFE_OPS_LO : Nat := 0x80000 + (0x0)

/-- `LIFE_OPS_HI`, R450 of 14_faults_availability_life.md: bits 63:32, from shadow. Reset NVM. -/
def LIFE_OPS_HI : Nat := 0x80000 + (0x4)

/-- `LIFE_ARR_LO`, R450 of 14_faults_availability_life.md: Arrhenius record bits 31:0, 2^−32 h (R440); read first. Reset NVM. -/
def LIFE_ARR_LO : Nat := 0x80000 + (0x8)

/-- `LIFE_ARR_HI`, R450 of 14_faults_availability_life.md: bits 63:32: whole hours, from shadow. Reset NVM. -/
def LIFE_ARR_HI : Nat := 0x80000 + (0xC)

/-- `LIFE_ARR_CFG`, R450 of 14_faults_availability_life.md: [15:0] EA, meV; [31:16] TREF, 1/16 °C; 0x0370_02BC without NVM data. Reset NVM. -/
def LIFE_ARR_CFG : Nat := 0x80000 + (0x10)

/-- LIFE_ARR_CFG.EA, bits 15:0. -/
def LIFE_ARR_CFG.EA : Fld := ⟨0, 16⟩

/-- LIFE_ARR_CFG.TREF, bits 31:16. -/
def LIFE_ARR_CFG.TREF : Fld := ⟨16, 16⟩

/-- `LIFE_CYCLES`, R450 of 14_faults_availability_life.md: thermal cycles (R441). Reset NVM. -/
def LIFE_CYCLES : Nat := 0x80000 + (0x14)

/-- `LIFE_SHUT`, R450 of 14_faults_availability_life.md: hardware shutdowns. Reset NVM. -/
def LIFE_SHUT : Nat := 0x80000 + (0x18)

/-- `LIFE_STOPS`, R450 of 14_faults_availability_life.md: stops counted (R443). Reset NVM. -/
def LIFE_STOPS : Nat := 0x80000 + (0x1C)

/-- `LIFE_STOPS_X`, R450 of 14_faults_availability_life.md: stops excluded. Reset NVM. -/
def LIFE_STOPS_X : Nat := 0x80000 + (0x20)

/-- `LIFE_COND`, R450 of 14_faults_availability_life.md: [5:0] EVER; [7:6] reserved; [13:8] RECENT; [31:14] reserved (R442). Reset NVM. -/
def LIFE_COND : Nat := 0x80000 + (0x24)

/-- LIFE_COND.EVER, bits 5:0. -/
def LIFE_COND.EVER : Fld := ⟨0, 6⟩

/-- LIFE_COND.RECENT, bits 13:8. -/
def LIFE_COND.RECENT : Fld := ⟨8, 6⟩

/-- `LIFE_TJ_MEAN`, R450 of 14_faults_availability_life.md: [15:0] life mean of the package thermal value, 1/16 °C; [31:16] reserved. Reset NVM. -/
def LIFE_TJ_MEAN : Nat := 0x80000 + (0x28)

/-- `LIFE_NVM_SEL`, R450 of 14_faults_availability_life.md: [2:0] area, in the order of R436; [31:3] reserved. Reset 0x0000_0000. -/
def LIFE_NVM_SEL : Nat := 0x80000 + (0x2C)

/-- `LIFE_NVM_ERASE`, R450 of 14_faults_availability_life.md: [16:0] highest erase count of the area; [31:17] reserved. Reset NVM. -/
def LIFE_NVM_ERASE : Nat := 0x80000 + (0x30)

/-- `LIFE_NVM_MEAN`, R450 of 14_faults_availability_life.md: [16:0] mean erase count; [31:17] reserved. Reset NVM. -/
def LIFE_NVM_MEAN : Nat := 0x80000 + (0x34)

/-- `LIFE_NVM_SPARE`, R450 of 14_faults_availability_life.md: [8:0] spare sectors left, 0 to 256; [31:9] reserved. Reset NVM. -/
def LIFE_NVM_SPARE : Nat := 0x80000 + (0x38)

/-- `LIFE_JSTAT`, R450 of 14_faults_availability_life.md: [11:0] journal records in the last 3,600 s; [31:12] reserved. Reset 0x0000_0000. -/
def LIFE_JSTAT : Nat := 0x80000 + (0x3C)

/-- `LIFE_CH_STOPS`, R450 of 14_faults_availability_life.md: channel-level reactions of non-EXT sources. Reset NVM. -/
def LIFE_CH_STOPS : Nat := 0x80000 + (0x40)

/-- `LIFE_LAST_STOP`, R450 of 14_faults_availability_life.md: [15:0] source number; [23:16] instance; [30:24] reserved; [31] VALID. Reset NVM. -/
def LIFE_LAST_STOP : Nat := 0x80000 + (0x44)

/-- LIFE_LAST_STOP.VALID, bits 31:31. -/
def LIFE_LAST_STOP.VALID : Fld := ⟨31, 1⟩

/-- `LIFE_LAST_STOP_TS_LO`, R450 of 14_faults_availability_life.md: start timestamp bits 31:0; read first. Reset NVM. -/
def LIFE_LAST_STOP_TS_LO : Nat := 0x80000 + (0x48)

/-- `LIFE_LAST_STOP_TS_HI`, R450 of 14_faults_availability_life.md: bits 63:32, from shadow. Reset NVM. -/
def LIFE_LAST_STOP_TS_HI : Nat := 0x80000 + (0x4C)

/-- `LIFE_CTRL`, R450 of 14_faults_availability_life.md: [0] JOURNAL: journal the life records now (R439); [31:1] reserved. Reset 0x0000_0000. -/
def LIFE_CTRL : Nat := 0x80000 + (0x50)

/-- `LIFE_FON_p`, R450 of 14_faults_availability_life.md: p = 0 to 255: force-on seconds of unit p. Reset NVM. -/
def LIFE_FON (p : Nat) : Nat := 0x80000 + (0x400 + 0x4 * p)

/-- `DIE_INFO`, R454 of 15_register_maps.md: [1:0] die number; [3:2] reserved; [7:4] die revision, equal to HUB_ID.REV; [31:8] reserved. Reset fixed. -/
def DIE_INFO (d : Nat) : Nat := dieBase d + (0x0)

/-- `HUB_OWN_RGN_0`, R462 of 15_register_maps.md: for t = 0 to 7: [4t + 2:4t] owner of target t (R366); [4t + 3] reserved; 0x0000_0000 without an image. Reset image. -/
def HUB_OWN_RGN_0 : Nat := 0x20000 + (0x0)

/-- `HUB_OWN_RGN_1`, R462 of 15_register_maps.md: as HUB_OWN_RGN_0, for targets 8 to 15 at bits [4(t − 8) + 2:4(t − 8)]. Reset image. -/
def HUB_OWN_RGN_1 : Nat := 0x20000 + (0x4)

/-- `HUB_FN_PRESENT`, R462 of 15_register_maps.md: [7:0] one bit per physical function present; 0x01 without an image; [31:8] reserved. Reset image. -/
def HUB_FN_PRESENT : Nat := 0x20000 + (0x8)

/-- `HUB_FN_CTRL_f`, R462 of 15_register_maps.md: f = 0 to 7: fence control. Reset by field. -/
def HUB_FN_CTRL (f : Nat) : Nat := 0x20000 + (0x10 + 0x4 * f)

/-- HUB_FN_CTRL.FENCED, bits 1:1. -/
def HUB_FN_CTRL.FENCED : Fld := ⟨1, 1⟩

/-- HUB_FN_CTRL.FENCE, bits 0:0. -/
def HUB_FN_CTRL.FENCE : Fld := ⟨0, 1⟩

/-- `HUB_SEC_CNT_f`, R462 of 15_register_maps.md: refused accesses of function f. Reset 0x0000_0000. -/
def HUB_SEC_CNT (f : Nat) : Nat := 0x20000 + (0x40 + 0x10 * f)

/-- `HUB_SEC_LAST_f`, R462 of 15_register_maps.md: last refused access of f. Reset by field. -/
def HUB_SEC_LAST (f : Nat) : Nat := 0x20000 + (0x44 + 0x10 * f)

/-- HUB_SEC_LAST.VALID, bits 31:31. -/
def HUB_SEC_LAST.VALID : Fld := ⟨31, 1⟩

/-- HUB_SEC_LAST.WRITE, bits 4:4. -/
def HUB_SEC_LAST.WRITE : Fld := ⟨4, 1⟩

/-- HUB_SEC_LAST.REASON, bits 3:0. -/
def HUB_SEC_LAST.REASON : Fld := ⟨0, 4⟩

/-- `HUB_SEC_ADDR_f`, R462 of 15_register_maps.md: [27:0] BAR offset of the last refused access, DWORD-aligned; [28] 1 for BAR2; [31:29] reserved. Reset 0x0000_0000. -/
def HUB_SEC_ADDR (f : Nat) : Nat := 0x20000 + (0x48 + 0x10 * f)

/-- HUB_SEC_ADDR.BAR, bits 27:0. -/
def HUB_SEC_ADDR.BAR : Fld := ⟨0, 28⟩

/-- `HUB_ID`, R464 of 15_register_maps.md: [31:4] PART, 0x0009_256; [3:0] REV, the revision x shared by all six dies. Reset 0x0009_256x. -/
def HUB_ID : Nat := 0x0

/-- HUB_ID.PART, bits 31:4. -/
def HUB_ID.PART : Fld := ⟨4, 28⟩

/-- HUB_ID.REV, bits 3:0. -/
def HUB_ID.REV : Fld := ⟨0, 4⟩

/-- `HUB_CAP`, R464 of 15_register_maps.md: [3:0] channel dies, 4; [7:4] regions per die, 4; [15:8] units per region, 16; [31:16] site contexts per die divided by 16, 640. Reset 0x0280_1044. -/
def HUB_CAP : Nat := 0x4

/-- `HUB_SERIAL_LO`, R464 of 15_register_maps.md: package serial number bits 31:0; read first, shadows HI as R47. Reset fused. -/
def HUB_SERIAL_LO : Nat := 0x8

/-- `HUB_SERIAL_HI`, R464 of 15_register_maps.md: bits 63:32, from shadow. Reset fused. -/
def HUB_SERIAL_HI : Nat := 0xC

/-- `HUB_BOOT_STAT`, R464 of 15_register_maps.md: boot progress. Reset by field. -/
def HUB_BOOT_STAT : Nat := 0x10

/-- HUB_BOOT_STAT.RGN_LOADED, bits 23:8. -/
def HUB_BOOT_STAT.RGN_LOADED : Fld := ⟨8, 16⟩

/-- HUB_BOOT_STAT.STEP, bits 3:1. -/
def HUB_BOOT_STAT.STEP : Fld := ⟨1, 3⟩

/-- HUB_BOOT_STAT.DONE, bits 0:0. -/
def HUB_BOOT_STAT.DONE : Fld := ⟨0, 1⟩

/-- `HUB_RST_CTRL`, R464 of 15_register_maps.md: software package reset. Reset by field. -/
def HUB_RST_CTRL : Nat := 0x14

/-- HUB_RST_CTRL.KEY, bits 31:24. -/
def HUB_RST_CTRL.KEY : Fld := ⟨24, 8⟩

/-- HUB_RST_CTRL.PKG_RST, bits 0:0. -/
def HUB_RST_CTRL.PKG_RST : Fld := ⟨0, 1⟩

/-- `HUB_SCRATCH_f`, R464 of 15_register_maps.md: f = 0 to 7: free for function f; cleared by every package reset. Reset 0x0000_0000. -/
def HUB_SCRATCH (f : Nat) : Nat := 0x40 + 0x4 * f

/-- `RGN_INFO`, R466 of 15_register_maps.md: identity and state. Reset by field. -/
def RGN_INFO (t : Nat) : Nat := rgnBase t + (0x0)

/-- RGN_INFO.NL, bits 15:15. -/
def RGN_INFO.NL : Fld := ⟨15, 1⟩

/-- RGN_INFO.OWNER, bits 14:12. -/
def RGN_INFO.OWNER : Fld := ⟨12, 3⟩

/-- RGN_INFO.STATE, bits 9:8. -/
def RGN_INFO.STATE : Fld := ⟨8, 2⟩

/-- RGN_INFO.TARGET, bits 7:4. -/
def RGN_INFO.TARGET : Fld := ⟨4, 4⟩

/-- RGN_INFO.DIE, bits 3:2. -/
def RGN_INFO.DIE : Fld := ⟨2, 2⟩

/-- RGN_INFO.REGION, bits 1:0. -/
def RGN_INFO.REGION : Fld := ⟨0, 2⟩

/-- `RGN_CTRL`, R466 of 15_register_maps.md: [0] RESET; [31:1] reserved. Reset 0x0000_0000. -/
def RGN_CTRL (t : Nat) : Nat := rgnBase t + (0x4)

/-- RGN_CTRL.RESET, bits 0:0. -/
def RGN_CTRL.RESET : Fld := ⟨0, 1⟩

/-- `RGN_RST_CNT`, R466 of 15_register_maps.md: restarts of the region for any cause; kept through a region reset, cleared by package resets. Reset 0x0000_0000. -/
def RGN_RST_CNT (t : Nat) : Nat := rgnBase t + (0x8)

/-- `RGN_SCRATCH`, R466 of 15_register_maps.md: free for the owner; cleared by every reset that reaches the region. Reset 0x0000_0000. -/
def RGN_SCRATCH (t : Nat) : Nat := rgnBase t + (0xC)

/-- `HUB_INT_STAT_f`, R469 of 15_register_maps.md: [11:0] one bit per cause (R467); [31:12] reserved. Reset 0x0000_0000. -/
def HUB_INT_STAT (f : Nat) : Nat := 0x10000 + (0x0 + 0x100 * f)

/-- `HUB_INT_EN_f`, R469 of 15_register_maps.md: [11:0] one enable per cause; [31:12] reserved. Reset 0x0000_0000. -/
def HUB_INT_EN (f : Nat) : Nat := 0x10000 + (0x4 + 0x100 * f)

/-- `HUB_INT_VEC0_f`, R469 of 15_register_maps.md: [5:0] vector of cause 0; [13:8] cause 1; [21:16] cause 2; [29:24] cause 3; other bits reserved. Reset 0x0000_0000. -/
def HUB_INT_VEC0 (f : Nat) : Nat := 0x10000 + (0x8 + 0x100 * f)

/-- `HUB_INT_VEC1_f`, R469 of 15_register_maps.md: causes 4 to 7, in the same layout. Reset 0x0000_0000. -/
def HUB_INT_VEC1 (f : Nat) : Nat := 0x10000 + (0xC + 0x100 * f)

/-- `HUB_INT_VEC2_f`, R469 of 15_register_maps.md: causes 8 to 11, in the same layout. Reset 0x0000_0000. -/
def HUB_INT_VEC2 (f : Nat) : Nat := 0x10000 + (0x10 + 0x100 * f)

/-- `HUB_INT_RGN_f`, R469 of 15_register_maps.md: [15:0] bit t: target t set a region cause of f since the last read; [31:16] reserved. Reset 0x0000_0000. -/
def HUB_INT_RGN (f : Nat) : Nat := 0x10000 + (0x14 + 0x100 * f)

/-- `HUB_INT_CNT_f`, R469 of 15_register_maps.md: messages sent for the causes of f, rings excluded. Reset 0x0000_0000. -/
def HUB_INT_CNT (f : Nat) : Nat := 0x10000 + (0x18 + 0x100 * f)

/-- One row of a register table: the offset in its block, up to two index strides with their counts, the bits of each
access code of R9 (RW, W1C, W1S, RC, WO), the bits whose reset value the image sets and that are RO (R31), and the
reset value of the fields the spec gives one. -/
structure RegRow where
  off : Nat
  s1 : Nat
  n1 : Nat
  s2 : Nat
  n2 : Nat
  rw : Nat
  w1c : Nat
  w1s : Nat
  rc : Nat
  wo : Nat
  img : Nat
  reset : Nat
  deriving DecidableEq, Repr

/-- The registers of the time block, in the order of the spec. -/
def timeRows : List RegRow := [
  ⟨0x0, 0x0, 1, 0x0, 1, 0x0, 0x0, 0x0, 0x0, 0x0, 0x0, 0x0⟩,  -- HUB_TS_LO
  ⟨0x4, 0x0, 1, 0x0, 1, 0x0, 0x0, 0x0, 0x0, 0x0, 0x0, 0x0⟩,  -- HUB_TS_HI
  ⟨0x8, 0x0, 1, 0x0, 1, 0x0, 0x10, 0x0, 0x0, 0x0, 0x0, 0x2⟩,  -- HUB_CLK_STAT
  ⟨0xC, 0x0, 1, 0x0, 1, 0x0, 0x0, 0x0, 0x0, 0x0, 0x0, 0x0⟩,  -- HUB_KA_STAT
  ⟨0x10, 0x0, 1, 0x0, 1, 0x0, 0x0, 0x0, 0x0, 0x0, 0x0, 0x0⟩,  -- HUB_KA_UNC
  ⟨0x20, 0x0, 1, 0x0, 1, 0x0, 0x0, 0x0, 0x0, 0x0, 0x0, 0x0⟩,  -- HUB_CAL_FRAC
  ⟨0x24, 0x0, 1, 0x0, 1, 0x0, 0x0, 0x0, 0x0, 0x0, 0x0, 0x0⟩,  -- HUB_CAL_SEC_LO
  ⟨0x28, 0x0, 1, 0x0, 1, 0x0, 0x0, 0x0, 0x0, 0x0, 0x0, 0x0⟩,  -- HUB_CAL_SEC_HI
  ⟨0x2C, 0x0, 1, 0x0, 1, 0x0, 0x44, 0x0, 0x0, 0x0, 0x0, 0x80⟩,  -- HUB_CAL_STAT
  ⟨0x30, 0x0, 1, 0x0, 1, 0xFFFFFFFF, 0x0, 0x0, 0x0, 0x0, 0x0, 0x0⟩,  -- HUB_CAL_SET_SEC_LO
  ⟨0x34, 0x0, 1, 0x0, 1, 0xFFFF, 0x0, 0x0, 0x0, 0x0, 0x0, 0x0⟩,  -- HUB_CAL_SET_SEC_HI
  ⟨0x38, 0x0, 1, 0x0, 1, 0xFFFFFFFF, 0x0, 0x0, 0x0, 0x0, 0x0, 0x0⟩,  -- HUB_CAL_SET_AT_LO
  ⟨0x3C, 0x0, 1, 0x0, 1, 0xFFFFFFFF, 0x0, 0x0, 0x0, 0x0, 0x0, 0x0⟩,  -- HUB_CAL_SET_AT_HI
  ⟨0x40, 0x0, 1, 0x0, 1, 0x4, 0x0, 0x3, 0x0, 0x0, 0x0, 0x0⟩,  -- HUB_CAL_CTRL
  ⟨0x48, 0x0, 1, 0x0, 1, 0x0, 0x0, 0x0, 0x0, 0x0, 0x0, 0x0⟩,  -- HUB_UTC_SEC_LO
  ⟨0x4C, 0x0, 1, 0x0, 1, 0x0, 0x0, 0x0, 0x0, 0x0, 0x0, 0x0⟩,  -- HUB_UTC_SEC_HI
  ⟨0x50, 0x0, 1, 0x0, 1, 0x3FF03, 0x0, 0x0, 0x0, 0x0, 0x0, 0x100⟩,  -- HUB_SYNC_CFG
  ⟨0x58, 0x0, 1, 0x0, 1, 0x0, 0x0, 0x0, 0x0, 0x0, 0x0, 0x0⟩,  -- HUB_SYNC_IN_TS_LO
  ⟨0x5C, 0x0, 1, 0x0, 1, 0x0, 0x0, 0x0, 0x0, 0x0, 0x0, 0x0⟩,  -- HUB_SYNC_IN_TS_HI
  ⟨0x60, 0x0, 1, 0x0, 1, 0x1FF, 0x0, 0x0, 0x0, 0x0, 0x0, 0x10A⟩,  -- HUB_ALN_CFG
  ⟨0x64, 0x0, 1, 0x0, 1, 0x0, 0x0, 0x80, 0x0, 0x0, 0x0, 0x0⟩,  -- HUB_ALN_STAT
  ⟨0x68, 0x0, 1, 0x0, 1, 0x0, 0x0, 0x0, 0x0, 0x0, 0x0, 0x0⟩,  -- HUB_ALN_HOP
  ⟨0x100, 0x0, 1, 0x8, 32, 0xFFFFFFFF, 0x0, 0x0, 0x0, 0x0, 0x0, 0x0⟩,  -- HUB_LEAP_LO_n
  ⟨0x104, 0x0, 1, 0x8, 32, 0xFFFFFFFF, 0x0, 0x0, 0x0, 0x0, 0x0, 0x0⟩,  -- HUB_LEAP_HI_n
  ⟨0x200, 0x0, 1, 0x0, 1, 0xFFFFFFFF, 0x0, 0x0, 0x0, 0x0, 0x0, 0x0⟩,  -- HUB_LEAP_VALID_LO
  ⟨0x204, 0x0, 1, 0x0, 1, 0xFFFF, 0x0, 0x0, 0x0, 0x0, 0x0, 0x0⟩  -- HUB_LEAP_VALID_HI
  ]

/-- The registers of the unit block, in the order of the spec. -/
def unitRows : List RegRow := [
  ⟨0x0, 0x0, 1, 0x0, 1, 0x3F, 0x0, 0x0, 0x0, 0x0, 0x0, 0x10⟩,  -- CH_CTRL
  ⟨0x4, 0x0, 1, 0x0, 1, 0x7D, 0x0, 0x0, 0x0, 0x0, 0x0, 0x78⟩,  -- CH_MODE
  ⟨0x8, 0x0, 1, 0x0, 1, 0xFFFFFFFF, 0x0, 0x0, 0x0, 0x0, 0x0, 0x0⟩,  -- CH_SETPT
  ⟨0xC, 0x0, 1, 0x0, 1, 0xFFFF, 0x0, 0x0, 0x0, 0x0, 0x0, 0xCCD⟩,  -- CH_CMPL
  ⟨0x10, 0x0, 1, 0x0, 1, 0x0, 0x7E00, 0x0, 0x0, 0x0, 0x0, 0x20⟩,  -- CH_STAT
  ⟨0x14, 0x0, 1, 0x0, 1, 0x0, 0x0, 0x0, 0x0, 0x0, 0x0, 0x80000⟩,  -- CH_DAC
  ⟨0x18, 0x0, 1, 0x0, 1, 0x0, 0x0, 0x0, 0x0, 0x0, 0x0, 0x0⟩,  -- CH_VLOOP
  ⟨0x1C, 0x0, 1, 0x0, 1, 0x0, 0x0, 0x0, 0x0, 0x0, 0x0, 0x0⟩,  -- CH_ILOOP
  ⟨0x30, 0x0, 1, 0x0, 1, 0x0, 0x0, 0x0, 0x0, 0x0, 0x3FF, 0x0⟩,  -- CH_GANG
  ⟨0x40, 0x0, 1, 0x0, 1, 0x0, 0x0, 0x0, 0x0, 0x0, 0x3FF0003, 0x0⟩,  -- CH_BST
  ⟨0x50, 0x0, 1, 0x0, 1, 0x7, 0x0, 0x8, 0x0, 0x0, 0x0, 0x0⟩,  -- CH_NCO_CTRL
  ⟨0x54, 0x0, 1, 0x0, 1, 0xFFFFFFFF, 0x0, 0x0, 0x0, 0x0, 0x0, 0x0⟩,  -- CH_NCO_FTW_LO
  ⟨0x58, 0x0, 1, 0x0, 1, 0xFFFF, 0x0, 0x0, 0x0, 0x0, 0x0, 0x0⟩,  -- CH_NCO_FTW_HI
  ⟨0x5C, 0x0, 1, 0x0, 1, 0xFFFF, 0x0, 0x0, 0x0, 0x0, 0x0, 0x0⟩,  -- CH_NCO_PHASE
  ⟨0x60, 0x0, 1, 0x0, 1, 0xFFFF, 0x0, 0x0, 0x0, 0x0, 0x0, 0x0⟩,  -- CH_NCO_AMP
  ⟨0x64, 0x0, 1, 0x0, 1, 0xFFFFFFFF, 0x0, 0x0, 0x0, 0x0, 0x0, 0x0⟩,  -- CH_NCO_AT_LO
  ⟨0x68, 0x0, 1, 0x0, 1, 0xFFFFFFFF, 0x0, 0x0, 0x0, 0x0, 0x0, 0x0⟩,  -- CH_NCO_AT_HI
  ⟨0xF0, 0x0, 1, 0x0, 1, 0x1FFFF, 0x0, 0x0, 0x0, 0x0, 0x0, 0x10000⟩  -- CH_SKEW
  ]

/-- The registers of the eng block, in the order of the spec. -/
def engRows : List RegRow := [
  ⟨0x0, 0x0, 1, 0x0, 1, 0x7, 0x0, 0x0, 0x0, 0x0, 0x0, 0x0⟩,  -- ENG_CTRL
  ⟨0x4, 0x0, 1, 0x0, 1, 0x0, 0x0, 0x0, 0x0, 0x0, 0x0, 0x0⟩,  -- ENG_STAT
  ⟨0x20, 0x0, 1, 0x4, 8, 0xFFFF, 0x0, 0x0, 0x0, 0x0, 0x0, 0x8000⟩,  -- ENG_RGAIN_r
  ⟨0x100, 0x0, 1, 0x20, 8, 0x0, 0x0, 0x0, 0x0, 0x0, 0xF0F, 0x0⟩,  -- ENG_SUP_CFG_n
  ⟨0x104, 0x0, 1, 0x20, 8, 0x0, 0x0, 0x0, 0x0, 0x0, 0xFFFFFF, 0x0⟩,  -- ENG_SUP_LIM_n
  ⟨0x108, 0x0, 1, 0x20, 8, 0x0, 0x0, 0x0, 0x0, 0x0, 0x0, 0x0⟩,  -- ENG_SUP_OUT_n
  ⟨0x10C, 0x0, 1, 0x20, 8, 0x0, 0xF, 0x0, 0x0, 0x0, 0x0, 0x0⟩,  -- ENG_SUP_EMBER_n
  ⟨0x110, 0x0, 1, 0x20, 8, 0xFFFFFF, 0x0, 0x0, 0x0, 0x0, 0x0, 0x0⟩,  -- ENG_SUP_KP_n
  ⟨0x114, 0x0, 1, 0x20, 8, 0xFFFFFF, 0x0, 0x0, 0x0, 0x0, 0x0, 0x0⟩,  -- ENG_SUP_KI_n
  ⟨0x118, 0x0, 1, 0x20, 8, 0xFFFFFF, 0x0, 0x0, 0x0, 0x0, 0x0, 0x0⟩,  -- ENG_SUP_KD_n
  ⟨0x11C, 0x0, 1, 0x20, 8, 0xF, 0x0, 0x0, 0x0, 0x0, 0x0, 0x0⟩,  -- ENG_SUP_KEXP_n
  ⟨0x400, 0x80, 16, 0x0, 1, 0x3F, 0x0, 0x40, 0x0, 0x0, 0x0, 0x8⟩,  -- ENG_UCTRL
  ⟨0x404, 0x80, 16, 0x0, 1, 0x0, 0x0, 0x0, 0x0, 0x0, 0x0, 0x0⟩,  -- ENG_USTAT
  ⟨0x408, 0x80, 16, 0x0, 1, 0x0, 0x7F, 0x0, 0x0, 0x0, 0x0, 0x0⟩,  -- ENG_EMBER
  ⟨0x40C, 0x80, 16, 0x0, 1, 0xFFFFF, 0x0, 0x0, 0x0, 0x0, 0x0, 0x80000⟩,  -- ENG_MANUAL
  ⟨0x410, 0x80, 16, 0x0, 1, 0xFFFFFF, 0x0, 0x0, 0x0, 0x0, 0x0, 0x0⟩,  -- ENG_KP_F
  ⟨0x414, 0x80, 16, 0x0, 1, 0xFFFFFF, 0x0, 0x0, 0x0, 0x0, 0x0, 0x0⟩,  -- ENG_KI_F
  ⟨0x418, 0x80, 16, 0x0, 1, 0xFFFFFF, 0x0, 0x0, 0x0, 0x0, 0x0, 0x0⟩,  -- ENG_KD_F
  ⟨0x41C, 0x80, 16, 0x0, 1, 0xFFFFFF, 0x0, 0x0, 0x0, 0x0, 0x0, 0x0⟩,  -- ENG_KP_L
  ⟨0x420, 0x80, 16, 0x0, 1, 0xFFFFFF, 0x0, 0x0, 0x0, 0x0, 0x0, 0x0⟩,  -- ENG_KI_L
  ⟨0x424, 0x80, 16, 0x0, 1, 0xFFFFFF, 0x0, 0x0, 0x0, 0x0, 0x0, 0x0⟩,  -- ENG_KD_L
  ⟨0x428, 0x80, 16, 0x0, 1, 0xFFFFFF, 0x0, 0x0, 0x0, 0x0, 0x0, 0x0⟩,  -- ENG_DPOLE
  ⟨0x42C, 0x80, 16, 0x0, 1, 0xFFF, 0x0, 0x0, 0x0, 0x0, 0x0, 0x0⟩,  -- ENG_KEXP
  ⟨0x430, 0x80, 16, 0x0, 1, 0xFFFFFF, 0x0, 0x0, 0x0, 0x0, 0x0, 0x0⟩,  -- ENG_KV
  ⟨0x434, 0x80, 16, 0x0, 1, 0xFFFFFF, 0x0, 0x0, 0x0, 0x0, 0x0, 0x0⟩,  -- ENG_KA
  ⟨0x438, 0x80, 16, 0x0, 1, 0x0, 0x0, 0x0, 0x0, 0x0, 0x0, 0x0⟩,  -- ENG_INT_LO
  ⟨0x43C, 0x80, 16, 0x0, 1, 0x0, 0x0, 0x0, 0x0, 0x0, 0x0, 0x0⟩,  -- ENG_INT_HI
  ⟨0x440, 0x80, 16, 0x0, 1, 0x1FF3FFF, 0x0, 0x0, 0x0, 0x0, 0x0, 0x3FF⟩,  -- ENG_RC_CFG
  ⟨0x444, 0x80, 16, 0x0, 1, 0xFFFF, 0x0, 0x0, 0x0, 0x0, 0x0, 0x0⟩,  -- ENG_RC_DIV
  ⟨0x448, 0x80, 16, 0x0, 1, 0xFFFFFF, 0x0, 0x0, 0x0, 0x0, 0x0, 0x0⟩,  -- ENG_RC_GAIN
  ⟨0x44C, 0x80, 16, 0x0, 1, 0xFFFFFFFF, 0x0, 0x0, 0x0, 0x0, 0x0, 0x8000⟩,  -- ENG_RC_FQ
  ⟨0x450, 0x80, 16, 0x0, 1, 0xFFFFF7FF, 0x0, 0x0, 0x0, 0x0, 0x0, 0x400A620⟩,  -- ENG_PL_CFG
  ⟨0x454, 0x80, 16, 0x0, 1, 0xFFFFFFFF, 0x0, 0x0, 0x0, 0x0, 0x0, 0x7F800000⟩,  -- ENG_PL_R
  ⟨0x458, 0x80, 16, 0x0, 1, 0xFFFFFFFF, 0x0, 0x0, 0x0, 0x0, 0x0, 0x0⟩,  -- ENG_PL_C
  ⟨0x45C, 0x80, 16, 0x0, 1, 0x0, 0x0, 0x0, 0x0, 0x0, 0x0, 0x0⟩,  -- ENG_PL_RES
  ⟨0x460, 0x80, 16, 0x0, 1, 0x0, 0x0, 0x0, 0x0, 0x0, 0x0, 0x0⟩,  -- ENG_FRZ
  ⟨0x464, 0x80, 16, 0x0, 1, 0x0, 0x0, 0x0, 0x0, 0x0, 0x0, 0x80000⟩,  -- ENG_GOOD_DAC
  ⟨0x468, 0x80, 16, 0x0, 1, 0x0, 0x0, 0x0, 0x0, 0x0, 0x0, 0x0⟩  -- ENG_RC_IDX
  ]

/-- The registers of the prf block, in the order of the spec. -/
def prfRows : List RegRow := [
  ⟨0x0, 0x0, 1, 0x0, 1, 0xFFFFFC, 0x0, 0x3, 0x0, 0x0, 0x0, 0x0⟩,  -- PRF_CTRL
  ⟨0x4, 0x0, 1, 0x0, 1, 0x0, 0xFE0, 0x0, 0x0, 0x0, 0x0, 0x0⟩,  -- PRF_STAT
  ⟨0x8, 0x0, 1, 0x0, 1, 0xFF, 0x0, 0x80000000, 0x0, 0x0, 0x0, 0x0⟩,  -- PRF_WF_JUMP
  ⟨0xC, 0x0, 1, 0x0, 1, 0x0, 0x0, 0x0, 0x0, 0x0, 0x0, 0x0⟩,  -- PRF_PASS
  ⟨0x10, 0x0, 1, 0x0, 1, 0x0, 0x0, 0x0, 0x0, 0x0, 0xFFFFFFFF, 0x0⟩,  -- PRF_WF_BASE
  ⟨0x14, 0x0, 1, 0x0, 1, 0x0, 0x0, 0x0, 0x0, 0x0, 0xFFFFFFFF, 0x0⟩,  -- PRF_WF_SIZE
  ⟨0x18, 0x0, 1, 0x0, 1, 0x0, 0x0, 0x0, 0x0, 0x0, 0x1FFFF, 0x0⟩,  -- PRF_SWP_BASE
  ⟨0x1C, 0x0, 1, 0x0, 1, 0x0, 0x0, 0x0, 0x0, 0x0, 0x3FFFF, 0x0⟩,  -- PRF_SWP_LEN
  ⟨0x20, 0x0, 1, 0x0, 1, 0xFFFFFF, 0x0, 0x0, 0x0, 0x0, 0x0, 0x0⟩,  -- PRF_STR_BASE
  ⟨0x24, 0x0, 1, 0x0, 1, 0x1FFF, 0x0, 0x0, 0x0, 0x0, 0x0, 0x2⟩,  -- PRF_STR_RING
  ⟨0x28, 0x0, 1, 0x0, 1, 0x0, 0x0, 0x0, 0x0, 0x1FFF, 0x0, 0x0⟩,  -- PRF_STR_POST
  ⟨0x2C, 0x0, 1, 0x0, 1, 0x0, 0x0, 0x0, 0x0, 0x0, 0x0, 0x0⟩,  -- PRF_STR_STAT
  ⟨0x30, 0x0, 1, 0x0, 1, 0x0, 0x0, 0x0, 0x0, 0x0, 0x0, 0x0⟩,  -- PRF_STR_DEBT
  ⟨0x34, 0x0, 1, 0x0, 1, 0x0, 0x0, 0x0, 0xFFFFFFFF, 0x0, 0x0, 0x0⟩,  -- PRF_UNDER_CNT
  ⟨0x38, 0x0, 1, 0x0, 1, 0x0, 0x0, 0x0, 0xFFFFFFFF, 0x0, 0x0, 0x0⟩,  -- PRF_SKIP_CNT
  ⟨0x40, 0x0, 1, 0x0, 1, 0x0, 0x0, 0x0, 0x0, 0x0, 0x0, 0x0⟩,  -- PRF_STALL_LO
  ⟨0x44, 0x0, 1, 0x0, 1, 0x0, 0x0, 0x0, 0x0, 0x0, 0x0, 0x0⟩,  -- PRF_STALL_HI
  ⟨0x48, 0x0, 1, 0x0, 1, 0x0, 0x0, 0x0, 0x0, 0x0, 0x0, 0x0⟩,  -- PRF_SEQT_LO
  ⟨0x4C, 0x0, 1, 0x0, 1, 0x0, 0x0, 0x0, 0x0, 0x0, 0x0, 0x0⟩,  -- PRF_SEQT_HI
  ⟨0x50, 0x0, 1, 0x0, 1, 0x0, 0x0, 0x0, 0x0, 0x0, 0x0, 0x0⟩,  -- PRF_LIM_SUM
  ⟨0x1000, 0x0, 1, 0x10, 256, 0xFFFFFF, 0x0, 0x0, 0x0, 0x0, 0x0, 0x0⟩,  -- PRF_SEG_ADDR_s
  ⟨0x1004, 0x0, 1, 0x10, 256, 0xFFFFFFFF, 0x0, 0x0, 0x0, 0x0, 0x0, 0x0⟩,  -- PRF_SEG_LEN_s
  ⟨0x1008, 0x0, 1, 0x10, 256, 0x7FFF, 0x0, 0x0, 0x0, 0x0, 0x0, 0x0⟩,  -- PRF_SEG_CTRL_s
  ⟨0x800, 0x40, 16, 0x0, 1, 0xFFFF00F1, 0x0, 0x0, 0x0, 0x0, 0x0, 0x40000000⟩,  -- PRF_UCTRL
  ⟨0x804, 0x40, 16, 0x0, 1, 0x0, 0x22, 0x0, 0x0, 0x0, 0x0, 0x0⟩,  -- PRF_USTAT
  ⟨0x808, 0x40, 16, 0x0, 1, 0xFFFFFFFF, 0x0, 0x0, 0x0, 0x0, 0x0, 0x461C4000⟩,  -- PRF_VEL_V
  ⟨0x80C, 0x40, 16, 0x0, 1, 0xFFFFFFFF, 0x0, 0x0, 0x0, 0x0, 0x0, 0x7F800000⟩,  -- PRF_ACC_V
  ⟨0x810, 0x40, 16, 0x0, 1, 0xFFFFFFFF, 0x0, 0x0, 0x0, 0x0, 0x0, 0x7F800000⟩,  -- PRF_JRK_V
  ⟨0x814, 0x40, 16, 0x0, 1, 0xFFFFFFFF, 0x0, 0x0, 0x0, 0x0, 0x0, 0x41200000⟩,  -- PRF_VEL_I
  ⟨0x818, 0x40, 16, 0x0, 1, 0xFFFFFFFF, 0x0, 0x0, 0x0, 0x0, 0x0, 0x7F800000⟩,  -- PRF_ACC_I
  ⟨0x81C, 0x40, 16, 0x0, 1, 0xFFFFFFFF, 0x0, 0x0, 0x0, 0x0, 0x0, 0x7F800000⟩,  -- PRF_JRK_I
  ⟨0x820, 0x40, 16, 0x0, 1, 0x0, 0x0, 0x0, 0x0, 0x0, 0x0, 0x0⟩,  -- PRF_OUT
  ⟨0x824, 0x40, 16, 0x0, 1, 0x0, 0x0, 0x0, 0x0, 0x0, 0x0, 0x0⟩,  -- PRF_TARGET
  ⟨0x828, 0x40, 16, 0x0, 1, 0x0, 0x0, 0x0, 0x0, 0x0, 0x0, 0x1⟩  -- PRF_NFILT
  ]

/-- The registers of the seq block, in the order of the spec. -/
def seqRows : List RegRow := [
  ⟨0x0, 0x0, 1, 0x0, 1, 0x0, 0x0, 0x1D, 0x0, 0x0, 0x0, 0x0⟩,  -- SEQ_CTRL
  ⟨0x4, 0x0, 1, 0x0, 1, 0x0, 0xF00, 0x0, 0x0, 0x0, 0x0, 0x0⟩,  -- SEQ_STAT
  ⟨0x8, 0x0, 1, 0x0, 1, 0x3FFF, 0x0, 0x0, 0x0, 0x0, 0x0, 0x0⟩,  -- SEQ_START_PC
  ⟨0xC, 0x0, 1, 0x0, 1, 0x0, 0x0, 0x0, 0x0, 0x0, 0x0, 0x0⟩,  -- SEQ_PC
  ⟨0x10, 0x0, 1, 0x0, 1, 0x0, 0x0, 0x0, 0x0, 0x0, 0x0, 0x0⟩,  -- SEQ_STEPNUM
  ⟨0x14, 0x0, 1, 0x0, 1, 0x0, 0x0, 0x0, 0x0, 0x0, 0x0, 0x0⟩,  -- SEQ_OUTCOME
  ⟨0x18, 0x0, 1, 0x0, 1, 0x0, 0x0, 0x0, 0x0, 0x0, 0x0, 0x0⟩,  -- SEQ_UMASK
  ⟨0x1C, 0x0, 1, 0x0, 1, 0x3FFFF, 0x0, 0x0, 0x0, 0x0, 0x0, 0x0⟩,  -- SEQ_SWP
  ⟨0x20, 0x0, 1, 0x0, 1, 0x0, 0x0, 0x0, 0x0, 0x0, 0x0, 0x0⟩,  -- SEQ_SITE
  ⟨0x24, 0x0, 1, 0x0, 1, 0x0, 0x0, 0x0, 0x0, 0x0, 0x0, 0x0⟩,  -- SEQ_VERD
  ⟨0x28, 0x0, 1, 0x0, 1, 0x0, 0x0, 0x0, 0x0, 0x0, 0x0, 0x0⟩,  -- SEQ_STACK
  ⟨0x2C, 0x0, 1, 0x0, 1, 0x0, 0x0, 0x0, 0x0, 0x0, 0xFFFFFFFF, 0x0⟩,  -- SEQ_PS_BASE
  ⟨0x40, 0x0, 1, 0x4, 8, 0xFFFFFFFF, 0x0, 0x0, 0x0, 0x0, 0x0, 0x0⟩,  -- SEQ_CNTn
  ⟨0x60, 0x0, 1, 0x0, 1, 0xBFFF, 0x0, 0x0, 0x0, 0x0, 0x0, 0x0⟩,  -- SEQ_VEC_CMPL
  ⟨0x64, 0x0, 1, 0x0, 1, 0xBFFF, 0x0, 0x0, 0x0, 0x0, 0x0, 0x0⟩,  -- SEQ_VEC_ABORT
  ⟨0x68, 0x0, 1, 0x0, 1, 0xBFFF, 0x0, 0x0, 0x0, 0x0, 0x0, 0x0⟩,  -- SEQ_VEC_FAULT
  ⟨0x6C, 0x0, 1, 0x0, 1, 0xFFFFFFFF, 0x0, 0x0, 0x0, 0x0, 0x0, 0x6667333⟩,  -- SEQ_RNGLA
  ⟨0x80, 0x0, 1, 0x0, 1, 0x0, 0x0, 0x0, 0xFFFFFFFF, 0x0, 0x0, 0x0⟩,  -- SEQ_SQ_CMPL
  ⟨0x84, 0x0, 1, 0x0, 1, 0x0, 0x0, 0x0, 0xFFFFFFFF, 0x0, 0x0, 0x0⟩,  -- SEQ_SQ_ABORT
  ⟨0x88, 0x0, 1, 0x0, 1, 0x0, 0x0, 0x0, 0xFFFFFFFF, 0x0, 0x0, 0x0⟩,  -- SEQ_SQ_HOST
  ⟨0x8C, 0x0, 1, 0x0, 1, 0x0, 0x0, 0x0, 0xFFFFFFFF, 0x0, 0x0, 0x0⟩,  -- SEQ_SQ_RECONF
  ⟨0x90, 0x0, 1, 0x0, 1, 0x0, 0x0, 0x0, 0xFFFFFFFF, 0x0, 0x0, 0x0⟩,  -- SEQ_SQ_FAULT
  ⟨0x94, 0x0, 1, 0x0, 1, 0x0, 0x0, 0x0, 0xFFFFFFFF, 0x0, 0x0, 0x0⟩,  -- SEQ_SQ_SITE
  ⟨0x98, 0x0, 1, 0x0, 1, 0x0, 0x0, 0x0, 0xFFFFFFFF, 0x0, 0x0, 0x0⟩,  -- SEQ_NC_CNT
  ⟨0x100, 0x0, 1, 0x10, 4, 0x0, 0x0, 0x0, 0x0, 0x0, 0x0, 0x0⟩,  -- SEQ_FOOTHOLD_PC_f
  ⟨0x104, 0x0, 1, 0x10, 4, 0x0, 0x0, 0x0, 0x0, 0x0, 0x0, 0x0⟩,  -- SEQ_FOOTHOLD_STAT_f
  ⟨0x108, 0x0, 1, 0x10, 4, 0x0, 0x0, 0x0, 0x0, 0x0, 0x0, 0x0⟩  -- SEQ_FOOTHOLD_SWP_f
  ]

/-- The registers of the mea block, in the order of the spec. -/
def meaRows : List RegRow := [
  ⟨0x0, 0x0, 1, 0x0, 1, 0xFFFF, 0x0, 0x0, 0x0, 0x0, 0x0, 0x2710⟩,  -- MEA_CTRL
  ⟨0x4, 0x0, 1, 0x0, 1, 0x0, 0x0, 0x0, 0x0, 0x0, 0x0, 0x0⟩,  -- MEA_STAT
  ⟨0x10, 0x0, 1, 0x0, 1, 0x30F, 0x0, 0x80000000, 0x0, 0x0, 0x0, 0x0⟩,  -- MEA_REQ
  ⟨0x14, 0x0, 1, 0x0, 1, 0x0, 0x0, 0x0, 0x0, 0x0, 0x0, 0x0⟩,  -- MEA_REQ_STAT
  ⟨0x40, 0x0, 1, 0x10, 16, 0xF0F, 0x0, 0x0, 0x0, 0x0, 0x0, 0x0⟩,  -- MEA_WIN_CFG_n
  ⟨0x44, 0x0, 1, 0x10, 16, 0xFFFFFF, 0x0, 0x0, 0x0, 0x0, 0x0, 0x0⟩,  -- MEA_WIN_DLY_n
  ⟨0x48, 0x0, 1, 0x10, 16, 0xFFFFFF, 0x0, 0x0, 0x0, 0x0, 0x0, 0x0⟩,  -- MEA_WIN_LEN_n
  ⟨0x1000, 0x800, 16, 0x0, 1, 0xFFFFF, 0x0, 0x0, 0x0, 0x0, 0x0, 0x3E7⟩,  -- MEA_U_FILT
  ⟨0x1004, 0x800, 16, 0x0, 1, 0x0, 0x3C0, 0x0, 0x0, 0x0, 0x0, 0x0⟩,  -- MEA_U_STAT
  ⟨0x1008, 0x800, 16, 0x0, 1, 0x0, 0x0, 0x2, 0x0, 0x0, 0x0, 0x0⟩,  -- MEA_U_BANK
  ⟨0x100C, 0x800, 16, 0x0, 1, 0x0, 0x5, 0x0, 0x0, 0x0, 0x0, 0x0⟩,  -- MEA_U_ST
  ⟨0x1010, 0x800, 16, 0x0, 1, 0x0, 0x0, 0x0, 0x0, 0x0, 0x0, 0x0⟩,  -- MEA_U_LASTV_LO
  ⟨0x1014, 0x800, 16, 0x0, 1, 0x0, 0x0, 0x0, 0x0, 0x0, 0x0, 0x0⟩,  -- MEA_U_LASTV_HI
  ⟨0x1018, 0x800, 16, 0x0, 1, 0x0, 0x0, 0x0, 0x0, 0x0, 0x0, 0x0⟩,  -- MEA_U_LASTI_LO
  ⟨0x101C, 0x800, 16, 0x0, 1, 0x0, 0x0, 0x0, 0x0, 0x0, 0x0, 0x0⟩,  -- MEA_U_LASTI_HI
  ⟨0x1020, 0x800, 16, 0x0, 1, 0x0, 0x0, 0x0, 0xFFFFFFFF, 0x0, 0x0, 0x0⟩,  -- MEA_U_OVR_CNT
  ⟨0x1100, 0x800, 16, 0x20, 11, 0xFFFFFFFF, 0x0, 0x0, 0x0, 0x0, 0x0, 0x0⟩,  -- BANK0_O
  ⟨0x1300, 0x800, 16, 0x20, 11, 0xFFFFFFFF, 0x0, 0x0, 0x0, 0x0, 0x0, 0x0⟩,  -- BANK1_O
  ⟨0x1104, 0x800, 16, 0x20, 11, 0xFFFFFFFF, 0x0, 0x0, 0x0, 0x0, 0x0, 0x40000000⟩,  -- BANK0_G
  ⟨0x1304, 0x800, 16, 0x20, 11, 0xFFFFFFFF, 0x0, 0x0, 0x0, 0x0, 0x0, 0x40000000⟩,  -- BANK1_G
  ⟨0x1108, 0x800, 16, 0x20, 11, 0xFFFFFFFF, 0x0, 0x0, 0x0, 0x0, 0x0, 0x0⟩,  -- BANK0_T1
  ⟨0x1308, 0x800, 16, 0x20, 11, 0xFFFFFFFF, 0x0, 0x0, 0x0, 0x0, 0x0, 0x0⟩,  -- BANK1_T1
  ⟨0x110C, 0x800, 16, 0x20, 11, 0xFFFFFFFF, 0x0, 0x0, 0x0, 0x0, 0x0, 0x0⟩,  -- BANK0_T2
  ⟨0x130C, 0x800, 16, 0x20, 11, 0xFFFFFFFF, 0x0, 0x0, 0x0, 0x0, 0x0, 0x0⟩,  -- BANK1_T2
  ⟨0x1110, 0x800, 16, 0x20, 11, 0xFFFFFFFF, 0x0, 0x0, 0x0, 0x0, 0x0, 0x41C80000⟩,  -- BANK0_T0
  ⟨0x1310, 0x800, 16, 0x20, 11, 0xFFFFFFFF, 0x0, 0x0, 0x0, 0x0, 0x0, 0x41C80000⟩,  -- BANK1_T0
  ⟨0x1114, 0x800, 16, 0x20, 11, 0xFFFFFFFF, 0x0, 0x0, 0x0, 0x0, 0x0, 0x0⟩,  -- BANK0_STAMP
  ⟨0x1314, 0x800, 16, 0x20, 11, 0xFFFFFFFF, 0x0, 0x0, 0x0, 0x0, 0x0, 0x0⟩,  -- BANK1_STAMP
  ⟨0x200, 0x40, 4, 0x0, 1, 0xFFFF, 0x0, 0x0, 0x0, 0x0, 0x0, 0x1032⟩,  -- MEA_PIL_CFG
  ⟨0x204, 0x40, 4, 0x0, 1, 0x0, 0x0, 0x0, 0x0, 0x0, 0x0, 0x0⟩,  -- MEA_PIL_STAT
  ⟨0x208, 0x40, 4, 0x0, 1, 0x0, 0x0, 0x0, 0x0, 0x0, 0x0, 0x0⟩,  -- MEA_PIL_DIFF
  ⟨0x20C, 0x40, 4, 0x0, 1, 0x0, 0x0, 0x0, 0x0, 0x0, 0x0, 0x0⟩,  -- MEA_PIL_CNT
  ⟨0x210, 0x40, 4, 0x0, 1, 0x0, 0x0, 0x0, 0xFFFFFFFF, 0x0, 0x0, 0x0⟩,  -- MEA_PIL_ABANDON
  ⟨0x214, 0x40, 4, 0x0, 1, 0x0, 0x0, 0x1, 0x0, 0x0, 0x0, 0x0⟩,  -- MEA_PIL_CTRL
  ⟨0x218, 0x40, 4, 0x4, 9, 0x0, 0x0, 0x0, 0x0, 0x0, 0x0, 0x0⟩  -- MEA_TRIM_k
  ]

/-- The registers of the rdc block, in the order of the spec. -/
def rdcRows : List RegRow := [
  ⟨0x0, 0x0, 1, 0x0, 1, 0x0, 0x3E, 0x0, 0x0, 0x0, 0x0, 0x0⟩,  -- RDC_STAT
  ⟨0x4, 0x0, 1, 0x0, 1, 0x0, 0x0, 0x0, 0x0, 0x0, 0xFFFFFFFF, 0x0⟩,  -- RDC_KS_BASE
  ⟨0x8, 0x0, 1, 0x0, 1, 0x0, 0x0, 0x0, 0xFFFFFFFF, 0x0, 0x0, 0x0⟩,  -- RDC_QDROP
  ⟨0xC, 0x0, 1, 0x0, 1, 0x0, 0x0, 0x0, 0x0, 0x0, 0x0, 0x0⟩,  -- RDC_LOAD
  ⟨0x10, 0x0, 1, 0x0, 1, 0x0, 0xFFFF, 0x0, 0x0, 0x0, 0x0, 0x0⟩,  -- RDC_CHK
  ⟨0x40, 0x0, 1, 0x8, 16, 0x0, 0x0, 0x0, 0x0, 0x0, 0x9FFF1FFF, 0x0⟩,  -- RDC_KENT_k
  ⟨0x44, 0x0, 1, 0x8, 16, 0x0, 0x0, 0x0, 0x0, 0x0, 0xFF7F1FFF, 0x0⟩,  -- RDC_KHDR_k
  ⟨0x800, 0x80, 16, 0x8, 16, 0xFFFFFFFF, 0x0, 0x0, 0x0, 0x0, 0x0, 0x0⟩,  -- RDC_K_k_i_LO
  ⟨0x804, 0x80, 16, 0x8, 16, 0xFFFFFFFF, 0x0, 0x0, 0x0, 0x0, 0x0, 0x0⟩,  -- RDC_K_k_i_HI
  ⟨0x100, 0x40, 16, 0x0, 1, 0x0, 0x0, 0x0, 0x0, 0x0, 0x0, 0x0⟩,  -- RDC_PROD_LO
  ⟨0x104, 0x40, 16, 0x0, 1, 0x0, 0x0, 0x0, 0x0, 0x0, 0x0, 0x0⟩,  -- RDC_PROD_HI
  ⟨0x108, 0x40, 16, 0x0, 1, 0x0, 0x0, 0x0, 0x0, 0x0, 0x0, 0x0⟩,  -- RDC_DELIV_LO
  ⟨0x10C, 0x40, 16, 0x0, 1, 0x0, 0x0, 0x0, 0x0, 0x0, 0x0, 0x0⟩,  -- RDC_DELIV_HI
  ⟨0x110, 0x40, 16, 0x0, 1, 0x0, 0x0, 0x0, 0x0, 0x0, 0x0, 0x0⟩,  -- RDC_RONLY_LO
  ⟨0x114, 0x40, 16, 0x0, 1, 0x0, 0x0, 0x0, 0x0, 0x0, 0x0, 0x0⟩,  -- RDC_RONLY_HI
  ⟨0x118, 0x40, 16, 0x0, 1, 0x0, 0x0, 0x0, 0x0, 0x0, 0x0, 0x0⟩,  -- RDC_DROP_LO
  ⟨0x11C, 0x40, 16, 0x0, 1, 0x0, 0x0, 0x0, 0x0, 0x0, 0x0, 0x0⟩,  -- RDC_DROP_HI
  ⟨0x120, 0x40, 16, 0x0, 1, 0x0, 0x0, 0x0, 0x0, 0x0, 0x0, 0x0⟩,  -- RDC_FLIGHT_LO
  ⟨0x124, 0x40, 16, 0x0, 1, 0x0, 0x0, 0x0, 0x0, 0x0, 0x0, 0x0⟩,  -- RDC_FLIGHT_HI
  ⟨0x128, 0x40, 16, 0x0, 1, 0x0, 0x0, 0x0, 0x0, 0x0, 0x0, 0x0⟩  -- RDC_DIFF
  ]

/-- The registers of the site block, in the order of the spec. -/
def siteRows : List RegRow := [
  ⟨0x0, 0x0, 1, 0x0, 1, 0xC, 0x0, 0x0, 0x0, 0x0, 0xF0001, 0x0⟩,  -- SITE_PORT_CFG
  ⟨0x4, 0x0, 1, 0x0, 1, 0xFFFFFF, 0x0, 0x0, 0x0, 0x0, 0x0, 0xA00C8⟩,  -- SITE_PORT_TBRK
  ⟨0x8, 0x0, 1, 0x0, 1, 0xFFFFFFFF, 0x0, 0x0, 0x0, 0x0, 0x0, 0x271007D0⟩,  -- SITE_PORT_TSET
  ⟨0xC, 0x0, 1, 0x0, 1, 0x0, 0x0, 0x0, 0x0, 0x0, 0x0, 0x20000000⟩,  -- SITE_PORT_STAT
  ⟨0x10, 0x0, 1, 0x0, 1, 0x0, 0xF, 0x0, 0x0, 0x0, 0x0, 0x0⟩,  -- SITE_PORT_FLAG
  ⟨0x14, 0x0, 1, 0x0, 1, 0x0, 0x0, 0x0, 0xFFFFFFFF, 0x0, 0x0, 0x0⟩,  -- SITE_PORT_CNT
  ⟨0x20, 0x0, 1, 0x4, 4, 0x0, 0x0, 0x0, 0x0, 0x0, 0x3FFF3FFF, 0x0⟩,  -- SITE_BLK_g
  ⟨0x30, 0x0, 1, 0x4, 4, 0xFFFF, 0x0, 0x0, 0x0, 0x0, 0x0, 0xFFFF⟩,  -- SITE_ACC_UMASK_g
  ⟨0x40, 0x0, 1, 0x0, 1, 0x3FFF, 0x0, 0x0, 0x0, 0x0, 0x0, 0x0⟩,  -- SITE_ACC_SEL
  ⟨0x44, 0x0, 1, 0x0, 1, 0x0, 0x0, 0x3, 0x0, 0x0, 0x0, 0x0⟩,  -- SITE_ACC_CTRL
  ⟨0x48, 0x0, 1, 0x0, 1, 0x0, 0x0, 0x0, 0x0, 0x0, 0x0, 0x0⟩,  -- SITE_ACC_STRESS_LO
  ⟨0x4C, 0x0, 1, 0x0, 1, 0x0, 0x0, 0x0, 0x0, 0x0, 0x0, 0x0⟩,  -- SITE_ACC_STRESS_HI
  ⟨0x50, 0x0, 1, 0x0, 1, 0x0, 0x0, 0x0, 0x0, 0x0, 0x0, 0x0⟩,  -- SITE_ACC_CHG_0
  ⟨0x54, 0x0, 1, 0x0, 1, 0x0, 0x0, 0x0, 0x0, 0x0, 0x0, 0x0⟩,  -- SITE_ACC_CHG_1
  ⟨0x58, 0x0, 1, 0x0, 1, 0x0, 0x0, 0x0, 0x0, 0x0, 0x0, 0x0⟩,  -- SITE_ACC_CHG_2
  ⟨0x60, 0x0, 1, 0x0, 1, 0x1FFFF, 0x0, 0x0, 0x0, 0x0, 0x0, 0x10E10⟩,  -- SITE_JCFG
  ⟨0x64, 0x0, 1, 0x0, 1, 0x3FFF, 0x0, 0x0, 0x0, 0x0, 0x0, 0x0⟩,  -- SITE_JFIRST
  ⟨0x68, 0x0, 1, 0x0, 1, 0x3FFF, 0x0, 0x0, 0x0, 0x0, 0x0, 0x1⟩,  -- SITE_JCOUNT
  ⟨0x6C, 0x0, 1, 0x0, 1, 0x0, 0x0, 0x1, 0x0, 0x0, 0x0, 0x0⟩,  -- SITE_JCTRL
  ⟨0x70, 0x0, 1, 0x0, 1, 0x0, 0x0, 0x0, 0x0, 0x0, 0x0, 0x0⟩,  -- SITE_JSTAT
  ⟨0x400, 0x100, 4, 0x0, 1, 0xF0, 0x0, 0x0, 0x0, 0x0, 0x301, 0x0⟩,  -- SITE_WS_CFG_s
  ⟨0x404, 0x100, 4, 0x0, 1, 0xFFFFFFFF, 0x0, 0x0, 0x0, 0x0, 0x0, 0x0⟩,  -- SITE_WS_RANGE_s
  ⟨0x408, 0x100, 4, 0x0, 1, 0x3FFF0F1F, 0x0, 0x0, 0x0, 0x0, 0x0, 0x0⟩,  -- SITE_WS_GEOM_s
  ⟨0x40C, 0x100, 4, 0x0, 1, 0xFFFFFFFF, 0x0, 0x0, 0x0, 0x0, 0x0, 0xB4000001⟩,  -- SITE_WS_LFSR_s
  ⟨0x410, 0x100, 4, 0x0, 1, 0x0, 0x0, 0x0, 0x0, 0x0, 0x0, 0x0⟩,  -- SITE_WS_POS_s
  ⟨0x414, 0x100, 4, 0x0, 1, 0x0, 0x3, 0x0, 0x0, 0x0, 0x0, 0x0⟩,  -- SITE_WS_STAT_s
  ⟨0x418, 0x100, 4, 0x0, 1, 0x0, 0x0, 0x0, 0x0, 0x0, 0x0, 0x0⟩,  -- SITE_WS_TOTAL_s
  ⟨0x41C, 0x100, 4, 0x0, 1, 0x0, 0x0, 0x1, 0x0, 0x0, 0x0, 0x0⟩,  -- SITE_WS_CTRL_s
  ⟨0x420, 0x100, 4, 0x4, 4, 0xFFFFFFFF, 0x0, 0x0, 0x0, 0x0, 0x0, 0x0⟩,  -- SITE_WS_LVL_s_l
  ⟨0x430, 0x100, 4, 0x0, 1, 0xFFFFFF, 0x0, 0x0, 0x0, 0x0, 0x0, 0x0⟩,  -- SITE_WS_LVLTAB_s
  ⟨0x440, 0x100, 4, 0x4, 16, 0xFCFF7777, 0x0, 0x0, 0x0, 0x0, 0x0, 0x0⟩  -- SITE_WS_ELEM_s_e
  ]

/-- The registers of the life block, in the order of the spec. -/
def lifeRows : List RegRow := [
  ⟨0x800, 0x0, 1, 0x0, 1, 0xFFFF, 0x0, 0x0, 0x0, 0x0, 0x0, 0x0⟩,  -- LIFE_RW_SEL
  ⟨0x804, 0x0, 1, 0x0, 1, 0x0, 0x0, 0x0, 0x0, 0x0, 0x0, 0x0⟩,  -- LIFE_RW_CNT
  ⟨0x808, 0x0, 1, 0x0, 1, 0xF, 0x0, 0x0, 0x0, 0x0, 0x0, 0x0⟩,  -- LIFE_RW_CLASS
  ⟨0x80C, 0x0, 1, 0x0, 1, 0x0, 0x0, 0x1, 0x0, 0x0, 0x0, 0x0⟩,  -- LIFE_RW_CTRL
  ⟨0x840, 0x0, 1, 0x4, 16, 0xFFFFFFFF, 0x0, 0x0, 0x0, 0x0, 0x0, 0x989680⟩,  -- LIFE_RW_THR_k
  ⟨0x880, 0x0, 1, 0x0, 1, 0x0, 0x0, 0x0, 0x0, 0x0, 0x0, 0x0⟩,  -- LIFE_RW_WARN
  ⟨0x884, 0x0, 1, 0x0, 1, 0x0, 0x0, 0x0, 0x0, 0x0, 0x0, 0x0⟩,  -- LIFE_RW_LAST
  ⟨0x0, 0x0, 1, 0x0, 1, 0x0, 0x0, 0x0, 0x0, 0x0, 0x0, 0x0⟩,  -- LIFE_OPS_LO
  ⟨0x4, 0x0, 1, 0x0, 1, 0x0, 0x0, 0x0, 0x0, 0x0, 0x0, 0x0⟩,  -- LIFE_OPS_HI
  ⟨0x8, 0x0, 1, 0x0, 1, 0x0, 0x0, 0x0, 0x0, 0x0, 0x0, 0x0⟩,  -- LIFE_ARR_LO
  ⟨0xC, 0x0, 1, 0x0, 1, 0x0, 0x0, 0x0, 0x0, 0x0, 0x0, 0x0⟩,  -- LIFE_ARR_HI
  ⟨0x10, 0x0, 1, 0x0, 1, 0xFFFFFFFF, 0x0, 0x0, 0x0, 0x0, 0x0, 0x37002BC⟩,  -- LIFE_ARR_CFG
  ⟨0x14, 0x0, 1, 0x0, 1, 0x0, 0x0, 0x0, 0x0, 0x0, 0x0, 0x0⟩,  -- LIFE_CYCLES
  ⟨0x18, 0x0, 1, 0x0, 1, 0x0, 0x0, 0x0, 0x0, 0x0, 0x0, 0x0⟩,  -- LIFE_SHUT
  ⟨0x1C, 0x0, 1, 0x0, 1, 0x0, 0x0, 0x0, 0x0, 0x0, 0x0, 0x0⟩,  -- LIFE_STOPS
  ⟨0x20, 0x0, 1, 0x0, 1, 0x0, 0x0, 0x0, 0x0, 0x0, 0x0, 0x0⟩,  -- LIFE_STOPS_X
  ⟨0x24, 0x0, 1, 0x0, 1, 0x0, 0x0, 0x0, 0x0, 0x0, 0x0, 0x0⟩,  -- LIFE_COND
  ⟨0x28, 0x0, 1, 0x0, 1, 0x0, 0x0, 0x0, 0x0, 0x0, 0x0, 0x0⟩,  -- LIFE_TJ_MEAN
  ⟨0x2C, 0x0, 1, 0x0, 1, 0x7, 0x0, 0x0, 0x0, 0x0, 0x0, 0x0⟩,  -- LIFE_NVM_SEL
  ⟨0x30, 0x0, 1, 0x0, 1, 0x0, 0x0, 0x0, 0x0, 0x0, 0x0, 0x0⟩,  -- LIFE_NVM_ERASE
  ⟨0x34, 0x0, 1, 0x0, 1, 0x0, 0x0, 0x0, 0x0, 0x0, 0x0, 0x0⟩,  -- LIFE_NVM_MEAN
  ⟨0x38, 0x0, 1, 0x0, 1, 0x0, 0x0, 0x0, 0x0, 0x0, 0x0, 0x100⟩,  -- LIFE_NVM_SPARE
  ⟨0x3C, 0x0, 1, 0x0, 1, 0x0, 0x0, 0x0, 0x0, 0x0, 0x0, 0x0⟩,  -- LIFE_JSTAT
  ⟨0x40, 0x0, 1, 0x0, 1, 0x0, 0x0, 0x0, 0x0, 0x0, 0x0, 0x0⟩,  -- LIFE_CH_STOPS
  ⟨0x44, 0x0, 1, 0x0, 1, 0x0, 0x0, 0x0, 0x0, 0x0, 0x0, 0x0⟩,  -- LIFE_LAST_STOP
  ⟨0x48, 0x0, 1, 0x0, 1, 0x0, 0x0, 0x0, 0x0, 0x0, 0x0, 0x0⟩,  -- LIFE_LAST_STOP_TS_LO
  ⟨0x4C, 0x0, 1, 0x0, 1, 0x0, 0x0, 0x0, 0x0, 0x0, 0x0, 0x0⟩,  -- LIFE_LAST_STOP_TS_HI
  ⟨0x50, 0x0, 1, 0x0, 1, 0x0, 0x0, 0x1, 0x0, 0x0, 0x0, 0x0⟩,  -- LIFE_CTRL
  ⟨0x400, 0x0, 1, 0x4, 256, 0x0, 0x0, 0x0, 0x0, 0x0, 0x0, 0x0⟩  -- LIFE_FON_p
  ]

/-- The registers of the evt block, in the order of the spec. -/
def evtRows : List RegRow := [
  ⟨0x0, 0x0, 1, 0x0, 1, 0x0, 0x0, 0x0, 0x0, 0x1FF, 0x0, 0x0⟩,  -- EVT_FIRE
  ⟨0x4, 0x0, 1, 0x0, 1, 0x0, 0xF, 0x0, 0x0, 0x0, 0x0, 0x0⟩,  -- EVT_STAT
  ⟨0x8, 0x0, 1, 0x0, 1, 0x0, 0x0, 0x0, 0xFFFFFFFF, 0x0, 0x0, 0x0⟩,  -- EVT_LOOP_CNT
  ⟨0xC, 0x0, 1, 0x0, 1, 0x0, 0x0, 0x0, 0x0, 0x0, 0x0, 0x0⟩,  -- EVT_LOOP_LAST
  ⟨0x40, 0x0, 1, 0x4, 16, 0x0, 0x0, 0x0, 0x0, 0xFFFFFFFF, 0x0, 0x0⟩,  -- EVT_FIRE_SET_k
  ⟨0x80, 0x0, 1, 0x4, 16, 0xFFFFFFFF, 0x0, 0x0, 0x0, 0x0, 0x0, 0x0⟩,  -- EVT_SLVL_k
  ⟨0xC0, 0x0, 1, 0x4, 16, 0x0, 0x0, 0x0, 0x0, 0x0, 0x0, 0x0⟩,  -- EVT_LVL_k
  ⟨0x1000, 0x0, 1, 0x8, 512, 0x0, 0x0, 0x0, 0x0, 0x0, 0x17FFF, 0x0⟩,  -- EVT_CH_n
  ⟨0x1004, 0x0, 1, 0x8, 512, 0x0, 0x0, 0x0, 0xFFFFFFFF, 0x0, 0x0, 0x0⟩,  -- EVT_ISSUE_n
  ⟨0x2000, 0x0, 1, 0x10, 2048, 0x0, 0x0, 0x0, 0x0, 0x0, 0x3FFFFF, 0x0⟩,  -- EVT_IN_CFG_i
  ⟨0x2004, 0x0, 1, 0x10, 2048, 0x0, 0x0, 0x0, 0xFFFF0000, 0x0, 0x0, 0x0⟩,  -- EVT_IN_STAT_i
  ⟨0x2008, 0x0, 1, 0x10, 2048, 0x0, 0x0, 0x0, 0xFFFFFFFF, 0x0, 0x0, 0x0⟩,  -- EVT_IN_TAKEN_i
  ⟨0x200C, 0x0, 1, 0x10, 2048, 0x0, 0x0, 0x0, 0xFFFFFFFF, 0x0, 0x0, 0x0⟩,  -- EVT_IN_OVF_i
  ⟨0xB000, 0x0, 1, 0x10, 16, 0xFFFFFFFF, 0x0, 0x0, 0x0, 0x0, 0x0, 0x0⟩,  -- EVT_CNT_VALUE_m
  ⟨0xB004, 0x0, 1, 0x10, 16, 0xFFFFFFFF, 0x0, 0x0, 0x0, 0x0, 0x0, 0xFFFFFFFF⟩,  -- EVT_CNT_CMP_m
  ⟨0xB008, 0x0, 1, 0x10, 16, 0x1, 0x0, 0x0, 0x0, 0x0, 0xF0, 0x0⟩,  -- EVT_CNT_CTRL_m
  ⟨0xB100, 0x0, 1, 0x10, 8, 0x0, 0x0, 0x0, 0x0, 0x0, 0x0, 0x0⟩,  -- EVT_CAP_LO_m
  ⟨0xB104, 0x0, 1, 0x10, 8, 0x0, 0x0, 0x0, 0x0, 0x0, 0x0, 0x0⟩,  -- EVT_CAP_HI_m
  ⟨0xB108, 0x0, 1, 0x10, 8, 0x0, 0x0, 0x0, 0xFFFFFFFF, 0x0, 0x0, 0x0⟩,  -- EVT_CAP_COUNT_m
  ⟨0xB200, 0x0, 1, 0x4, 8, 0xFF06, 0x0, 0x0, 0x0, 0x0, 0xF0001, 0x800⟩  -- EVT_EVIO_k
  ]

/-- The registers of the hevt block, in the order of the spec. -/
def hevtRows : List RegRow := [
  ⟨0x0, 0x0, 1, 0x0, 1, 0x0, 0x0, 0x0, 0x0, 0xFF, 0x0, 0x0⟩,  -- EVT_PFIRE
  ⟨0x4, 0x0, 1, 0x0, 1, 0x0, 0x0, 0x0, 0x0, 0x3F, 0x0, 0x0⟩,  -- EVT_SFIRE
  ⟨0x8, 0x0, 1, 0x0, 1, 0x10F, 0x0, 0x0, 0x0, 0x0, 0x0, 0xF⟩,  -- EVT_SYS_CFG
  ⟨0xC, 0x0, 1, 0x0, 1, 0x0, 0xF, 0x0, 0x0, 0x0, 0x0, 0x0⟩,  -- EVT_PSTAT
  ⟨0x1000, 0x0, 1, 0x8, 256, 0x0, 0x0, 0x0, 0x0, 0x0, 0xF1FFF, 0x0⟩,  -- EVT_PCH_n
  ⟨0x1004, 0x0, 1, 0x8, 256, 0x0, 0x0, 0x0, 0xFFFFFFFF, 0x0, 0x0, 0x0⟩,  -- EVT_PISSUE_n
  ⟨0x2000, 0x0, 1, 0x8, 64, 0x0, 0x0, 0x0, 0x0, 0x0, 0x1FFFF, 0x0⟩,  -- EVT_SCH_n
  ⟨0x2004, 0x0, 1, 0x8, 64, 0x0, 0x0, 0x0, 0xFFFFFFFF, 0x0, 0x0, 0x0⟩  -- EVT_SISSUE_n
  ]

/-- The registers of the dma block, in the order of the spec. -/
def dmaRows : List RegRow := [
  ⟨0x0, 0x0, 1, 0x0, 1, 0x1FFFF, 0x0, 0x0, 0x0, 0x0, 0x0, 0x64⟩,  -- DMA_CFG
  ⟨0x4, 0x0, 1, 0x0, 1, 0x0, 0xC, 0x0, 0x0, 0x0, 0x0, 0x2⟩,  -- DMA_STAT
  ⟨0x40, 0x0, 1, 0x4, 16, 0x0, 0x0, 0x0, 0x0, 0x0, 0x3F, 0x0⟩,  -- DMA_RMAP_d_g
  ⟨0x100, 0x0, 1, 0x0, 1, 0xFFF, 0x0, 0x0, 0x0, 0x0, 0x0, 0x0⟩,  -- DMA_AUD_SEL
  ⟨0x104, 0x0, 1, 0x0, 1, 0x0, 0x0, 0x0, 0x0, 0x0, 0x0, 0x0⟩,  -- DMA_AUD_TOTAL
  ⟨0x108, 0x0, 1, 0x0, 1, 0x0, 0x0, 0x0, 0x0, 0x0, 0x0, 0x0⟩,  -- DMA_AUD_HELD
  ⟨0x10C, 0x0, 1, 0x0, 1, 0x0, 0x0, 0x0, 0x0, 0x0, 0x0, 0x0⟩,  -- DMA_AUD_INFL
  ⟨0x110, 0x0, 1, 0x0, 1, 0x0, 0x0, 0x0, 0x0, 0x0, 0x0, 0x0⟩,  -- DMA_AUD_RET
  ⟨0x114, 0x0, 1, 0x0, 1, 0x0, 0x1, 0x0, 0xFFFF0000, 0x0, 0x0, 0x0⟩,  -- DMA_AUD_STAT
  ⟨0x1000, 0x40, 64, 0x0, 1, 0x3F03, 0x0, 0x0, 0x0, 0x0, 0x70000, 0x0⟩,  -- DMA_RING_CTRL
  ⟨0x1004, 0x40, 64, 0x0, 1, 0x1F, 0x0, 0x0, 0x0, 0x0, 0x0, 0x6⟩,  -- DMA_RING_SIZE
  ⟨0x1008, 0x40, 64, 0x0, 1, 0xFFFFF000, 0x0, 0x0, 0x0, 0x0, 0x0, 0x0⟩,  -- DMA_RING_BASE_LO
  ⟨0x100C, 0x40, 64, 0x0, 1, 0xFFFFFFFF, 0x0, 0x0, 0x0, 0x0, 0x0, 0x0⟩,  -- DMA_RING_BASE_HI
  ⟨0x1010, 0x40, 64, 0x0, 1, 0xFFFFFFF8, 0x0, 0x0, 0x0, 0x0, 0x0, 0x0⟩,  -- DMA_RING_WB_LO
  ⟨0x1014, 0x40, 64, 0x0, 1, 0xFFFFFFFF, 0x0, 0x0, 0x0, 0x0, 0x0, 0x0⟩,  -- DMA_RING_WB_HI
  ⟨0x1018, 0x40, 64, 0x0, 1, 0xFFFFFFFF, 0x0, 0x0, 0x0, 0x0, 0x0, 0x0⟩,  -- DMA_RING_HEAD
  ⟨0x101C, 0x40, 64, 0x0, 1, 0x0, 0x0, 0x0, 0x0, 0x0, 0x0, 0x0⟩,  -- DMA_RING_TAIL
  ⟨0x1020, 0x40, 64, 0x0, 1, 0x0, 0x0, 0x0, 0xFFFFFFFF, 0x0, 0x0, 0x0⟩,  -- DMA_RING_DROP
  ⟨0x1024, 0x40, 64, 0x0, 1, 0xFFFF0FFF, 0x0, 0x0, 0x0, 0x0, 0x0, 0x640100⟩,  -- DMA_RING_MOD
  ⟨0x1028, 0x40, 64, 0x0, 1, 0x0, 0x3, 0x0, 0x0, 0x0, 0x0, 0x0⟩  -- DMA_RING_STAT
  ]

/-- The registers of the rope block, in the order of the spec. -/
def ropeRows : List RegRow := [
  ⟨0x0, 0x0, 1, 0x0, 1, 0x1, 0x0, 0x0, 0x0, 0x0, 0x0, 0x0⟩,  -- ROPE_CFG
  ⟨0x10, 0x0, 1, 0x0, 1, 0xFF, 0x0, 0x80000000, 0x0, 0x0, 0x0, 0x0⟩,  -- ROPE_MBX_TX
  ⟨0x14, 0x0, 1, 0x0, 1, 0xFFFFFFFF, 0x0, 0x0, 0x0, 0x0, 0x0, 0x0⟩,  -- ROPE_MBX_TXD_LO
  ⟨0x18, 0x0, 1, 0x0, 1, 0xFFFFFFFF, 0x0, 0x0, 0x0, 0x0, 0x0, 0x0⟩,  -- ROPE_MBX_TXD_HI
  ⟨0x20, 0x0, 1, 0x0, 1, 0x0, 0x0, 0x0, 0x0, 0x0, 0x0, 0x0⟩,  -- ROPE_MBX_RXD_LO
  ⟨0x24, 0x0, 1, 0x0, 1, 0x0, 0x0, 0x0, 0x0, 0x0, 0x0, 0x0⟩,  -- ROPE_MBX_RXD_HI
  ⟨0x28, 0x0, 1, 0x0, 1, 0x0, 0x0, 0x0, 0x801FFFFF, 0x0, 0x0, 0x0⟩,  -- ROPE_MBX_RXC
  ⟨0x30, 0x0, 1, 0x0, 1, 0x0, 0x0, 0x0, 0xFFFFFFFF, 0x0, 0x0, 0x0⟩,  -- ROPE_PEER_FLT
  ⟨0x34, 0x0, 1, 0x0, 1, 0x0, 0x0, 0x0, 0x0, 0x0, 0x0, 0x0⟩,  -- ROPE_PEER_LAST
  ⟨0x100, 0x0, 1, 0x100, 2, 0x0, 0x0, 0x0, 0x0, 0x0, 0x0, 0x0⟩,  -- ROPE_STAT_p
  ⟨0x104, 0x0, 1, 0x100, 2, 0x0, 0x0, 0x0, 0xFFFFFFFF, 0x0, 0x0, 0x0⟩,  -- ROPE_CRC_p
  ⟨0x108, 0x0, 1, 0x100, 2, 0x0, 0x0, 0x0, 0xFFFFFFFF, 0x0, 0x0, 0x0⟩,  -- ROPE_REPLAY_p
  ⟨0x10C, 0x0, 1, 0x100, 2, 0x0, 0x0, 0x0, 0xFFFFFFFF, 0x0, 0x0, 0x0⟩  -- ROPE_BADSLOT_p
  ]

/-- The registers of the die block, in the order of the spec. -/
def dieRows : List RegRow := [
  ⟨0x100, 0x0, 1, 0x0, 1, 0x0, 0x0, 0x0, 0x0, 0x0, 0x0, 0x0⟩,  -- DIE_SPINE_STAT
  ⟨0x104, 0x0, 1, 0x0, 1, 0x0, 0x0, 0x0, 0xFFFFFFFF, 0x0, 0x0, 0x0⟩,  -- DIE_SPINE_CRC
  ⟨0x108, 0x0, 1, 0x0, 1, 0x0, 0x0, 0x0, 0xFFFFFFFF, 0x0, 0x0, 0x0⟩,  -- DIE_SPINE_RETRAIN
  ⟨0x110, 0x0, 1, 0x4, 4, 0x0, 0x0, 0x0, 0x0, 0x0, 0x3FF, 0x80⟩,  -- DIE_SPINE_Q_g
  ⟨0x120, 0x0, 1, 0x4, 4, 0x0, 0x0, 0x0, 0xFFFFFFFF, 0x0, 0x0, 0x0⟩,  -- DIE_RBUF_DROP_g
  ⟨0x0, 0x0, 1, 0x0, 1, 0x0, 0x0, 0x0, 0x0, 0x0, 0x0, 0x0⟩  -- DIE_INFO
  ]

/-- The registers of the img block, in the order of the spec. -/
def imgRows : List RegRow := [
  ⟨0x0, 0x0, 1, 0x0, 1, 0x1BFF, 0x0, 0x80000000, 0x0, 0x0, 0x0, 0x0⟩,  -- IMG_CMD
  ⟨0x4, 0x0, 1, 0x0, 1, 0x0, 0x700, 0x0, 0x0, 0x0, 0x0, 0x800⟩,  -- IMG_STAT
  ⟨0x8, 0x0, 1, 0x0, 1, 0xFFFFFFFF, 0x0, 0x0, 0x0, 0x0, 0x0, 0x0⟩,  -- IMG_AT_LO
  ⟨0xC, 0x0, 1, 0x0, 1, 0xFFFFFFFF, 0x0, 0x0, 0x0, 0x0, 0x0, 0x0⟩,  -- IMG_AT_HI
  ⟨0x10, 0x0, 1, 0x0, 1, 0xFFFF, 0x0, 0x0, 0x0, 0x0, 0x0, 0x3E8⟩,  -- IMG_SWAP_TMO
  ⟨0x14, 0x0, 1, 0x0, 1, 0x0, 0x0, 0x0, 0x0, 0x0, 0x0, 0x0⟩,  -- IMG_PKG_SEQ
  ⟨0x18, 0x0, 1, 0x0, 1, 0x0, 0x0, 0x0, 0xFFFFFFFF, 0x0, 0x0, 0x0⟩,  -- IMG_FAIL_CNT
  ⟨0x20, 0x0, 1, 0x0, 1, 0x0, 0x100, 0x0, 0x0, 0x0, 0x0, 0x0⟩,  -- IMG_KEY_STAT
  ⟨0x24, 0x0, 1, 0x0, 1, 0x3, 0x0, 0x300, 0x0, 0x0, 0x0, 0x0⟩,  -- IMG_KEY_CTRL
  ⟨0x40, 0x0, 1, 0x4, 16, 0x0, 0x0, 0x0, 0x0, 0xFFFFFFFF, 0x0, 0x0⟩,  -- IMG_KEY_DATA_k
  ⟨0x100, 0x0, 1, 0x10, 16, 0x0, 0x0, 0x0, 0x0, 0x0, 0x0, 0x0⟩,  -- IMG_SLOTINFO_t
  ⟨0x104, 0x0, 1, 0x10, 16, 0x0, 0x0, 0x0, 0x0, 0x0, 0x0, 0x0⟩,  -- IMG_SEQ_A_t
  ⟨0x108, 0x0, 1, 0x10, 16, 0x0, 0x0, 0x0, 0x0, 0x0, 0x0, 0x0⟩,  -- IMG_SEQ_B_t
  ⟨0x10C, 0x0, 1, 0x10, 16, 0xFFFFFFFF, 0x0, 0x0, 0x0, 0x0, 0x0, 0x0⟩,  -- IMG_MIN_SEQ_t
  ⟨0x200, 0x0, 1, 0x4, 16, 0x0, 0x0, 0x0, 0x0, 0x0, 0x0, 0x0⟩,  -- IMG_RGN_STAT_t
  ⟨0x1000, 0x20, 256, 0x0, 1, 0x0, 0x0, 0x0, 0x0, 0x0, 0x0, 0x0⟩,  -- IMG_NL_MIN_LO_p
  ⟨0x1004, 0x20, 256, 0x0, 1, 0x0, 0x0, 0x0, 0x0, 0x0, 0x0, 0x0⟩,  -- IMG_NL_MIN_HI_p
  ⟨0x1008, 0x20, 256, 0x0, 1, 0x0, 0x0, 0x0, 0x0, 0x0, 0x0, 0x0⟩,  -- IMG_NL_MAX_LO_p
  ⟨0x100C, 0x20, 256, 0x0, 1, 0x0, 0x0, 0x0, 0x0, 0x0, 0x0, 0x0⟩,  -- IMG_NL_MAX_HI_p
  ⟨0x1010, 0x20, 256, 0x0, 1, 0x0, 0x0, 0x0, 0x0, 0x0, 0x0, 0x0⟩,  -- IMG_NL_MEAN_LO_p
  ⟨0x1014, 0x20, 256, 0x0, 1, 0x0, 0x0, 0x0, 0x0, 0x0, 0x0, 0x0⟩,  -- IMG_NL_MEAN_HI_p
  ⟨0x1018, 0x20, 256, 0x0, 1, 0x0, 0x0, 0x0, 0x0, 0x0, 0x0, 0x0⟩  -- IMG_NL_FLAGS_p
  ]

/-- The registers of the tmp block, in the order of the spec. -/
def tmpRows : List RegRow := [
  ⟨0x0, 0x0, 1, 0x0, 1, 0xFF07, 0x0, 0x0, 0x0, 0x0, 0x0, 0xF02⟩,  -- TMP_CFG
  ⟨0x4, 0x0, 1, 0x0, 1, 0x7F, 0x0, 0x180, 0x0, 0x0, 0x0, 0x0⟩,  -- TMP_CTRL
  ⟨0x8, 0x0, 1, 0x0, 1, 0xFFFF, 0x0, 0x0, 0x0, 0x0, 0x0, 0x1F4⟩,  -- TMP_GRACE
  ⟨0xC, 0x0, 1, 0x0, 1, 0xFE3FFFFF, 0x0, 0x0, 0x0, 0x0, 0x0, 0x641F46C8⟩,  -- TMP_ENF_CFG
  ⟨0x10, 0x0, 1, 0x0, 1, 0xFFFFFF, 0x0, 0x0, 0x0, 0x0, 0x0, 0x3E8⟩,  -- TMP_ENF_IDLE
  ⟨0x14, 0x0, 1, 0x0, 1, 0xFFFF, 0x0, 0x0, 0x0, 0x0, 0x0, 0x1405⟩,  -- TMP_RATE
  ⟨0x18, 0x0, 1, 0x0, 1, 0x0, 0x0, 0x0, 0x0, 0x0, 0x0, 0x0⟩,  -- TMP_SHUT
  ⟨0x1C, 0x0, 1, 0x0, 1, 0xFF, 0x0, 0x0, 0x0, 0x0, 0x0, 0xA⟩,  -- TMP_REC
  ⟨0x20, 0x0, 1, 0x0, 1, 0x0, 0x0, 0x0, 0x0, 0x0, 0x0, 0x0⟩,  -- TMP_EXCL_0
  ⟨0x24, 0x0, 1, 0x0, 1, 0x0, 0x0, 0x0, 0x0, 0x0, 0x0, 0x0⟩,  -- TMP_EXCL_1
  ⟨0x28, 0x0, 1, 0x0, 1, 0x0, 0x0, 0x0, 0x0, 0x0, 0x0, 0x0⟩,  -- TMP_EXCL_2
  ⟨0x40, 0x0, 1, 0x4, 88, 0x0, 0x0, 0x0, 0x0, 0x0, 0x0, 0x0⟩,  -- TMP_RD_s
  ⟨0x200, 0x0, 1, 0x4, 16, 0x0, 0x0, 0x0, 0x0, 0x0, 0x0, 0x0⟩,  -- TMP_RGN_t
  ⟨0x300, 0x0, 1, 0x0, 1, 0x0, 0x3F3F00, 0x0, 0x0, 0x0, 0x0, 0x0⟩,  -- PWR_STAT
  ⟨0x304, 0x0, 1, 0x0, 1, 0xFF, 0x0, 0x0, 0x0, 0x0, 0x0, 0x3C⟩,  -- PWR_BUDGET
  ⟨0x308, 0x0, 1, 0x0, 1, 0x0, 0x0, 0x0, 0x0, 0x0, 0x0, 0x0⟩,  -- PWR_EST
  ⟨0x30C, 0x0, 1, 0x0, 1, 0x0, 0x0, 0x0, 0x0, 0x0, 0x0, 0x8000⟩,  -- PWR_GOV
  ⟨0x310, 0x0, 1, 0x0, 1, 0x0, 0x0, 0x0, 0x0, 0x0, 0x0, 0x4⟩,  -- PWR_FLUSH_EST
  ⟨0x314, 0x0, 1, 0x0, 1, 0x0, 0x0, 0x0, 0xFFFFFFFF, 0x0, 0x0, 0x0⟩,  -- PWR_WARN_CNT
  ⟨0x318, 0x0, 1, 0x0, 1, 0x0, 0x0, 0x0, 0x0, 0x0, 0x0, 0x0⟩,  -- PWR_LAST_RESET
  ⟨0x320, 0x0, 1, 0x4, 6, 0x0, 0x0, 0x0, 0x0, 0x0, 0x0, 0x0⟩  -- PWR_RAIL_r
  ]

/-- The registers of the dtmp block, in the order of the spec. -/
def dtmpRows : List RegRow := [
  ⟨0x0, 0x0, 1, 0x4, 20, 0x0, 0x0, 0x0, 0x0, 0x0, 0x0, 0x0⟩,  -- TMP_DRD_k
  ⟨0x100, 0x0, 1, 0x4, 20, 0x0, 0x0, 0x0, 0x0, 0x0, 0x0, 0x0⟩,  -- TMP_TRIM_k
  ⟨0x200, 0x0, 1, 0x0, 1, 0x0, 0x0, 0x0, 0x0, 0x0, 0x0, 0x0⟩  -- TMP_DSTAT
  ]

/-- The registers of the flt block, in the order of the spec. -/
def fltRows : List RegRow := [
  ⟨0x0, 0x0, 1, 0x0, 1, 0xFFFF, 0x0, 0x0, 0x0, 0x0, 0x0, 0x7D0⟩,  -- FLT_CFG
  ⟨0x4, 0x0, 1, 0x0, 1, 0x0, 0x1, 0x0, 0x0, 0x0, 0x0, 0x0⟩,  -- FLT_STAT
  ⟨0x8, 0x0, 1, 0x0, 1, 0x0, 0x0, 0x0, 0x0, 0x0, 0x0, 0x221⟩,  -- FLT_NSRC
  ⟨0xC, 0x0, 1, 0x0, 1, 0x0, 0x0, 0x0, 0x0, 0x0, 0x0, 0x0⟩,  -- FLT_RESET_CAUSE
  ⟨0x10, 0x0, 1, 0x0, 1, 0x0, 0x0, 0x0, 0x0, 0x0, 0x0, 0x0⟩,  -- FLT_SEV_PEND
  ⟨0x14, 0x0, 1, 0x0, 1, 0x0, 0x0, 0x0, 0xFFFFFFFF, 0x0, 0x0, 0x0⟩,  -- FLT_HUB_CORR
  ⟨0x18, 0x0, 1, 0x0, 1, 0x0, 0x0, 0x0, 0xFFFFFFFF, 0x0, 0x0, 0x0⟩,  -- FLT_HUB_UNCORR
  ⟨0x20, 0x0, 1, 0x0, 1, 0xFFFFFF1F, 0x0, 0x0, 0x0, 0x0, 0x0, 0x0⟩,  -- FLT_INJ_SEL
  ⟨0x24, 0x0, 1, 0x0, 1, 0x2, 0x8, 0x1, 0x0, 0x0, 0x0, 0x0⟩,  -- FLT_INJ_CTRL
  ⟨0x1000, 0x20, 545, 0x0, 1, 0x107, 0x0, 0x0, 0x0, 0x0, 0x0, 0x0⟩,  -- FLT_SRC_CFG_n
  ⟨0x1004, 0x20, 545, 0x0, 1, 0x0, 0x2, 0x0, 0x0, 0x0, 0x0, 0x0⟩,  -- FLT_SRC_STAT_n
  ⟨0x1008, 0x20, 545, 0x0, 1, 0x0, 0x0, 0x0, 0x0, 0x0, 0x0, 0x0⟩,  -- FLT_FIRST_CAUSE_n
  ⟨0x100C, 0x20, 545, 0x0, 1, 0x0, 0x0, 0x0, 0x0, 0x0, 0x0, 0x0⟩,  -- FLT_FIRST_TS_LO_n
  ⟨0x1010, 0x20, 545, 0x0, 1, 0x0, 0x0, 0x0, 0x0, 0x0, 0x0, 0x0⟩,  -- FLT_FIRST_TS_HI_n
  ⟨0x1014, 0x20, 545, 0x0, 1, 0x0, 0x0, 0x0, 0x0, 0x0, 0x0, 0x0⟩,  -- FLT_LAST_CAUSE_n
  ⟨0x1018, 0x20, 545, 0x0, 1, 0x0, 0x0, 0x0, 0xFFFFFFFF, 0x0, 0x0, 0x0⟩  -- FLT_CONSEQ_CNT_n
  ]

/-- The registers of the mem block, in the order of the spec. -/
def memRows : List RegRow := [
  ⟨0x0, 0x0, 1, 0x0, 1, 0x1, 0x0, 0x0, 0x0, 0x0, 0x0, 0x1⟩,  -- DIE_ECC_CTRL
  ⟨0x4, 0x0, 1, 0x0, 1, 0xFFF, 0x0, 0x0, 0x0, 0x0, 0x0, 0x3C⟩,  -- DIE_SCRUB_INT
  ⟨0x8, 0x0, 1, 0x0, 1, 0x0, 0x0, 0x0, 0x0, 0x0, 0x0, 0x0⟩,  -- DIE_SCRUB_POS
  ⟨0xC, 0x0, 1, 0x0, 1, 0x0, 0x0, 0x0, 0xFFFFFFFF, 0x0, 0x0, 0x0⟩,  -- DIE_ECC_CORR
  ⟨0x10, 0x0, 1, 0x0, 1, 0x0, 0x0, 0x0, 0xFFFFFFFF, 0x0, 0x0, 0x0⟩,  -- DIE_ECC_UNCORR
  ⟨0x14, 0x0, 1, 0x0, 1, 0x0, 0x0, 0x0, 0x0, 0x0, 0x0, 0x0⟩,  -- DIE_ECC_LAST
  ⟨0x18, 0x0, 1, 0x0, 1, 0x0, 0x0, 0x0, 0xFFFFFFFF, 0x0, 0x0, 0x0⟩,  -- DIE_CFG_RELOAD
  ⟨0x1C, 0x0, 1, 0x0, 1, 0x0, 0x0, 0x0, 0x0, 0x0, 0x0, 0x0⟩,  -- DIE_SCRUB_PASSES
  ⟨0x100, 0x0, 1, 0x8, 9, 0x0, 0x0, 0x0, 0x0, 0x0, 0xFFFFFFFF, 0x0⟩,  -- DIE_PART_BASE_k
  ⟨0x104, 0x0, 1, 0x8, 9, 0x0, 0x0, 0x0, 0x0, 0x0, 0xFFFFFFFF, 0x0⟩  -- DIE_PART_SIZE_k
  ]

/-- The registers of the own block, in the order of the spec. -/
def ownRows : List RegRow := [
  ⟨0x0, 0x0, 1, 0x0, 1, 0x0, 0x0, 0x0, 0x0, 0x0, 0xFFFFFFFF, 0x0⟩,  -- HUB_OWN_RGN_0
  ⟨0x4, 0x0, 1, 0x0, 1, 0x0, 0x0, 0x0, 0x0, 0x0, 0xFFFFFFFF, 0x0⟩,  -- HUB_OWN_RGN_1
  ⟨0x8, 0x0, 1, 0x0, 1, 0x0, 0x0, 0x0, 0x0, 0x0, 0xFF, 0x1⟩,  -- HUB_FN_PRESENT
  ⟨0x10, 0x0, 1, 0x4, 8, 0x1, 0x0, 0x0, 0x0, 0x0, 0x0, 0x0⟩,  -- HUB_FN_CTRL_f
  ⟨0x40, 0x0, 1, 0x10, 8, 0x0, 0x0, 0x0, 0xFFFFFFFF, 0x0, 0x0, 0x0⟩,  -- HUB_SEC_CNT_f
  ⟨0x44, 0x0, 1, 0x10, 8, 0x0, 0x0, 0x0, 0x0, 0x0, 0x0, 0x0⟩,  -- HUB_SEC_LAST_f
  ⟨0x48, 0x0, 1, 0x10, 8, 0x0, 0x0, 0x0, 0x0, 0x0, 0x0, 0x0⟩  -- HUB_SEC_ADDR_f
  ]

/-- The registers of the id block, in the order of the spec. -/
def idRows : List RegRow := [
  ⟨0x0, 0x0, 1, 0x0, 1, 0x0, 0x0, 0x0, 0x0, 0x0, 0x0, 0x92560⟩,  -- HUB_ID
  ⟨0x4, 0x0, 1, 0x0, 1, 0x0, 0x0, 0x0, 0x0, 0x0, 0x0, 0x2801044⟩,  -- HUB_CAP
  ⟨0x8, 0x0, 1, 0x0, 1, 0x0, 0x0, 0x0, 0x0, 0x0, 0x0, 0x0⟩,  -- HUB_SERIAL_LO
  ⟨0xC, 0x0, 1, 0x0, 1, 0x0, 0x0, 0x0, 0x0, 0x0, 0x0, 0x0⟩,  -- HUB_SERIAL_HI
  ⟨0x10, 0x0, 1, 0x0, 1, 0x0, 0x0, 0x0, 0x0, 0x0, 0x0, 0x0⟩,  -- HUB_BOOT_STAT
  ⟨0x14, 0x0, 1, 0x0, 1, 0x0, 0x0, 0x1, 0x0, 0xFF000000, 0x0, 0x0⟩,  -- HUB_RST_CTRL
  ⟨0x40, 0x0, 1, 0x4, 8, 0xFFFFFFFF, 0x0, 0x0, 0x0, 0x0, 0x0, 0x0⟩  -- HUB_SCRATCH_f
  ]

/-- The registers of the rgn block, in the order of the spec. -/
def rgnRows : List RegRow := [
  ⟨0x0, 0x0, 1, 0x0, 1, 0x0, 0x0, 0x0, 0x0, 0x0, 0x7000, 0x8000⟩,  -- RGN_INFO
  ⟨0x4, 0x0, 1, 0x0, 1, 0x0, 0x0, 0x1, 0x0, 0x0, 0x0, 0x0⟩,  -- RGN_CTRL
  ⟨0x8, 0x0, 1, 0x0, 1, 0x0, 0x0, 0x0, 0xFFFFFFFF, 0x0, 0x0, 0x0⟩,  -- RGN_RST_CNT
  ⟨0xC, 0x0, 1, 0x0, 1, 0xFFFFFFFF, 0x0, 0x0, 0x0, 0x0, 0x0, 0x0⟩  -- RGN_SCRATCH
  ]

/-- The registers of the int block, in the order of the spec. -/
def intRows : List RegRow := [
  ⟨0x0, 0x100, 1, 0x0, 1, 0x0, 0xFFF, 0x0, 0x0, 0x0, 0x0, 0x0⟩,  -- HUB_INT_STAT_0
  ⟨0x100, 0x100, 7, 0x0, 1, 0x0, 0x3FF, 0x0, 0x0, 0x0, 0x0, 0x0⟩,  -- HUB_INT_STAT_f, without the causes of PF0 alone
  ⟨0x4, 0x100, 1, 0x0, 1, 0xFFF, 0x0, 0x0, 0x0, 0x0, 0x0, 0x0⟩,  -- HUB_INT_EN_0
  ⟨0x104, 0x100, 7, 0x0, 1, 0x3FF, 0x0, 0x0, 0x0, 0x0, 0x0, 0x0⟩,  -- HUB_INT_EN_f, without them
  ⟨0x8, 0x100, 8, 0x0, 1, 0x3F3F3F3F, 0x0, 0x0, 0x0, 0x0, 0x0, 0x0⟩,  -- HUB_INT_VEC0_f
  ⟨0xC, 0x100, 8, 0x0, 1, 0x3F3F3F3F, 0x0, 0x0, 0x0, 0x0, 0x0, 0x0⟩,  -- HUB_INT_VEC1_f
  ⟨0x10, 0x100, 1, 0x0, 1, 0x3F3F3F3F, 0x0, 0x0, 0x0, 0x0, 0x0, 0x0⟩,  -- HUB_INT_VEC2_0
  ⟨0x110, 0x100, 7, 0x0, 1, 0x3F3F, 0x0, 0x0, 0x0, 0x0, 0x0, 0x0⟩,  -- HUB_INT_VEC2_f, without them
  ⟨0x14, 0x100, 8, 0x0, 1, 0x0, 0x0, 0x0, 0xFFFF, 0x0, 0x0, 0x0⟩,  -- HUB_INT_RGN_f
  ⟨0x18, 0x100, 8, 0x0, 1, 0x0, 0x0, 0x0, 0xFFFFFFFF, 0x0, 0x0, 0x0⟩  -- HUB_INT_CNT_f
  ]

/-- Whether the offset `x` of a block is one of the registers of a row. -/
def RegRow.hits (r : RegRow) (x : Nat) : Bool :=
  if x < r.off then false
  else
    let y := x - r.off
    let i := if r.s1 = 0 then 0 else y / r.s1
    let z := if r.s1 = 0 then y else y % r.s1
    let j := if r.s2 = 0 then 0 else z / r.s2
    let k := if r.s2 = 0 then z else z % r.s2
    i < r.n1 && j < r.n2 && k == 0

/-- The row of a register of a block. -/
def findRow (x : Nat) (rows : List RegRow) : Option RegRow := rows.find? (fun r => r.hits x)

/-- A block of BAR0 that holds registers (R453, R454). -/
inductive Block where
  | id | int | own | hevt | dma | rope | tmp | flt | life | img | time | msix
  | die | evt | dtmp | site | mem
  | rgn | seq | eng | prf | mea | rdc | unit
  deriving DecidableEq, Repr

/-- The block of a BAR0 offset, the instance of it (die, target or package channel; 0 for a hub block) and the offset in
it; none for a reserved address (R452 to R454). -/
def blockOf (a : Nat) : Option (Block × Nat × Nat) :=
  let w := a / 0x1000000
  let x := a % 0x1000000
  if w = 0 then
    let o := x % 0x10000
    match x / 0x10000 with
    | 0x0 => some (.id, 0, o)
    | 0x1 => some (.int, 0, o)
    | 0x2 => some (.own, 0, o)
    | 0x3 => some (.hevt, 0, o)
    | 0x4 => some (.dma, 0, o)
    | 0x5 => some (.rope, 0, o)
    | 0x6 => some (.tmp, 0, o)
    | 0x7 => some (.flt, 0, o)
    | 0x8 => some (.life, 0, o)
    | 0x9 => some (.img, 0, o)
    | 0xA => some (.time, 0, o)
    | 0xF => some (.msix, 0, o)
    | _ => none
  else if w ≤ 4 then
    let d := w - 1
    if x < 0x200000 then
      let o := x % 0x10000
      match x / 0x10000 with
      | 0x0 => some (.die, d, o)
      | 0x1 => some (.evt, d, o)
      | 0x2 => some (.dtmp, d, o)
      | 0x3 => some (.site, d, o)
      | 0x4 => some (.mem, d, o)
      | _ => none
    else if x < 0xA00000 then
      let t := 4 * d + (x / 0x200000 - 1)
      let y := x % 0x200000
      let o := y % 0x10000
      match y / 0x10000 with
      | 0x0 => some (.rgn, t, o)
      | 0x1 => some (.seq, t, o)
      | 0x2 => some (.eng, t, o)
      | 0x3 => some (.prf, t, o)
      | 0x4 => some (.mea, t, o)
      | 0x5 => some (.rdc, t, o)
      | 0x8 => some (.unit, 16 * t + o / 0x1000, o % 0x1000)
      | _ => none
    else none
  else none

/-- The register table of a block. -/
def rowsOf : Block → List RegRow
  | .id => idRows | .int => intRows | .own => ownRows | .hevt => hevtRows | .dma => dmaRows | .rope => ropeRows
  | .tmp => tmpRows | .flt => fltRows | .life => lifeRows | .img => imgRows | .time => timeRows | .msix => []
  | .die => dieRows | .evt => evtRows | .dtmp => dtmpRows | .site => siteRows | .mem => memRows
  | .rgn => rgnRows | .seq => seqRows | .eng => engRows | .prf => prfRows | .mea => meaRows | .rdc => rdcRows
  | .unit => unitRows

/-- The causes of R467 that apply to function `f`: all twelve to PF0, the first ten to the others. -/
def causeMask (f : Nat) : Nat := if f = 0 then 0xFFF else 0x3FF

/-- The row of the register at a BAR0 offset, with the causes that do not apply to a function (R469) masked out. -/
def regRow (a : Nat) : Option RegRow :=
  match blockOf a with
  | none => none
  | some (b, _, o) =>
    match findRow o (rowsOf b) with
    | none => none
    | some r =>
      if b == .int && o / 0x100 < 8 then
        let m := causeMask (o / 0x100)
        if o % 0x100 = 0 then some { r with w1c := r.w1c &&& m }
        else if o % 0x100 = 4 then some { r with rw := r.rw &&& m }
        else if o % 0x100 = 0x10 && o / 0x100 ≠ 0 then some { r with rw := r.rw &&& 0x3F3F }
        else some r
      else some r

end Sys2Proof.Machine
end

