-- ==== Sys2Proof/Machine/FaultMap.lean ====
section
/-! DEFINITION. The fault sources (R415 of 14_faults_availability_life.md): every kind with its index, its place (a
channel die or the hub), its EXT mark, its severity floor and its default severity from its chapter's table, and the
reset values of the registers that depend on their instance. -/

namespace Sys2Proof.Machine

/-- The kinds of fault, the die kinds of R415 in their order, then the hub kinds in theirs. -/
inductive FaultKind where
  /-- `TIME_SLIP` (R48). -/
  | timeSlip
  /-- `SKEW_RANGE` (R57). -/
  | skewRange
  /-- `CLAMP_ENGAGED` (R89). -/
  | clampEngaged
  /-- `OPEN_LOAD` (R90). -/
  | openLoad
  /-- `SWITCH_MISMATCH` (R80). -/
  | switchMismatch
  /-- `GANG_DEGRADED` (R100, on the master). -/
  | gangDegraded
  /-- `GANG_MASTER_LOST` (R100, on each follower). -/
  | gangMasterLost
  /-- `FEEDBACK_FROZEN` (R140). -/
  | feedbackFrozen
  /-- `FEEDBACK_IMPLAUSIBLE` (R143). -/
  | feedbackImplausible
  /-- `SWEEP_ENTRY_BAD` (R167). -/
  | sweepEntryBad
  /-- `WF_DESC_BAD` (R173). -/
  | wfDescBad
  /-- `UNDERRUN` (R181). -/
  | underrun
  /-- `SEQ_SITE_RANGE` (R27). -/
  | seqSiteRange
  /-- `SEQ_ILLEGAL` (R210). -/
  | seqIllegal
  /-- `SEQ_STACK` (R210). -/
  | seqStack
  /-- `SEQ_RUNAWAY` (R210). -/
  | seqRunaway
  /-- `ADC_DISAGREE` (R240). -/
  | adcDisagree
  /-- `PILOT_FAIL` (R241). -/
  | pilotFail
  /-- `RDC_ILLEGAL` (R263). -/
  | rdcIllegal
  /-- `COUNT_MISMATCH` (R271). -/
  | countMismatch
  /-- `SITE_PORT_ERR` (R297). -/
  | sitePortErr
  /-- `SITE_PORT_TMO` (R295). -/
  | sitePortTmo
  /-- `EVENT_LOOP` (R329). -/
  | eventLoop
  /-- `EVENT_PARITY` (R333). -/
  | eventParity
  /-- `SPINE_CRC` (R350). -/
  | spineCrc
  /-- `SPINE_RETRAIN` (R350). -/
  | spineRetrain
  /-- `SPINE_DOWN` (R350). -/
  | spineDown
  /-- `SRAM_CORR` (R427). -/
  | sramCorr
  /-- `SRAM_UNCORR` (R427). -/
  | sramUncorr
  /-- `SCRUB_LATE` (R428). -/
  | scrubLate
  /-- `CFG_CRC` (R430). -/
  | cfgCrc
  /-- `REFIN_LOST` (R40). -/
  | refinLost
  /-- `PLL_UNLOCK` (R45). -/
  | pllUnlock
  /-- `TIME_STEP` (R60, R64). -/
  | timeStep
  /-- `ROPE_SKEW_JUMP` (R62). -/
  | ropeSkewJump
  /-- `ROPE_ALIGN_LOST` (R64, R61). -/
  | ropeAlignLost
  /-- `RELAY_WEAR` (R305). -/
  | relayWear
  /-- `SITE_RESTORE_STALE` (R289). -/
  | siteRestoreStale
  /-- `HOST_STALL` (R345). -/
  | hostStall
  /-- `ROPE_CRC` (R355). -/
  | ropeCrc
  /-- `ROPE_LINK_DOWN` (R355). -/
  | ropeLinkDown
  /-- `ROPE_PEER_SAFE` (R357). -/
  | ropePeerSafe
  /-- `CREDIT_AUDIT_R` (R359). -/
  | creditAuditR
  /-- `CREDIT_AUDIT_P` (R359). -/
  | creditAuditP
  /-- `IMG_LOAD_FAIL` (R381, R383). -/
  | imgLoadFail
  /-- `IMG_FALLBACK` (R374). -/
  | imgFallback
  /-- `IMG_NIGHTLIGHT` (R374). -/
  | imgNightlight
  /-- `THERM_WARN` (R396). -/
  | thermWarn
  /-- `THERM_RATE` (R396). -/
  | thermRate
  /-- `THROTTLE_REQ` (R397). -/
  | throttleReq
  /-- `THERM_ENFORCE` (R398). -/
  | thermEnforce
  /-- `DISS_LIMIT` (R399). -/
  | dissLimit
  /-- `SENSOR_FAIL` (R400). -/
  | sensorFail
  /-- `SENSOR_DIE_LOST` (R400). -/
  | sensorDieLost
  /-- `THERM_SHUTDOWN` (R403). -/
  | thermShutdown
  /-- `SUPPLY_WARN` (R407). -/
  | supplyWarn
  /-- `SUPPLY_OV` (R407). -/
  | supplyOv
  /-- `SUPPLY_RESET` (R408). -/
  | supplyReset
  /-- `HUB_SRAM_CORR` (R427). -/
  | hubSramCorr
  /-- `HUB_SRAM_UNCORR` (R429). -/
  | hubSramUncorr
  /-- `HUB_CFG_CRC` (R430). -/
  | hubCfgCrc
  /-- `NVM_WEAR` (R438). -/
  | nvmWear
  /-- `NVM_FAIL` (R438). -/
  | nvmFail
  /-- `AVAIL_COND` (R422). -/
  | availCond
  deriving DecidableEq, Repr

/-- The kind index k of R415. -/
def FaultKind.index : FaultKind → Nat
  | .timeSlip | .refinLost => 0
  | .skewRange | .pllUnlock => 1
  | .clampEngaged | .timeStep => 2
  | .openLoad | .ropeSkewJump => 3
  | .switchMismatch | .ropeAlignLost => 4
  | .gangDegraded | .relayWear => 5
  | .gangMasterLost | .siteRestoreStale => 6
  | .feedbackFrozen | .hostStall => 7
  | .feedbackImplausible | .ropeCrc => 8
  | .sweepEntryBad | .ropeLinkDown => 9
  | .wfDescBad | .ropePeerSafe => 10
  | .underrun | .creditAuditR => 11
  | .seqSiteRange | .creditAuditP => 12
  | .seqIllegal | .imgLoadFail => 13
  | .seqStack | .imgFallback => 14
  | .seqRunaway | .imgNightlight => 15
  | .adcDisagree | .thermWarn => 16
  | .pilotFail | .thermRate => 17
  | .rdcIllegal | .throttleReq => 18
  | .countMismatch | .thermEnforce => 19
  | .sitePortErr | .dissLimit => 20
  | .sitePortTmo | .sensorFail => 21
  | .eventLoop | .sensorDieLost => 22
  | .eventParity | .thermShutdown => 23
  | .spineCrc | .supplyWarn => 24
  | .spineRetrain | .supplyOv => 25
  | .spineDown | .supplyReset => 26
  | .sramCorr | .hubSramCorr => 27
  | .sramUncorr | .hubSramUncorr => 28
  | .scrubLate | .hubCfgCrc => 29
  | .cfgCrc | .nvmWear => 30
  | .nvmFail => 31
  | .availCond => 32

/-- Whether the kind is one of the hub (R415). -/
def FaultKind.atHub : FaultKind → Bool
  | .timeSlip | .skewRange | .clampEngaged | .openLoad | .switchMismatch | .gangDegraded
  | .gangMasterLost | .feedbackFrozen | .feedbackImplausible | .sweepEntryBad | .wfDescBad
  | .underrun | .seqSiteRange | .seqIllegal | .seqStack | .seqRunaway | .adcDisagree | .pilotFail
  | .rdcIllegal | .countMismatch | .sitePortErr | .sitePortTmo | .eventLoop | .eventParity
  | .spineCrc | .spineRetrain | .spineDown | .sramCorr | .sramUncorr | .scrubLate | .cfgCrc => false
  | .refinLost | .pllUnlock | .timeStep | .ropeSkewJump | .ropeAlignLost | .relayWear
  | .siteRestoreStale | .hostStall | .ropeCrc | .ropeLinkDown | .ropePeerSafe | .creditAuditR
  | .creditAuditP | .imgLoadFail | .imgFallback | .imgNightlight | .thermWarn | .thermRate
  | .throttleReq | .thermEnforce | .dissLimit | .sensorFail | .sensorDieLost | .thermShutdown
  | .supplyWarn | .supplyOv | .supplyReset | .hubSramCorr | .hubSramUncorr | .hubCfgCrc | .nvmWear
  | .nvmFail | .availCond => true

/-- Whether the kind is marked EXT (R415). -/
def FaultKind.ext : FaultKind → Bool
  | .timeSlip | .skewRange | .switchMismatch | .feedbackFrozen | .adcDisagree | .pilotFail
  | .countMismatch | .eventParity | .spineCrc | .spineRetrain | .spineDown | .sramCorr | .sramUncorr
  | .scrubLate | .cfgCrc | .pllUnlock | .timeStep | .creditAuditR | .creditAuditP | .sensorFail
  | .sensorDieLost | .thermShutdown | .hubSramCorr | .hubSramUncorr | .hubCfgCrc | .nvmWear
  | .nvmFail => false
  | .clampEngaged | .openLoad | .gangDegraded | .gangMasterLost | .feedbackImplausible
  | .sweepEntryBad | .wfDescBad | .underrun | .seqSiteRange | .seqIllegal | .seqStack | .seqRunaway
  | .rdcIllegal | .sitePortErr | .sitePortTmo | .eventLoop | .refinLost | .ropeSkewJump
  | .ropeAlignLost | .relayWear | .siteRestoreStale | .hostStall | .ropeCrc | .ropeLinkDown
  | .ropePeerSafe | .imgLoadFail | .imgFallback | .imgNightlight | .thermWarn | .thermRate
  | .throttleReq | .thermEnforce | .dissLimit | .supplyWarn | .supplyOv | .supplyReset | .availCond => true

/-- The severity floor of the chapter that raises the kind. -/
def FaultKind.floor : FaultKind → Nat
  | .timeSlip | .skewRange | .clampEngaged | .feedbackFrozen | .feedbackImplausible | .sweepEntryBad
  | .wfDescBad | .seqSiteRange | .seqIllegal | .seqStack | .seqRunaway | .adcDisagree | .pilotFail
  | .rdcIllegal | .countMismatch | .eventParity | .spineRetrain | .spineDown | .cfgCrc | .refinLost
  | .timeStep | .ropeAlignLost | .siteRestoreStale | .ropeLinkDown | .imgFallback | .imgNightlight
  | .throttleReq | .thermEnforce | .sensorFail | .supplyWarn | .supplyReset | .hubSramUncorr
  | .hubCfgCrc | .nvmFail => 1
  | .openLoad | .gangDegraded | .underrun | .sitePortErr | .sitePortTmo | .eventLoop | .spineCrc
  | .sramCorr | .scrubLate | .ropeSkewJump | .relayWear | .hostStall | .ropeCrc | .ropePeerSafe
  | .imgLoadFail | .thermWarn | .thermRate | .dissLimit | .supplyOv | .hubSramCorr | .nvmWear
  | .availCond => 0
  | .switchMismatch | .gangMasterLost => 2
  | .sramUncorr | .creditAuditR | .creditAuditP => 4
  | .pllUnlock | .thermShutdown => 6
  | .sensorDieLost => 5

/-- The default severity of the chapter that raises the kind. -/
def FaultKind.dflt : FaultKind → Nat
  | .timeSlip | .skewRange | .openLoad | .gangDegraded | .feedbackFrozen | .feedbackImplausible
  | .sweepEntryBad | .wfDescBad | .underrun | .seqSiteRange | .seqIllegal | .seqStack | .seqRunaway
  | .adcDisagree | .pilotFail | .rdcIllegal | .sitePortErr | .sitePortTmo | .eventLoop | .eventParity
  | .spineRetrain | .spineDown | .scrubLate | .cfgCrc | .refinLost | .timeStep | .ropeSkewJump
  | .ropeAlignLost | .relayWear | .siteRestoreStale | .hostStall | .ropeLinkDown | .ropePeerSafe
  | .imgLoadFail | .imgFallback | .imgNightlight | .thermWarn | .thermRate | .throttleReq
  | .thermEnforce | .dissLimit | .sensorFail | .supplyOv | .supplyReset | .hubSramUncorr | .hubCfgCrc
  | .nvmWear | .nvmFail | .availCond => 1
  | .clampEngaged | .switchMismatch | .gangMasterLost => 2
  | .countMismatch | .sramUncorr | .creditAuditR | .creditAuditP => 4
  | .spineCrc | .sramCorr | .ropeCrc | .hubSramCorr => 0
  | .pllUnlock | .thermShutdown | .supplyWarn => 6
  | .sensorDieLost => 5

/-- The die kinds, then the hub kinds. -/
def allKinds : List FaultKind := [
  .timeSlip, .skewRange, .clampEngaged, .openLoad, .switchMismatch, .gangDegraded,
  .gangMasterLost, .feedbackFrozen, .feedbackImplausible, .sweepEntryBad, .wfDescBad, .underrun,
  .seqSiteRange, .seqIllegal, .seqStack, .seqRunaway, .adcDisagree, .pilotFail,
  .rdcIllegal, .countMismatch, .sitePortErr, .sitePortTmo, .eventLoop, .eventParity,
  .spineCrc, .spineRetrain, .spineDown, .sramCorr, .sramUncorr, .scrubLate,
  .cfgCrc, .refinLost, .pllUnlock, .timeStep, .ropeSkewJump, .ropeAlignLost,
  .relayWear, .siteRestoreStale, .hostStall, .ropeCrc, .ropeLinkDown, .ropePeerSafe,
  .creditAuditR, .creditAuditP, .imgLoadFail, .imgFallback, .imgNightlight, .thermWarn,
  .thermRate, .throttleReq, .thermEnforce, .dissLimit, .sensorFail, .sensorDieLost,
  .thermShutdown, .supplyWarn, .supplyOv, .supplyReset, .hubSramCorr, .hubSramUncorr,
  .hubCfgCrc, .nvmWear, .nvmFail, .availCond ]

/-- The source number n = 128·L + k, with L the die's number or 4 for the hub (R415). -/
def srcNum (k : FaultKind) (d : Nat) : Nat := 128 * (if k.atHub then 4 else d) + k.index

/-- The kind of a source number; none for a reserved number (R415). -/
def kindOf (n : Nat) : Option FaultKind :=
  allKinds.find? (fun k => k.atHub == (n / 128 == 4) && k.index == n % 128 && n / 128 < 5)

/-- The default sizes of the nine die partitions, in the order of DIE_PART_BASE_k (R32). -/
def partSizes : List Nat :=
  [0x200000, 0x280000, 0x400000, 0x400000, 0x40000, 0x100000, 0x80000, 0x100000, 0xC0000]

/-- The default base of partition `k`: the partitions laid out in order (R32, DESIGN CHOICE). -/
def partBase (k : Nat) : Nat := (partSizes.take k).sum

/-- Kind of a consumer input (R319): 0 task, 1 count, 2 pulse, 3 capture; 0 for a reserved number. -/
def inputKind (i : Nat) : Nat :=
  if i < 0x400 then (if 0x10 ≤ i % 0x100 && i % 0x100 < 0x20 then 1 else 0)
  else if i < 0x408 then 2
  else if 0x410 ≤ i && i < 0x420 then 1
  else if 0x430 ≤ i && i < 0x438 then 3
  else 0

/-- Reset values that depend on the instance of a register: the identity of a die and a region (R454, R466), the fault
sources' fixed fields and defaults (R416, R417, R448), the "nothing" selections of the event fabric (R333, R336), the
default partition (R32), slots without an image (R391) and the kernel headers without an image (R276). -/
def specialReset (b : Block) (k o : Nat) : Option Nat :=
  match b with
  | .id =>
    if o = 0 then some (0x92560 + Config.dieRev.toNat)
    else if o = 8 then some (Config.serial.toNat % 2 ^ 32)
    else if o = 12 then some (Config.serial.toNat / 2 ^ 32)
    else none
  | .die => if o = 0 then some (k + 16 * Config.dieRev.toNat) else none
  | .rgn => if o = 0 then some (0x8000 + 16 * k + 4 * (k / 4) + k % 4) else none
  | .flt =>
    if 0x1000 ≤ o && o % 0x20 = 0 then
      match kindOf ((o - 0x1000) / 0x20) with
      | some f =>
        let path := f == .clampEngaged || f == .switchMismatch || f == .pllUnlock || f == .thermShutdown
        some ((if f.ext then 0x8000 else 0) + 0x1000 * f.floor + (if path then 0x100 else 0) + f.dflt)
      | none => some 0
    else none
  | .evt =>
    if 0x1000 ≤ o && o < 0x2000 && o % 8 = 0 then some 0xFFF
    else if 0x2000 ≤ o && o < 0xA000 && o % 16 = 0 then some (0x400000 * inputKind ((o - 0x2000) / 16) + 0x3FF)
    else none
  | .hevt => if 0x1000 ≤ o && o < 0x1800 && o % 8 = 0 then some 3 else none
  | .mem =>
    if 0x100 ≤ o && o < 0x148 then
      let j := (o - 0x100) / 8
      some (if o % 8 = 0 then partBase j else partSizes.getD j 0)
    else none
  | .img => if 0x100 ≤ o && o < 0x200 && o % 0x10 = 0 then some 0x20 else none
  | .rdc => if 0x44 ≤ o && o < 0xC4 && o % 8 = 4 then some 2 else none
  | _ => none

/-- The reset value of the register at a BAR0 offset (R11): 0 for a reserved address (R10), and no image running where IMG_SLOTINFO_16
is kept (R391). -/
def resetOf (a : Nat) : Word :=
  match blockOf a with
  | none => if a = IMG_SLOTINFO 16 then w32 0x20 else 0#32
  | some (b, k, o) =>
    match specialReset b k o with
    | some v => w32 v
    | none =>
      match findRow o (rowsOf b) with
      | some r => w32 r.reset
      | none => 0#32

end Sys2Proof.Machine
end

