-- ==== Sys2Proof/Machine/State.lean ====
section
/-! DEFINITION. The state of one LSC-9256 package as plain data. A datum that a register shows has that register as its
one home (field `regs`, keyed by BAR0 offset; an unlisted address holds its reset value, RegMap.lean and FaultMap.lean);
the other fields hold what the spec gives the machine and no register shows. Collections keyed by an index (a unit's
package channel, a region's target number, a die) are lists of pairs in rising order of the key that list no entry equal
to the key's default, so that equal states are equal data. -/

namespace Sys2Proof.Machine

/-! ### Unit: channel, engine, generator -/

/-- One control path of a unit (R118, R119): the forced or the limited one. Integrator and derivative state are Q24.16
numbers, errors are ADC LSB. -/
structure PathState where
  integ : Int := 0
  df : Int := 0
  ePrev : Int := 0
  /-- p + df + ff + rc of the previous sample, for the tracking of R124. -/
  terms : Int := 0
  deriving DecidableEq, Repr

/-- A latched DAC code with the force mode and the forced range it was latched under (R145). -/
structure CodeRec where
  code : Nat
  fmode : Nat
  rng : Nat
  deriving DecidableEq, Repr

/-- A coefficient write that is not yet in force (R132): the instant it reached the engine (none while HOLD_COEF stages
it), which coefficient, and the value that the engine still uses. The register holds the new value. -/
structure CoefWrite where
  at' : Option Nat
  idx : Nat
  old : Nat
  deriving DecidableEq, Repr

/-- The integrator preset that the next closing lane carries out: of the change to automatic (R137), of OUT_REQ (R77,
R160), or of a range change of the forced quantity (R121). -/
inductive Preset where
  | none | auto | start | range
  deriving DecidableEq, Repr

/-- A lost-feedback reaction (R144): none, SAFE ramping, BELAY_HOLD moving or holding. -/
inductive Lof where
  | none | safe | belay
  deriving DecidableEq, Repr

/-- A safe path on its way (R76): none, the closed-loop ramp, or the open-loop ramp of a unit whose feedback failed. -/
inductive SafePath where
  | none | ramp | openLoop
  deriving DecidableEq, Repr

/-- The control engine's own state for one unit (ch. 4). -/
structure EngUnit where
  f : PathState := {}
  l : PathState := {}
  /-- The limited path is selected (R123). -/
  limited : Bool := false
  /-- The output latched last, as a Q24.16 offset from 0x8_0000 (R124). -/
  uSel : Int := 0
  /-- Integration stopped on the previous sample (R122, R131). -/
  intStop : Bool := false
  rPrev : Int := 0
  vPrev : Int := 0
  coefWr : List CoefWrite := []
  /-- The last 256 latched codes, the newest first (R145). -/
  codes : List CodeRec := []
  /-- A change between manual and automatic waits for its boundary (R136, R137): the request's instant. -/
  autoReq : Option Nat := none
  preset : Preset := .none
  /-- A previous sample exists, so that a run of equal codes can be counted (R140). -/
  sampled : Bool := false
  frzV : Bool := false
  frzI : Bool := false
  plLive : Bool := false
  /-- In-envelope samples learned since learning started (R142). -/
  plSeen : Nat := 0
  /-- V_{n−1} of the parallel R-C model, in 2^−64 V (R141). -/
  plV : Int := 0
  /-- ENG_PL_R and ENG_PL_C as last written, which the registers return to when learning ends (R142). -/
  plWrR : Word := 0x7F800000#32
  plWrC : Word := 0#32
  /-- Loop periods latched since the one before the first out-of-envelope sample, that one included (R145). -/
  plAge : Nat := 0
  rcCnt : Nat := 0
  rcReset : Bool := false
  /-- The repetitive index advanced since the table's last update (R130). -/
  rcAdv : Bool := false
  /-- The repetitive controller neither was off nor paused at the last sample (R131), and rc_n of that sample (R119). -/
  rcRun : Bool := false
  /-- It was on and paused (R131). -/
  rcPaused : Bool := false
  rcLast : Int := 0
  lof : Lof := .none
  lofFrom : Nat := 0
  lofTarget : Nat := 0x80000
  /-- The forced path would no longer drive the limited quantity beyond its limit: the next period returns to it (R123). -/
  ret : Bool := false
  /-- The dither-corrected samples of the last period, whether the plausibility check may use them (R143), and the
  voltage sample of the period before (V_{n−1} of R141). -/
  lastV : Int := 0
  lastI : Int := 0
  lastOk : Bool := false
  lastF : Int := 0
  deriving DecidableEq, Repr

/-- The profile generator's state (R155), positions in Q4.44 of FS. -/
structure GenState where
  x : Int := 0
  w : Int := 0
  hist : List Int := [0]
  out : Int := 0
  /-- The six limits in force, as PRF_VEL_V to PRF_JRK_I hold them (R153, R161). -/
  lim : List Word := [0x461C4000#32, 0x7F800000#32, 0x7F800000#32, 0x41200000#32, 0x7F800000#32, 0x7F800000#32]
  /-- The NCO amplitude reached, in Q4.44 of FS (R163). -/
  ampPos : Int := 0
  /-- The CH_SETPT value that the generator uses, and the writes that have not reached it yet (R152): instant and value. -/
  setLat : Int := 0
  setWr : List (Nat × Int) := []
  /-- The target, before its clip, that a stopped player left to the unit (R173). -/
  keep : Option Int := none
  deriving DecidableEq, Repr

/-- The soft frequency change of R109: idle, amplitude falling, amplitude rising. -/
inductive Soft where
  | idle | down | up
  deriving DecidableEq, Repr

/-- The NCO of a unit (R105 to R109). -/
structure NcoState where
  ftw : Nat := 0
  /-- The FTW that APPLY took from the staging registers, and the earliest instant of its boundary (R106). -/
  stg : Nat := 0
  applyAt : Option Nat := none
  soft : Soft := .idle
  phase : Nat := 0
  deriving DecidableEq, Repr

/-- A CH_MODE write waiting for its boundary (R91, R96). -/
structure ModeWrite where
  at' : Nat
  val : Nat
  deriving DecidableEq, Repr

/-- The measurement stream of one quantity of a unit (R216 to R221): the three integrators and three comb delays of the
sinc3 stage, the FIR's last 64 inputs (Q18.14, the newest first), the sinc3 outputs since the stages were cleared
(counted to 67), the instants of the last samples that carry a mark, and the value that the last output instant made, with
that instant. -/
structure StreamState where
  a1 : Int := 0
  a2 : Int := 0
  a3 : Int := 0
  c1 : Int := 0
  c2 : Int := 0
  c3 : Int := 0
  fir : List Int := []
  outs : Nat := 0
  ovrAt : Option Nat := none
  suspAt : Option Nat := none
  pilotAt : Option Nat := none
  /-- The sample at which the last range change began, until a value has carried RANGE_CHG (R229). -/
  rngAt : Option Nat := none
  ready : Option (Nat × Int) := none
  /-- That value has been admitted (R218). -/
  taken : Bool := true
  /-- The flags that the samples of its support and its output instant give it (R228 to R235), and twice its group delay in ticks (R220). -/
  flags : Nat := 0
  delay : Nat := 0
  deriving DecidableEq, Repr

/-- An open measurement window of a unit (R226): the window, the commit boundary, the step's number, whether it makes RAW
records, the next value index of each quantity. -/
structure OpenWin where
  win : Nat
  bound : Nat
  step : Nat
  raw : Bool
  /-- The number of the opening of the unit's contexts, where the window passes values to a kernel. -/
  gen : Option Nat := none
  /-- The kernel that MEA_WIN_CFG named at the opening. -/
  kern : Nat := 0
  idxI : Nat := 0
  idxV : Nat := 0
  dly : Nat
  len : Nat
  /-- The instant from which nothing more is admitted, once it is known. -/
  until' : Option Nat := none
  deriving DecidableEq, Repr

/-- A procedure on an idle unit (R244, R245). -/
inductive Proc where
  | none | selfTest | recal
  deriving DecidableEq, Repr

/-- The voltage values of one nightlight second (R386): their count, minimum, maximum, sum and flags. -/
structure NlAcc where
  n : Nat := 0
  min : DWord := 0#64
  max : DWord := 0#64
  sum : DWord := 0#64
  flags : Nat := 0
  deriving DecidableEq, Repr

/-- What the measurement path of a unit holds (ch. 7). -/
structure MeasState where
  v : StreamState := {}
  i : StreamState := {}
  settleAt : Option Nat := none
  cmplAt : Option Nat := none
  holdAt : Option Nat := none
  /-- The setting in force, and the writes that wait for their boundaries, the oldest first, with their instants, as MEA_U_FILT words
  (R221); at reset that of nightlight mode (R385). -/
  filt : Nat := 0x304E1
  filtPend : List (Nat × Nat) := []
  /-- The stages were left empty by a reset: the next loop boundary counts as a filter change (R221). -/
  refilter : Bool := true
  wins : List OpenWin := []
  seqNo : Nat := 0
  /-- A record of the unit was dropped at the result buffer: the next record carries DROP_SINCE (R349). -/
  dropSince : Bool := false
  commitAt : Option Nat := none
  proc : Proc := .none
  recalWait : Bool := false
  /-- What a recalibration found that waits for a commit's boundary before it can be written (R245). -/
  recalData : Option (List (Word × Word)) := none
  /-- Samples are marked SETTLE by a refused site switch until this instant (R297). -/
  siteUntil : Nat := 0
  /-- The site in force, a die-local index (R282). -/
  site : Option Nat := none
  /-- The nightlight seconds not reported yet, by their number since timestamp 0 (R386). -/
  nl : List (Nat × NlAcc) := []
  deriving DecidableEq, Repr

/-- What a unit holds beside its registers. -/
structure UnitState where
  eng : EngUnit := {}
  gen : GenState := {}
  nco : NcoState := {}
  mea : MeasState := {}
  /-- The output switch is commanded closed; its sense is CH_STAT.OUT_CLOSED. -/
  swCmd : Bool := false
  /-- OUT_REQ was set and the switch closes at the next loop boundary (R77): the request's instant. -/
  swReq : Option Nat := none
  openedAt : Nat := 0
  safe : SafePath := .none
  safeFrom : Nat := 0
  /-- GUARD drives the SENSE voltage rather than 0 V (R74). -/
  guardSense : Bool := false
  /-- CH_MODE writes not yet in force, the oldest first. -/
  modePend : List ModeWrite := []
  /-- Loop samples of a range change still to count as settling (R92). -/
  rngLeft : Nat := 0
  /-- The period whose DAC latch repeats the previous code (R92). -/
  rngHold : Bool := false
  /-- The boundary of the last range change (R96). -/
  rngAt : Nat := 0
  /-- The boundary of a change of the forced range and the ratio FS_old / FS_new, to be applied at the boundary of period
  n + 1 (R121, R159). -/
  rngScale : Option (Nat × Nat × Nat) := none
  olCnt : Nat := 0
  olLive : Bool := false
  /-- Sums of the voltage and current samples of the present millisecond and their count, and the dissipation estimate of
  the last one in nW (R399). -/
  pwV : Int := 0
  pwI : Int := 0
  pwN : Nat := 0
  power : Nat := 0
  /-- Force-on ticks not yet in LIFE_FON, and the instant from which a closed switch adds to them (R439). -/
  fonTicks : Nat := 0
  fonFrom : Nat := 0
  /-- The delay applied to the sample clock, in 12.5 ps steps (R57). -/
  skewApplied : Int := 0
  /-- Charge not folded yet, in 2^−64 C, whether a saturated code is in it, and the last sample's charge and whether its code
  was saturated (R283, R284). -/
  accQ : Int := 0
  accOvr : Bool := false
  lastQ : Int := 0
  lastOvr : Bool := false
  deriving DecidableEq, Repr

/-! ### Cluster: converter slices and the pilot -/

/-- What a cluster holds beside its registers (R237 to R243, R495, R233). -/
structure ClusterState where
  /-- The dither LFSRs of slices 0 to 7 and of the pilot, 8. -/
  lfsr : List (BitVec 16)
  /-- A handover is in progress (MEA_PIL_STAT.PHASE says which phase). -/
  busy : Bool := false
  /-- The pilot holds the role of MEA_PIL_STAT.SLICE. -/
  inRole : Bool := false
  phaseAt : Nat := 0
  pairs : Nat := 0
  diffSum : Int := 0
  samples : Nat := 0
  /-- The trims of the slice of the present handover before it was trimmed. -/
  oldTrim : Nat := 0
  /-- The handover is a restore of a substituted slice (R242). -/
  restoring : Bool := false
  /-- Samples up to this instant lie in a SUSPECT interval (R233); none while no interval is open. -/
  suspUntil : Option Nat := none
  /-- The end of the last SUSPECT interval, open or over (R200). -/
  suspLast : Option Nat := none
  lastTick : Nat := 0
  /-- A rotation tick found a tap reading in progress: the handover starts when that reading completes (R243). -/
  tickWait : Bool := false
  /-- The slice that the next handover serves (R238, R239). -/
  next : Nat := 0
  /-- The self-trim in progress belongs to no handover (R242, R244), and the unit whose request it answers. -/
  only : Bool := false
  onlyUnit : Option Nat := none
  /-- The units of the pilot-only requests that wait, the oldest first (R244). -/
  onlyWait : List Nat := []
  /-- The unit whose self-test waits for the end of the handover (R246). -/
  testUnit : Option Nat := none
  /-- The handover in progress ends because the pilot failed (R241). -/
  failed : Bool := false
  /-- The pilot's self-trim is retried once the handover in progress has ended (R242). -/
  retrim : Bool := false
  deriving DecidableEq, Repr

/-- The seed of dither LFSR `n` (R495). -/
def ditherSeed (n : Nat) : BitVec 16 := 0x5A5A#16 ^^^ BitVec.ofNat 16 n

/-- Cluster `k` of the package (p div 4) after reset (R495). -/
def ClusterState.init (k : Nat) : ClusterState :=
  { lfsr := (List.range 8).map (fun q => ditherSeed (8 * k + q)) ++ [ditherSeed (0x200 + k)] }

/-! ### Region: the waveform player -/

/-- The waveform player of a region (R169 to R183). -/
structure PlayerState where
  /-- The descriptor of the present segment as read when it was chosen: address, LEN and LOOP, control word (R172). -/
  addr : Nat := 0
  lenW : Nat := 0
  ctrl : Nat := 0
  /-- Index of the next sample of the pass to enter, and the instant at which it enters. -/
  next : Nat := 0
  nextAt : Nat := 0
  /-- The jump request that waits: its target, whether it came after the decision point, its lineage. -/
  jump : Option (Nat × Bool × Nat) := none
  /-- The track values of the sample in force, none before the first (R169). -/
  sample : List Int := []
  /-- A stop at the next sample boundary is requested (R173). -/
  abort : Bool := false
  /-- The instant of the event that ends the wait of R175, and its lineage. -/
  trigAt : Option Nat := none
  trigLin : Nat := 0
  /-- The lineage that the triggers of the present segment take (R329). -/
  segLin : Nat := 0
  firstPass : Bool := true
  /-- The ring slot of the stream granule being played. -/
  slot : Nat := 0
  /-- Posts of the stream ring not yet consumed: instant and count, the oldest first (R179, R180). -/
  posts : List (Nat × Nat) := []
  stallFrom : Nat := 0
  /-- The instant at which the last stall ended (R202). -/
  resumedAt : Nat := 0
  /-- An underrun episode lasts (R181). -/
  episode : Bool := false
  deriving DecidableEq, Repr

/-! ### Die: the event fabric -/

/-- A firing on its way to the route stage of a die channel: the channel, the route tick, the lineage, the weight it
brings (R321, R327, R329). -/
structure Firing where
  ch : Nat
  tick : Nat
  lin : Nat
  weight : Nat := 1
  deriving DecidableEq, Repr

/-- A switch of the site-select port (R292 to R296): its region, its commit boundary, its start (none while it waits for
the port), the pattern, the site it selects, the units that it marks, whether its pattern is driven, its make instant. -/
structure PortSwitch where
  region : Nat
  commitAt : Nat
  start : Option Nat
  sa : Nat
  sd : Nat
  site : Nat
  mask : Nat
  driven : Bool := false
  made : Option Nat := none
  /-- What SA and SD of SITE_PORT_STAT showed before its start. -/
  was : Nat := 0
  deriving DecidableEq, Repr

/-- What a die holds beside its registers and memory. -/
structure DieState where
  fires : List Firing := []
  /-- Bit m: capture m holds a timestamp that nobody has read (R328). -/
  capUnread : Nat := 0
  /-- The EVIO output pulses in progress: pin, tick of the rise, tick of the fall (R332). -/
  pulses : List (Nat × Nat × Nat) := []
  /-- The counters that lie at or above their compare value, one bit each (R328). -/
  cntOver : Nat := 0
  /-- What each event counter counted in its last tick: counter, tick, weight, greatest lineage (R328). -/
  counted : List (Nat × Nat × Nat × Nat) := []
  /-- The last match of each event counter: counter, the tick after it, VALUE in its tick before AUTO_CLR subtracts, lineage (R328). -/
  cntMatch : List (Nat × Nat × Nat × Nat) := []
  /-- The tick after the last route of each channel (R317). -/
  routed : List (Nat × Nat) := []
  /-- The greatest lineage that each event counter has counted since it last matched or was cleared (R329). -/
  cntLin : List (Nat × Nat) := []
  /-- Transfers on the spine that have failed in a row (R350). -/
  spineFails : Nat := 0
  /-- Retrain attempts of the spine outage in progress (R350). -/
  spineTries : Nat := 0
  /-- The instant of the last of them. -/
  spineTryAt : Nat := 0
  /-- The tick after that in which pin k's last active edge was registered (R487). -/
  evioAt : List (Nat × Nat) := []
  /-- The difference of the die's timestamp replica from the hub's (R48). -/
  replica : DWord := 0#64
  /-- The site-select port drives SEN and SBRK (R290, R291, R293, R298), and the rise and the fall of the last pulse of SSTB;
  SITE_PORT_STAT shows the rest. -/
  sen : Bool := false
  sbrk : Bool := true
  strobe : Option (Nat × Nat) := none
  /-- Owner (3 bits) and SECURE (1 bit) of captures 0 to 7, capture 0 lowest (R326). -/
  capOwner : Nat := 0
  /-- The pattern that each region's last make put on the port, and whether the port has driven SEN low since (R292). -/
  lastPat : List (Option (Nat × Bool)) := [none, none, none, none]
  /-- Switches that wait, break or settle, in order. -/
  switches : List PortSwitch := []
  /-- The instant at which the switch that waits may start: 10 ns after the make before it (R294). -/
  portFree : Option Nat := none
  /-- Stress time counted up to this instant, and the ticks of each site that are not folded yet (R285, R286). -/
  stressTo : Nat := 0
  stress : List (Nat × Nat) := []
  /-- Bit s: the next output of walker stream s is the first after a wrap (R303). -/
  walkWrap : Nat := 0
  /-- Contexts whose STRESS or CHARGE changed since their last record (R288), ascending. -/
  changed : List Nat := []
  /-- The instant of the last snapshots (R288). -/
  snapAt : Nat := 0
  deriving DecidableEq, Repr

/-! ### Region: the step sequencer -/

/-- The program-visible state of R189 that a foothold works on: of CNT0 to CNT7 and SWP, which the host may write, only
what the foothold itself wrote; VERD is SEQ_VERD. -/
structure ProgState where
  pc : Nat := 0
  cnt : List (Nat × Nat) := []
  swp : Option Nat := none
  umask : Nat := 0
  site : Option Nat := none
  stack : List Nat := []
  e : Bool := false
  deriving DecidableEq, Repr

/-- A sweep entry (R165). -/
structure SweepEntry where
  setpt : Nat
  cmpl : Nat
  mode : Nat
  win : Nat
  dwell : Nat
  site : Nat
  flags : Nat
  deriving DecidableEq, Repr

/-- What a SITE, a SITEW or a sweep entry stages for the commit (R194, R292, R299): the site, whether its pattern is
staged, and which. -/
structure SiteStage where
  site : Nat
  sel : Bool
  sa : Nat := 0
  sd : Nat := 0
  deriving DecidableEq, Repr

/-- Why a foothold is the last one (R210, R27): 0 none, 1 SEQ_ILLEGAL, 2 SEQ_STACK, 3 SEQ_RUNAWAY, 4 SWEEP_ENTRY_BAD,
5 SEQ_SITE_RANGE, 6 a word that a fetch found uncorrectable (R427). -/
abbrev SeqErr := Nat

/-- A range look-ahead tap reading (R199): unit, magnitude of the current in 2^−32 A, instant of completion. -/
structure TapReading where
  unit : Nat
  mag : Nat
  at' : Nat
  deriving DecidableEq, Repr

/-- A foothold (R196 to R199). -/
structure Foothold where
  prog : ProgState
  /-- Instructions executed in the step (R210). -/
  count : Nat := 0
  /-- SET values in order: parameter, units, value (R195). -/
  sets : List (Nat × Nat × Nat) := []
  /-- FORCE actions in order: action, units. -/
  forces : List (Nat × Nat) := []
  /-- MEAS windows in order: window, RAW, units. -/
  meas : List (Nat × Bool × Nat) := []
  /-- Range look-ahead: units, MIN, MAX, in order. -/
  rnga : List (Nat × Nat × Nat) := []
  taps : List TapReading := []
  site : Option SiteStage := none
  /-- STRIG inputs of the WAITT gates, one bit each, and the WAITTM gate in LCLK ticks. -/
  waitt : Nat := 0
  waittm : Option Nat := none
  fires : List Nat := []
  entry : Option SweepEntry := none
  /-- The step's dwell in LCLK ticks. -/
  dwell : Nat := 0
  halt : Bool := false
  /-- The position of each walker stream that this or an older foothold drew from, in the layout of SITE_WS_POS, bit 24
  set where its next output is the first after a wrap (R299, R303). -/
  walk : List (Nat × Nat) := []
  /-- The streams whose first output after a wrap this foothold drew. -/
  wraps : List Nat := []
  err : SeqErr := 0
  ready : Bool := false
  /-- The instant at which it became ready, or met its error. -/
  readyAt : Nat := 0
  /-- 0: building; 1: waiting for the verdict or the outcome; 2: at a BARRIER, with its QP and HOST bits. -/
  wait : Nat := 0
  qp : Bool := false
  host : Bool := false
  /-- What it fetched and read itself of its read set (R198): memory as BAR2 offset and length, registers by address. -/
  mem : List (Nat × Nat) := []
  regs : List Nat := []
  /-- What the footholds older than it had fetched and read when it began (R198). -/
  oldMem : List (Nat × Nat) := []
  oldRegs : List Nat := []
  deriving DecidableEq, Repr

/-- The confirmed step while it is open (R201). -/
structure ConfStep where
  at' : Nat
  /-- Sequence time at the commit (R181), and the dwell in FCLK ticks; 0 acts as one loop period. -/
  seqAt : Nat
  dwell : Nat
  umask : Nat
  num : Nat
  halt : Bool := false
  cmpl : Bool := false
  /-- An abort or a fault closes the step: the outcome (2 ABORT, 3 FAULT) and the instant that asked for it. -/
  closing : Option (Nat × Nat) := none
  deriving DecidableEq, Repr

/-- A cause of R205 that a commit already decided outlasts (R206): it applies to the step that commits. -/
inductive SeqCause where
  /-- A COMPLIANCE event of a unit. -/
  | cmpl (p : Nat)
  /-- An abort, with its lineage. -/
  | abort (lin : Nat)
  /-- A host write to the read set. -/
  | host
  /-- A reconfiguration request. -/
  | reconf
  /-- A fault whose reaction covers the region-local units of a mask. -/
  | fault (mask : Nat)
  /-- A site outside the region's block. -/
  | site
  deriving DecidableEq, Repr

/-- What the sequencer of a region holds beside its registers. -/
structure SeqState where
  stack : List Nat := []
  e : Bool := false
  foot : List Foothold := []
  conf : Option ConfStep := none
  /-- Sequence time at which the last step closed, and the instant of that close. -/
  closeSeq : Nat := 0
  closedAt : Nat := 0
  stopReq : Bool := false
  /-- A reaction of severity 5 or 6 stops the sequencer at the close of the confirmed step (R227, R418). -/
  forceStop : Bool := false
  /-- Building waits for the close of the confirmed step (R205). -/
  hold : Bool := false
  /-- A site outside the block met by a foothold: the FAULT vector applies at the close (R205). -/
  siteFault : Bool := false
  /-- The verdict of the last closed step is not known yet; that step's number, and the OR of the verdicts of its close jobs
  so far (R268). -/
  verdWait : Bool := false
  verdStep : Nat := 0
  verdAcc : Nat := 0
  /-- The OR of the verdicts of the confirmed step's close jobs that have completed while it is open. -/
  verdOpen : Nat := 0
  /-- Where building begins while no step has committed since a start or a vector (R204, R207); SEQ_PC otherwise. -/
  buildAt : Option Nat := none
  /-- The lineage of the abort event that asked for the close (R329). -/
  abortLin : Option Nat := none
  /-- The instant at which each STRIG slot was last set (R208). -/
  gateAt : List (Nat × Nat) := []
  /-- Causes that arrived after the decision point of the commit at hand, with their instants, the oldest first (R206). -/
  late : List (SeqCause × Nat) := []
  /-- The footholds of the last squash and its instant: a host write of the same ECLK cycle meets their read sets (R211). -/
  gone : List Foothold := []
  goneAt : Nat := 0
  /-- The HOST barrier at which the flow has arrived and SEQ_HOST_WAIT has been emitted, until it is passed (R212). -/
  told : Option Nat := none
  /-- The instant at which the flow last came to a quiescent point, by a barrier or by stopping (R207, R377). -/
  qpAt : Nat := 0
  /-- Starts so far: it tells the steps of one run from those of another with the same number (R268). -/
  epoch : Nat := 0
  deriving DecidableEq, Repr

/-! ### Region: the reducer -/

/-- A job of the reducer's queue (R252): a value job, or the close job of a window instance. -/
inductive Job where
  | value (key unit qty : Nat) (x : DWord) (ts flags idx : Nat) (counted : Bool)
  | close (win step at' : Nat) (early : Bool) (keys : List Nat)
  deriving DecidableEq, Repr

/-- The kernel that an opening named, as it stood then: its number, the bank's offset, ENTRY, CLOSE and the header (R256, R273). -/
structure KernRef where
  num : Nat := 0
  base : Nat := 0
  entry : Nat := 0
  close : Nat := 0
  hdr : Word := 0#32
  deriving DecidableEq, Repr

/-- A context (R257). -/
structure KCtx where
  unit : Nat := 0
  qty : Nat := 0
  a : List DWord := []
  hb : List Nat := []
  v : Nat := 0
  site : Option Nat := none
  step : Nat := 0
  jobs : Nat := 0
  /-- Value sections run, zero-filled ones included. -/
  runs : Nat := 0
  tfirst : Nat := 0
  k : List DWord := []
  /-- OR of the record flags of every job (R260). -/
  flags : Nat := 0
  /-- The open window that holds the context; none once its close job has been queued. -/
  win : Option Nat := none
  poisoned : Bool := false
  lost : Bool := false
  kern : KernRef := {}
  /-- The window that held the context ended early (R227, R260). -/
  early : Bool := false
  deriving DecidableEq, Repr

/-- A section in execution (R254, R256, R259): the job, the context's kernel, unit and quantity, the address of the next
instruction, the scratch registers, the flag word, the value and its timestamp; the contexts a close job has left. -/
structure KRun where
  close : Bool
  key : Nat
  kern : KernRef
  unit : Nat
  qty : Nat
  pc : Nat
  y : List DWord
  f : Nat
  x : DWord
  ts : Nat
  counted : Bool
  left : List Nat := []
  early : Bool := false
  step : Nat := 0
  deriving DecidableEq, Repr

/-- A result record: its unit and its 32 bytes. -/
structure Rec where
  unit : Nat
  bytes : List (BitVec 8)
  /-- The output instant of a measurement value, for LATE (R235). -/
  at' : Option Nat := none
  /-- The BAR2 offset of its slot in the result buffer, where the region has a block there. -/
  slot : Option Nat := none
  /-- A record of nightlight mode: it goes to ring 0 (R342) and is no item (R270). -/
  nl : Bool := false
  deriving DecidableEq, Repr

/-- What the reducer of a region holds beside its registers. -/
structure RedState where
  queue : List Job := []
  /-- Close jobs of windows whose reserved slot an earlier close job holds (R253). -/
  closeWait : List Job := []
  /-- Keyed by 512·(number of the opening) + 32·kernel + 2·unit + quantity. -/
  ctxs : List (Nat × KCtx) := []
  /-- Openings of contexts so far. -/
  gen : Nat := 0
  run : Option KRun := none
  /-- ECLK cycles of execution in the present millisecond (R254). -/
  cycles : Nat := 0
  /-- The result buffer of the region (R269, ch. 11), the oldest record first, and the slot that the next record takes. -/
  buf : List Rec := []
  bufNext : Nat := 0
  /-- A kernel record that waits for room in the result buffer. -/
  waiting : List Rec := []
  deriving DecidableEq, Repr

/-! ### Region -/

/-- One supervisory slot's own state (R125, R126). -/
structure SupState where
  integ : Int := 0
  df : Int := 0
  ePrev : Int := 0
  /-- The output computed last and not yet in effect. -/
  next : Int := 0
  wr : List CoefWrite := []
  deriving DecidableEq, Repr

/-- What a region holds beside its registers. -/
structure RegionState where
  player : PlayerState := {}
  seq : SeqState := {}
  red : RedState := {}
  sup : List SupState := List.replicate 8 {}
  /-- The instant at which enforcement began or ended, until a rate instant has followed it by four ECLK cycles (R135, R398). -/
  enfAt : Option Nat := none
  /-- The instant of the last loop sample (R39). -/
  lastSample : Option Nat := none
  /-- The RATE writes that wait for their instant, the oldest first: the write's instant and the code before it (R135). -/
  ratePend : List (Nat × Nat) := []
  /-- The changes of the loop period, the newest first: the instant and the period before it (R135, R220). -/
  rates : List (Nat × Nat) := []
  /-- The learning round robin's next unit (R130). -/
  robin : Nat := 0
  /-- The phase of the restart in progress, 0 for none (R434), its cause, and when phase 4 completed. -/
  restart : Nat := 0
  restartEcc : Bool := false
  restartDone : Nat := 0
  /-- The skew calibration of a restart's phase 4 has not ended (R434). -/
  skewWait : Bool := false
  /-- The image that the region runs, none in nightlight mode, its active bank (R32), and the image that a swap replaced until
  DONE (R381, R383). -/
  img : Option ImgContent := none
  bank : Nat := 0
  prev : Option (Option ImgContent) := none
  /-- The 64 user taps of the region's image, 24-bit words; none where it carries none (R217, R219). -/
  userTaps : List Nat := []
  /-- Class 1 quota credits in use (R349). -/
  quotaUse : Nat := 0
  /-- The gain and the bandwidth word of the booster's external stage, from the image (R102). -/
  stage : Word × Word := (0, 0)
  /-- The region's governor factor K_t, UQ1.15 (R399). -/
  govK : Nat := 0x8000
  /-- The region's dissipation estimate of the last 10 ms, in nW, the newest first (R399). -/
  power : List Nat := []
  deriving DecidableEq, Repr

/-! ### Hub -/

/-- Time and alignment (ch. 2). -/
structure ClockState where
  /-- Seconds spent in holdover (R44). -/
  holdSecs : Nat := 0
  /-- The learned keep-alive model and the seconds it has learned (R43), kept in the NVM settings area. -/
  kaFit : Nat := 0
  kaSecs : Nat := 0
  /-- The calendar: the present TAI second and the tick at which it began (R49), before the reset where the calendar resumed
  within a second (R52). -/
  calSec : Nat := 0
  calStart : Int := 0
  /-- An armed calendar set: the second and the apply timestamp (R51). -/
  armed : Option (Nat × Nat) := none
  /-- The leap table in force: TAI second and offset of each entry (R53). -/
  leap : List (Nat × Int) := []
  leapValid : Nat := 0
  /-- The skew calibration in progress: SYNC pulses averaged so far, and the sums of the comparisons of each unit and
  of each hop (R56); none while no sequence runs. -/
  skewN : Option Nat := none
  skewSum : List Int := []
  hopSum : List Int := []
  /-- The delay trims of the on-package hops (ch. 2, *The rope above the cluster*). -/
  hopTrim : List Int := []
  /-- When the last skew calibration started: it repeats every 10 ms (R56). -/
  lastSkew : Nat := 0
  hopsDone : Bool := false
  /-- The calibration of the DOWN hop: the marker's send timestamp, while it is under way (R60). -/
  marker : Option Nat := none
  /-- The fine phase of that send, in ROOT/64 units (R60 step 1). -/
  markerPhase : Nat := 0
  /-- The timestamp of the last hop calibration that this package started. -/
  lastHop : Option Nat := none
  /-- The member has aligned since its reset (R60). -/
  joined : Bool := false
  /-- The member's first alignment is under way: R60 from step 2 on. -/
  aligning : Bool := false
  /-- The hub phase interpolator, in ROOT/64 units, and the correction still to be slewed into it (R60, R62). -/
  interp : Int := 0
  slew : Int := 0
  /-- Start of the SYNC_OUT pulse driven last (R66). -/
  syncOutAt : Option Nat := none
  /-- The anchor of this member's chain has reported that it runs on its keep-alive oscillator (R65, R70). -/
  anchorHold : Bool := false
  /-- The LCLK edge of the last SYNC pulse (R55). -/
  lastSync : Option Nat := none
  deriving DecidableEq, Repr

/-- A reaction shadow (R423): its domain's level (0 unit to 4 package) and instance, its severity, its source, when it
began, and the position of its stop in the stop log. -/
structure Shadow where
  level : Nat
  inst : Nat
  sev : Nat
  src : Nat
  start : Nat
  stop : Option Nat := none
  deriving DecidableEq, Repr

/-- One record of the stop log (R439, R443). -/
structure StopRec where
  src : Nat
  inst : Nat
  start : Nat
  dur : Option Nat := none
  counted : Bool
  deriving DecidableEq, Repr

/-- An armed inversion of check bits (R431): the checker, the die, the target, the mode. -/
structure Inject where
  checker : Nat
  die : Nat
  target : Nat
  mode : Nat
  deriving DecidableEq, Repr

/-- A transfer of a package channel that is due at the hub (R322), or of a system channel at a ROPE port (256 plus its
number, its issue instant, and the hops it will have travelled). -/
structure PkgXfer where
  ch : Nat
  tick : Nat
  lin : Nat
  weight : Nat
  hops : Nat := 1
  /-- The package that the transfer of a system channel comes from (R353). -/
  src : Nat := 0
  /-- The transfer fails its parity where it arrives (R333). -/
  bad : Bool := false
  deriving DecidableEq, Repr

/-- A hop of the class 2 traffic (R322): the tick at which the channel's credit there returns, and the transfer that
waits for it. -/
structure HopState where
  free : Nat := 0
  wait : Option PkgXfer := none
  deriving DecidableEq, Repr

/-- A system channel's transfer that waits for its delivery: channel, issue instant, due tick, lineage, weight. -/
structure SysXfer where
  ch : Nat
  issue : Nat
  due : Nat
  lin : Nat
  weight : Nat
  deriving DecidableEq, Repr

/-- A slot sent on a ROPE port (R353). -/
inductive RopeSlot where
  | marker (step1 : Bool) (ts tow pkg : Nat)
  | markerBack (ts ta : Nat)
  | event (ch issue hops src weight lin : Nat)
  | calendar (valid : Bool) (sec start : Nat)
  | fault (pkg src sev : Nat) (live : Bool) (ts : Nat)
  | mgmt (src dest num len : Nat) (data : DWord)
  | audit (pool occ owed ts : Nat)
  | beacon (ts : Nat)
  /-- Not a slot but a frame header with NAK = 1 and its ACKSEQ (R352, R355). -/
  | nak (ackseq : Nat)
  /-- Not a slot but a frame header that returns one credit of a class (R352, R356). -/
  | credit (cls : Nat)
  deriving DecidableEq, Repr

/-- What the hub holds of a ROPE port (R352 to R356): the credits of classes 0 and 3 that it may spend, the slots of these
classes that wait for one, frames failed in a row, the last frame received intact, and whether a replay is awaited. -/
structure RopePort where
  cred0 : Nat := 2
  cred3 : Nat := 16
  wait0 : List RopeSlot := []
  wait3 : List RopeSlot := []
  fails : Nat := 0
  rxSeq : Nat := 0
  replay : Bool := false
  /-- How often in a row each class has been passed over (R348). -/
  passed : List Nat := [0, 0, 0, 0]
  /-- The slots of class 0 that are in flight, the oldest first (R347, R356). -/
  sent0 : List RopeSlot := []
  /-- A frame has been received intact since the link came up (ACKV, R352). -/
  heard : Bool := false
  /-- Of the port's slots, those that frames have carried; the number of the next frame; frames sent (R352, R353). -/
  framed : Nat := 0
  fseq : Nat := 0
  frames : Nat := 0
  /-- The replay buffer: the last 16 frames, the newest first (R355). -/
  kept : List (List (BitVec 8)) := []
  /-- The inversion of ropeInj has been sent (R431). -/
  inverted : Bool := false
  deriving DecidableEq, Repr

/-- A message of the management mailbox (R357), and the port that gets its class 3 credit back, none where that link has gone down
since (R356). -/
structure MbxMsg where
  port : Option Nat := none
  src : Nat
  num : Nat
  len : Nat
  data : DWord
  deriving DecidableEq, Repr

/-- What the hub holds of a result ring beside its registers (R343, R344): records since the last writeback, the instant of
the first of them, the ring's drop count, the instant of the last MSI-X message, and whether one is held back. -/
structure RingState where
  since : Nat := 0
  firstAt : Nat := 0
  drops : Nat := 0
  lastInt : Option Nat := none
  held : Bool := false
  /-- The records dropped for want of a free slot at the instant `lateAt`, the oldest first: unit (none for the package's own), whether
  the unit was marked before, whether a notice counts the record, bytes (R360). -/
  lateAt : Nat := 0
  late : List (Option Nat × Bool × Bool × List (BitVec 8)) := []
  deriving DecidableEq, Repr

/-- Fates of a unit's records not yet reported to its die (R346): delivered, dropped, and the instant of the first. -/
structure FateState where
  deliv : Nat := 0
  drop : Nat := 0
  firstAt : Nat := 0
  deriving DecidableEq, Repr

/-- What the hub holds of a region's temperature and throttling (R395 to R398, R401). -/
structure ThermRegion where
  /-- Thermal values of the last 110 ms in 1/16 °C, the newest first. -/
  hist : List Int := []
  /-- Tthrottle, the rate throttle and the rate warning are set. -/
  throttle : Bool := false
  rateThr : Bool := false
  rateWarn : Bool := false
  /-- The instant at which the grace timer expires. -/
  grace : Option Nat := none
  /-- The instant and the thermal value of the last enforcement step added or removed. -/
  stepAt : Nat := 0
  stepVal : Int := 0
  /-- Since when the thermal value has stayed below 100 °C. -/
  coolFrom : Option Nat := none
  deriving DecidableEq, Repr

/-- What the hub holds of a temperature sensor (R400): its own reading, and its runs of readings out of range and of
readings that differ from its neighbours. -/
structure SensorState where
  raw : Int := 0
  /-- The instant of the last reading. -/
  at' : Nat := 0
  out : Nat := 0
  diff : Nat := 0
  deriving DecidableEq, Repr

/-- What the life records hold beside their registers (R439, R441): the sum of the package thermal value over operating
seconds, and the preceding trough and the running peak of a thermal cycle, in 1/16 °C. -/
structure LifeState where
  tjSum : Int := 0
  cycle : Option (Int × Int) := none
  deriving DecidableEq, Repr

/-- A scrubber (R428): the instant at which its pass counts as started, in 2^−21 ticks, the interval of the pass in ticks, the
next word where no register shows it (the hub). -/
structure ScrubState where
  start : Int := 0
  intv : Nat := 48000000000
  pos : Nat := 0
  deriving DecidableEq, Repr

/-- An operation of the image loader in progress (R373, R375 to R382): OP, target, slot, SRC, the AT instant, what it has read
and checked. -/
structure ImgOp where
  op : Nat
  target : Nat
  slot : Nat
  src : Nat
  at' : Option Nat := none
  content : ImgContent := {}
  seq : Nat := 0
  /-- The request instant of phase 4, none while it waits for a restart to end (R388). -/
  reqAt : Option Nat := none
  /-- IMG_KEY_STAT as order 4 of its verification reads it (R388). DEDUCED: order 4 comes first thing in the verification. -/
  keys : Word := 0
  /-- Since when the swap has waited for idle units (R378). -/
  idleFrom : Nat := 0
  /-- The sequencer ran at the quiescent point (R380). -/
  run : Bool := false
  deriving DecidableEq, Repr

/-- An access of a function to a die that waits for the end of a spine outage (R30, R350, R458): a register write or read, a write
through BAR2. -/
inductive SpineAcc where
  | write (f a : Nat) (v : Word)
  /-- `lost` once a hot reset of the link has discarded the completion (R472). -/
  | read (f a : Nat) (lost : Bool := false)
  | bar2 (f a : Nat) (bs : List (BitVec 8))
  /-- A read of `n` bytes of memory. -/
  | mem (f a n : Nat) (lost : Bool := false)
  deriving DecidableEq, Repr

/-- The function that made it. -/
def SpineAcc.fn : SpineAcc → Nat
  | .write f _ _ => f
  | .read f _ _ => f
  | .bar2 f _ _ => f
  | .mem f _ _ _ => f

/-- The access, its completion discarded. -/
def SpineAcc.lose : SpineAcc → SpineAcc
  | .read f a _ => .read f a true
  | .mem f a n _ => .mem f a n true
  | x => x

/-- The last occurrence of a fault source, for what its registers do not show: its instant, its CONSEQ and INJ bits, and the
severity with which the source latched (R421, R422, R444). -/
structure Occ where
  at' : Nat := 0
  conseq : Bool := false
  inj : Bool := false
  sev : Nat := 0
  deriving DecidableEq, Repr

/-- A posted write to host memory or an MSI-X message of a function's vector. -/
inductive Posted where
  | write (addr : Nat) (data : List (BitVec 8))
  | msix (f vec : Nat)
  deriving DecidableEq, Repr

/-- What the hub holds beside its registers. -/
structure HubState where
  clk : ClockState := {}
  shadows : List Shadow := []
  stops : List StopRec := []
  inject : Option Inject := none
  /-- By source number. -/
  occ : List (Nat × Occ) := []
  /-- The source whose occurrence the injection is about to make: its next report carries INJ (R431). -/
  injected : Bool := false
  pkg : List PkgXfer := []
  /-- Keyed by 64·channel + hop: 0 to 3 from die to hub, 4 to 7 from hub to die, 8 UP, 9 DOWN. -/
  hops : List (Nat × HopState) := []
  sys : List SysXfer := []
  /-- The tick after the last route of each package channel, and the last delivery of each system channel (256 plus its number) (R317). -/
  routed : List (Nat × Nat) := []
  /-- Relay closures by relay, the class of each relay, and the relays whose warning was given (1 each) (R304, R305). -/
  relayCnt : List (Nat × Nat) := []
  relayClass : List (Nat × Nat) := []
  relayWarned : List (Nat × Nat) := []
  /-- The last breach of each availability condition: bit and instant (R442). -/
  breaches : List (Nat × Nat) := []
  /-- Bit f: physical function f is in D3hot (R468). -/
  d3 : Nat := 0
  /-- Accesses that wait for the end of a spine outage, each with its die, the oldest first (R458). -/
  spineWait : List (Nat × SpineAcc) := []
  /-- Records on the spine and in the hub: region and record, the oldest first (R347). -/
  spine : List (Nat × Rec) := []
  rings : List (Nat × RingState) := []
  /-- Keyed by package channel. -/
  fates : List (Nat × FateState) := []
  /-- Completion notices on their way to a die: unit, delivered, dropped (R346). -/
  notices : List (Nat × Nat × Nat) := []
  /-- Posted writes that wait for the end of a stall of the host link, the oldest first (R345). -/
  postWait : List Posted := []
  /-- Units whose next record written to any ring carries DROP_SINCE (R344), 1 each. -/
  dropMarks : List (Nat × Nat) := []
  /-- The ROPE ports, 0 UP and 1 DOWN. -/
  rope : List (Nat × RopePort) := []
  /-- Bit p: the frame whose CRC was inverted on port p has been sent and not yet been refused (R431). -/
  ropeInj : Nat := 0
  /-- The receive queue of the mailbox, the oldest first, entries beyond 16 waiting on their port; the number that the next
  message sent takes (R357). -/
  mbx : List MbxMsg := []
  mbxNum : Nat := 0
  /-- What each pool's counts were at the last audit: total, held, in flight, returned; and the pools whose mismatch is not
  cleared, each with the tick after the last mismatch (R9, R359). -/
  audit : List (Nat × Nat × Nat × Nat × Nat) := []
  auditMism : List (Nat × Nat) := []
  imgOp : Option ImgOp := none
  /-- Targets of the APPLYs that a restart has cut short, their IMG_LOAD_FAIL still to be raised (R383). -/
  cuts : List Nat := []
  /-- A word of the bank that an APPLY fills has been found uncorrectable (R444). -/
  bankBad : Bool := false
  /-- The JTAG instruction in force: 0 BYPASS, 1 SAMPLE/PRELOAD, 2 EXTEST, 3 CLAMP, 4 HIGHZ (R489). -/
  jtag : Nat := 0
  /-- The values that SAMPLE/PRELOAD put into the boundary register, in the order of its cells. -/
  boundary : List Bool := []
  /-- The sequence number of the next record of the package itself (R409). -/
  pkgSeq : Nat := 0
  thermRgn : List (Nat × ThermRegion) := []
  sensors : List (Nat × SensorState) := []
  /-- Instants of the thermal shutdowns of the last 3,600 s, the newest first (R405). -/
  shuts : List Nat := []
  /-- The clusters whose self-trim a restart of the analog domains still waits for; none while no such restart is under way (R405). -/
  restartTrims : Option (List Nat) := none
  /-- The rail that still holds the package in reset (R408). -/
  held : Option Nat := none
  /-- A software package reset waits for the outputs to have ramped (R465). -/
  rstWait : Bool := false
  /-- The package's dissipation estimate of the last 10 ms, in nW, the newest first (R399). -/
  power : List Nat := []
  /-- Who was over budget at the last update of the governor: bit t for region t under step 3, bit 16 for the package. -/
  govOver : Nat := 0
  life : LifeState := {}
  /-- Instants of the journal records of the last 3,600 s, the newest first (R438). -/
  jTimes : List Nat := []
  /-- Scrubbers of dies 0 to 3, and of the hub at 4. -/
  scrub : List (Nat × ScrubState) := []
  /-- Registers of the configuration that hardware faults have changed: offset, the value applied, the value they have put there (R430). -/
  cfgFlips : List (Nat × Word × Word) := []
  /-- Configuration blocks that wait for their reload: die (4 for the hub) and block (R430). -/
  cfgBad : List (Nat × Nat) := []
  /-- The rail of the supply reset that boot has yet to report (R408). -/
  supplyRst : Option Nat := none
  /-- A power-up POR whose stop boot has yet to record (R443). -/
  porStop : Bool := false
  /-- Boot has yet to restore the site contexts from the NVM (R289), and to report a load that a reset cut short (R383). -/
  restore : Bool := false
  /-- A flush waits for the outputs to have ramped (R289, R407). -/
  flushDue : Bool := false
  loadCut : Option Nat := none
  deriving DecidableEq, Repr

/-! ### The NVM -/

/-- A journal record on its way to the NVM (R437, R438), by content: the calendar, the life registers, the relay counts
with their classes and warnings, a calibration bank, the trims of a cluster, a site's snapshot or full record. -/
inductive JRec where
  | cal (sec ticks : Nat)
  | life (data : List (Nat × Word)) (acc : LifeState) (stops : List StopRec)
  | relays (counts classes warned : List (Nat × Nat))
  | bank (p : Nat) (data : List Word)
  | trims (cluster : Nat) (data : List Nat)
  | site (die idx : Nat) (full : Bool) (data : List (BitVec 8))
  /-- The begin or the end marker of a flush (R289). -/
  | mark (done : Bool)
  /-- The settings area (R436): a register's bits, a key, the keep-alive fit and the seconds it has learned. -/
  | setting (a : Nat) (v : Word)
  | key (slot : Nat) (data : List (BitVec 8))
  | kaFit (fit secs : Nat)
  deriving DecidableEq, Repr

/-- A journal record as it lies in its area (R437): the contents it holds and which piece of one that needs several records, its
sector and place in it, the payload's bytes, its generation and CRC-32, and its commit word, all ones until it is programmed. -/
structure NvmRec where
  contents : List Nat
  piece : Nat
  sector : Nat
  pos : Nat
  len : Nat
  gen : Nat
  crc : Word
  commit : Nat
  deriving DecidableEq, Repr

/-- The circular log of one area (R437, R438): its records, the oldest first, the sector and the place in it that the next record takes,
the generation of the last one, the sector whose erase is under way, and the erase counts, by sector (of the image area by slot). -/
structure NvmArea where
  recs : List NvmRec := []
  sector : Nat := 0
  pos : Nat := 0
  gen : Nat := 0
  erasing : Option Nat := none
  wear : List (Nat × Nat) := []
  deriving DecidableEq, Repr

/-- What the NVM die holds, which every reset keeps (R24, R433), and the journal records that wait. -/
structure NvmState where
  /-- Newest committed calendar record: second and ticks in it (R52). -/
  cal : Nat × Nat := (0, 0)
  life : List (Nat × Word) × LifeState × List StopRec := ([], {}, [])
  /-- Relay counts, classes and warnings given (R304, R305). -/
  relays : List (Nat × Nat) × List (Nat × Nat) × List (Nat × Nat) := ([], [], [])
  banks : List (Nat × List Word) := []
  trims : List (Nat × List Nat) := []
  /-- Images in slots, by 2·target + slot; keys in their slots (R372, R373). -/
  slots : List (Nat × List (BitVec 8)) := []
  keys : List (Nat × List (BitVec 8)) := []
  /-- Registers of the settings area, by BAR0 offset, and the keep-alive fit with its seconds (R43, R436). -/
  settings : List (Nat × Word) := []
  kaFit : Nat × Nat := (0, 0)
  /-- Site records: key 0x8000·die + 2·index, plus 1 for a full record (R288). -/
  sites : List (Nat × List (BitVec 8)) := []
  queue : List JRec := []
  /-- Bytes of the first record that waits which earlier records of the same content have taken (R437). -/
  part : Nat := 0
  /-- The last flush has no end marker (R289). -/
  flushOpen : Bool := false
  /-- The areas, numbered in the order of R436, and the spare sectors left (R436 to R438). -/
  log : List (Nat × NvmArea) := []
  spare : Nat := 256
  deriving DecidableEq, Repr

/-! ### What leaves the package -/

/-- What the package has sent to the outside, the newest first, and the answers it gave. -/
structure Outputs where
  posted : List Posted := []
  /-- Completions of host reads: function and data. -/
  reads : List (Nat × Word) := []
  /-- Completions of host reads of memory: function and bytes. -/
  bar2 : List (Nat × List (BitVec 8)) := []
  /-- Slots sent on ROPE: port (0 UP, 1 DOWN) and slot. -/
  rope : List (Nat × RopeSlot) := []
  /-- Frames sent on ROPE (R352): port and the 128 bytes. -/
  frames : List (Nat × List (BitVec 8)) := []
  /-- The last SMBus answer, byte count first, PEC last. -/
  smb : List (BitVec 8) := []
  deriving DecidableEq, Repr

/-! ### The package -/

/-- Why a step stops. The spec gives every command of the table an effect or says that it has none, so no meaning of this
model faults. -/
inductive Fault where
  /-- Raised by no meaning: kept so that the three outcomes of the host's interface have a type. Safe. -/
  | stuck
  deriving DecidableEq, Repr

/-- Why a command is not carried out. -/
inductive Refusal where
  /-- Raised by `exec` on a command that has no meaning yet, with its mnemonic. Safe: nothing can be proved of it. -/
  | notModelled (mnemonic : String)
  deriving DecidableEq, Repr

/-- One LSC-9256 package. -/
structure State where
  /-- The timestamp (R46), and so the instant of the present command. -/
  now : Nat := 0
  /-- Registers that differ from their reset value, by BAR0 offset. -/
  regs : List (Nat × Word) := []
  /-- Shadows of LO-first reads (R459) and MSI-X tables (R470), keyed by 2^28 times the function plus the offset. -/
  perFn : List (Nat × Word) := []
  /-- The registers as they stood at the start of the present PCLK cycle, and the registers that the host wrote in it: what R9
  needs of the past where hardware and software meet in one cycle. -/
  cycRegs : List (Nat × Word) := []
  cycWrote : List (Nat × Word) := []
  /-- The bits that hardware has set in the present PCLK cycle, by register, and the spans of memory (BAR2 offset, bytes) that
  the host has written in it (R9, R281, R306). -/
  cycSet : List (Nat × Word) := []
  cycMem : List (Nat × Nat) := []
  /-- The registers as they stood at the ends of earlier ticks, the newest first: what the levels of the event fabric need of the past
  (R321, R324). -/
  past : List (Nat × List (Nat × Word)) := []
  /-- Memory, by BAR2 offset (R455). -/
  mem : List Host.Cell := []
  /-- Words whose stored codeword has errors: the BAR2 offset of the word divided by 8, and the errors of its eleven
  symbols, data bytes 0 to 7 in the low bytes, check symbols 0 to 2 above them (R426); bit 88 marks an injected error
  that has not been checked yet (R431). -/
  ecc : List (Nat × Nat) := []
  /-- The reset values that the images in force give to registers (R31), by BAR0 offset. -/
  imgVals : List (Nat × Word) := []
  /-- The block of region t in partition k of its die, as the package image in force divides it (R33): key 16·t + k, byte
  offset in the die's BAR2 window and size. -/
  blocks : List (Nat × Nat × Nat) := []
  units : List (Nat × UnitState) := []
  clusters : List (Nat × ClusterState) := []
  regions : List (Nat × RegionState) := []
  dies : List (Nat × DieState) := []
  hub : HubState := {}
  nvm : NvmState := {}
  out : Outputs := {}
  /-- The model's own counter of free values drawn so far. -/
  freeCtr : Nat := 0
  /-- The commands that wait, first in, first out. -/
  pending : List Instr := []
  deriving DecidableEq, Repr

/-- The package right after reset: the timestamp 0, every register at its reset value, nothing listed in memory, no
command waiting. -/
def State.reset : State := {}

end Sys2Proof.Machine
end

