-- ==== Sys2Proof/Machine/Ops.lean ====
section
/-! DEFINITION. The named operations over the state: sorted collections with a default, registers and their fields,
memory bytes, units, clusters, regions, dies, the passing of time. Every reading and writing of a register or a byte of
memory goes through this file. -/

namespace Sys2Proof.Machine

/-! ### Collections keyed by a number -/

/-- The value a collection holds at `k`, or `d` where it lists none. -/
def mapGet {α : Type} (d : α) (k : Nat) : List (Nat × α) → α
  | [] => d
  | (j, v) :: t => if j = k then v else mapGet d k t

/-- The collection with no entry at `k`. -/
def mapDel {α : Type} (k : Nat) : List (Nat × α) → List (Nat × α)
  | [] => []
  | (j, v) :: t => if j = k then mapDel k t else (j, v) :: mapDel k t

/-- The collection with the entry `(k, v)` before the first greater key. -/
def mapIns {α : Type} (k : Nat) (v : α) : List (Nat × α) → List (Nat × α)
  | [] => [(k, v)]
  | (j, w) :: t => if k < j then (k, v) :: (j, w) :: t else (j, w) :: mapIns k v t

/-- The collection with `v` at `k`, `d` being the default there: the default is not listed. -/
def mapPut {α : Type} [DecidableEq α] (d : α) (k : Nat) (v : α) (m : List (Nat × α)) : List (Nat × α) :=
  if v = d then mapDel k m else mapIns k v (mapDel k m)

/-! ### Registers -/

/-- The value that the register at BAR0 offset `a` takes at a reset that reaches it: the image's where it sets one
(R31), otherwise the table's (R11). -/
def State.resetVal (s : State) (a : Nat) : Word := mapGet (resetOf a) a s.imgVals

/-- The register at BAR0 offset `a`. -/
def State.rd (s : State) (a : Nat) : Word := mapGet (resetOf a) a s.regs

/-- The state with `v` in the register at BAR0 offset `a`. -/
def State.wr (s : State) (a : Nat) (v : Word) : State := { s with regs := mapPut (resetOf a) a v s.regs }

/-- The register at `a` as a number. -/
def State.rdN (s : State) (a : Nat) : Nat := (s.rd a).toNat

/-- The state with the number `n` in the register at `a`. -/
def State.wrN (s : State) (a n : Nat) : State := s.wr a (w32 n)

/-- Field `f` of the register at `a`. -/
def State.rdF (s : State) (a : Nat) (f : Fld) : Nat := getFld (s.rd a) f

/-- The state with `v` in field `f` of the register at `a`. -/
def State.wrF (s : State) (a : Nat) (f : Fld) (v : Nat) : State := s.wr a (setFld (s.rd a) f v)

/-- Whether the one-bit field `f` of the register at `a` is 1. -/
def State.is (s : State) (a : Nat) (f : Fld) : Bool := s.rdF a f == 1

/-- Hardware sets the bits `m` of the register at `a` in the present PCLK cycle (R9): what a host access of the same cycle meets. -/
def State.noteSet (s : State) (a : Nat) (m : Word) : State :=
  { s with cycSet := mapPut 0#32 a (mapGet 0#32 a s.cycSet ||| m) s.cycSet }

/-- The state with the one-bit field `f` of the register at `a` set to `b`. -/
def State.flag (s : State) (a : Nat) (f : Fld) (b : Bool) : State :=
  (s.wrF a f (b2n b)).noteSet a (if b then w32 (2 ^ f.lo) else 0#32)

/-- Bit `k` of the register at `a`. -/
def State.bit (s : State) (a k : Nat) : Bool := bitOf (s.rdN a) k

/-- The state with bit `k` of the register at `a` set to `b`. -/
def State.wrBit (s : State) (a k : Nat) (b : Bool) : State := s.flag a ⟨k, 1⟩ b

/-- The register at `a` increased by `n`, wrapping (R442: 32-bit counters wrap). -/
def State.bump (s : State) (a n : Nat) : State := s.wrN a ((s.rdN a + n) % 2 ^ 32)

/-- A field increased by `n` and held at its greatest value. -/
def State.bumpSat (s : State) (a : Nat) (f : Fld) (n : Nat) : State :=
  s.wrF a f (min (s.rdF a f + n) (2 ^ f.len - 1))

/-- The 64-bit value of the register pair at `a` and `a + 4` (R8). -/
def State.rd64 (s : State) (a : Nat) : Nat := s.rdN a + 2 ^ 32 * s.rdN (a + 4)

/-- The state with a 64-bit value in the register pair at `a` and `a + 4` (R8). -/
def State.wr64 (s : State) (a v : Nat) : State := (s.wrN a (v % 2 ^ 32)).wrN (a + 4) (v / 2 ^ 32 % 2 ^ 32)

/-- The shadow of function `f` for the register at `a` (R459): 0 while no LO read has latched it. -/
def State.shadow (s : State) (f a : Nat) : Word := mapGet 0#32 (2 ^ 28 * f + a) s.perFn

/-- The state with function `f`'s shadow of the register at `a` latched (R459). -/
def State.latch (s : State) (f a : Nat) (v : Word) : State :=
  { s with perFn := mapPut 0#32 (2 ^ 28 * f + a) v s.perFn }

/-- The registers in the offsets `lo` to `hi`, exclusive, returned to their reset values, those of `keep` apart. -/
def State.resetRegs (s : State) (lo hi : Nat) (keep : Nat → Bool) : State :=
  let gone := s.regs.filter (fun r => !(lo ≤ r.1 && r.1 < hi && !keep r.1))
  let img := s.imgVals.filter (fun r => lo ≤ r.1 && r.1 < hi && !keep r.1)
  { s with regs := img.foldl (fun m r => mapPut (resetOf r.1) r.1 r.2 m) gone }

/-- The registers that `reach` names, returned to their reset values, but for the bits that `keep` gives. -/
def State.resetMasked (s : State) (reach : Nat → Bool) (keep : Nat → Word) : State :=
  let as := ((s.regs.map Prod.fst) ++ (s.imgVals.map Prod.fst)).filter reach
  as.foldl (fun s a => s.wr a ((s.rd a &&& keep a) ||| (s.resetVal a &&& ~~~ keep a))) s

/-! ### Memory -/

/-- What a byte of memory that nothing has written reads as: 0 (R433 for die SRAM after POR; a DESIGN CHOICE for the hub's
staging buffer). -/
def memDefault : BitVec 8 := 0#8

/-- The byte of memory at BAR2 offset `a`. -/
def State.byte (s : State) (a : Nat) : BitVec 8 := mapGet memDefault a s.mem

/-- The state with byte `v` at BAR2 offset `a`. -/
def State.setByte (s : State) (a : Nat) (v : BitVec 8) : State := { s with mem := mapPut memDefault a v s.mem }

/-- The bytes `a` to `a + n − 1`. -/
def State.bytes (s : State) (a : Nat) : Nat → List (BitVec 8)
  | 0 => []
  | n + 1 => s.byte a :: State.bytes s (a + 1) n

/-- The state with the bytes `bs` from `a` on. -/
def State.setBytes (s : State) (a : Nat) : List (BitVec 8) → State
  | [] => s
  | b :: bs => State.setBytes (s.setByte a b) (a + 1) bs

/-- The `n`-byte little-endian number at `a` (R5). -/
def State.mem64 (s : State) (a n : Nat) : Nat := ofLeBytes (s.bytes a n)

/-- The state with the `n`-byte little-endian number `v` at `a` (R5). -/
def State.setMem (s : State) (a n v : Nat) : State := s.setBytes a (leBytes n v)

/-- Die SRAM ends at this offset of a die's BAR2 window (R455). -/
def dieSram : Nat := 0x1000000

/-- The BAR2 offset of byte `o` of die `d` (R455). -/
def dieMem (d o : Nat) : Nat := 0x2000000 * d + o

/-- The BAR2 offset of partition `k` of die `d` (R32, R449): 0 sweep, 1 site, 2 waveform, 3 result, 4 learning, 5 reducer,
6 program, 7 configuration shadow. -/
def State.part (s : State) (d k : Nat) : Nat := dieMem d (s.rdN (DIE_PART_BASE d k))

/-- The BAR2 offset of hub SRAM (R455). -/
def hubMem : Nat := 0x8000000

/-! ### Units, clusters, regions, dies -/

/-- The unit of package channel `p`. -/
def State.unit (s : State) (p : Nat) : UnitState := mapGet {} p s.units

/-- The state with unit `p` replaced. -/
def State.setUnit (s : State) (p : Nat) (u : UnitState) : State := { s with units := mapPut {} p u s.units }

/-- The state with unit `p` changed. -/
def State.modUnit (s : State) (p : Nat) (g : UnitState → UnitState) : State := s.setUnit p (g (s.unit p))

/-- Cluster `k` of the package, k = p div 4. -/
def State.cluster (s : State) (k : Nat) : ClusterState := mapGet (ClusterState.init k) k s.clusters

/-- The state with cluster `k` changed. -/
def State.modCluster (s : State) (k : Nat) (g : ClusterState → ClusterState) : State :=
  { s with clusters := mapPut (ClusterState.init k) k (g (s.cluster k)) s.clusters }

/-- The region of target number `t`. -/
def State.region (s : State) (t : Nat) : RegionState := mapGet {} t s.regions

/-- The state with region `t` changed. -/
def State.modRegion (s : State) (t : Nat) (g : RegionState → RegionState) : State :=
  { s with regions := mapPut {} t (g (s.region t)) s.regions }

/-- The waveform player of region `t`. -/
def State.player (s : State) (t : Nat) : PlayerState := (s.region t).player

/-- The state with region `t`'s player changed. -/
def State.modPlayer (s : State) (t : Nat) (g : PlayerState → PlayerState) : State :=
  s.modRegion t (fun r => { r with player := g r.player })

/-- Die `d`. -/
def State.die (s : State) (d : Nat) : DieState := mapGet {} d s.dies

/-- The state with die `d` changed. -/
def State.modDie (s : State) (d : Nat) (g : DieState → DieState) : State :=
  { s with dies := mapPut {} d (g (s.die d)) s.dies }

/-- The state with the hub changed. -/
def State.modHub (s : State) (g : HubState → HubState) : State := { s with hub := g s.hub }

/-- The state with the hub's clocks changed. -/
def State.modClk (s : State) (g : ClockState → ClockState) : State :=
  s.modHub (fun h => { h with clk := g h.clk })

/-- The state with the record of what left the package changed. -/
def State.modOut (s : State) (g : Outputs → Outputs) : State := { s with out := g s.out }

/-- The units of region `t` (R3). -/
def unitsOf (t : Nat) : List Nat := (List.range 16).map (fun u => 16 * t + u)

/-- The units of cluster `k`. -/
def clusterUnits (k : Nat) : List Nat := (List.range 4).map (fun u => 4 * k + u)

/-- Fold a change of the state over a list. -/
def State.each {α : Type} (s : State) (l : List α) (g : State → α → State) : State := l.foldl g s

/-! ### Time -/

/-- A PCLK cycle, in FCLK ticks (R37). -/
def pclkTicks : Nat := 8

/-- The instant `t` lies in the present PCLK cycle, or before it. -/
def State.thisCycle (s : State) (t : Nat) : Bool := t / pclkTicks ≤ s.now / pclkTicks

/-- The instant `t` lies in the present PCLK cycle. -/
def State.inCycle (s : State) (t : Nat) : Bool := t / pclkTicks = s.now / pclkTicks

/-- The register at `a` at the start of the present PCLK cycle. -/
def State.rdCyc (s : State) (a : Nat) : Word := mapGet (resetOf a) a s.cycRegs

/-- The host writes `v` to register `a` in the present PCLK cycle (R9). -/
def State.wroteNow (s : State) (a : Nat) (v : Word) : State := { s with cycWrote := (a, v) :: s.cycWrote }

/-- The host has written register `a` in the present PCLK cycle. -/
def State.hostWrote (s : State) (a : Nat) : Bool := s.cycWrote.any (fun x => x.1 = a)

/-- Hardware stores a value in register `a`, unless the host wrote the register in the same PCLK cycle: then the host's value stays
(R9). -/
def State.unlessHost (s : State) (a : Nat) (k : State → State) : State := if s.hostWrote a then s else k s

/-- The bits of the register at `a` that have been set in the present PCLK cycle (R9). -/
def State.setNow (s : State) (a : Nat) : Word := mapGet 0#32 a s.cycSet ||| (s.rd a &&& ~~~ s.rdCyc a)

/-- A write of `v` to the W1C bits `m` of the register at `a` (R9): 1 clears a bit, unless hardware has set it in this cycle. -/
def State.w1c (s : State) (a : Nat) (m v : Word) : State := s.wr a (s.rd a &&& ~~~ (v &&& m &&& ~~~ s.setNow a))

/-- The host writes the `n` bytes at BAR2 offset `a` in the present PCLK cycle (R281, R306). -/
def State.wroteMem (s : State) (a n : Nat) : State := { s with cycMem := (a, n) :: s.cycMem }

/-- The host has written one of the `n` bytes at BAR2 offset `a` in the present PCLK cycle. -/
def State.hostWroteMem (s : State) (a n : Nat) : Bool := s.cycMem.any (fun x => x.1 < a + n && a < x.1 + x.2)

/-- The host repeats a pending request in field `f` of register `a` in the PCLK cycle in which hardware accepts it (R9). -/
def State.askedAgain (s : State) (a : Nat) (f : Fld) : Bool :=
  getFld (s.rdCyc a) f = 1 && s.cycWrote.any (fun x => x.1 = a && getFld x.2 f = 1)

/-- What die `d` counts at the instant `t` of the hub's timestamp: its replica (R48). -/
def State.dieTs (s : State) (d t : Nat) : Nat := (t + (s.die d).replica.toNat) % 2 ^ 64

/-- How far back the levels of the event fabric reach (R321): three ticks for each of the channels of a chain of imports, which has no
more of them than the package has. -/
def pastTicks : Nat := 3 * 2400

/-- The snapshots that are no older than `t`, and the newest older one. -/
def keepPast (t : Nat) : List (Nat × List (Nat × Word)) → List (Nat × List (Nat × Word))
  | [] => []
  | x :: l => if x.1 ≤ t then [x] else x :: keepPast t l

/-- The newest of the snapshots at or before tick `t`, `m` where none is kept. -/
def pastRegs (m : List (Nat × Word)) (t : Nat) : List (Nat × List (Nat × Word)) → List (Nat × Word)
  | [] => m
  | x :: l => if x.1 ≤ t then x.2 else pastRegs m t l

/-- The state with its registers as they stood at the end of tick `t`, or as they stand where `t` is not over. -/
def State.asOf (s : State) (t : Nat) : State := if s.now ≤ t then s else { s with regs := pastRegs s.regs t s.past }

/-- Time passes to `t`, if `t` lies ahead: a command that the spec ties to an instant happens at that instant. -/
def State.advance (s : State) (t : Nat) : State :=
  { s with
    now := max s.now t
    past := if t ≤ s.now then s.past else keepPast (t - pastTicks) ((s.now, s.regs) :: s.past)
    cycRegs := if s.thisCycle t then s.cycRegs else s.regs
    cycWrote := if s.thisCycle t then s.cycWrote else []
    cycSet := if s.thisCycle t then s.cycSet else []
    cycMem := if s.thisCycle t then s.cycMem else [] }

/-- The first multiple of `p` at or after `t`, for `p > 0`. -/
def nextMultiple (p t : Nat) : Nat := (t + p - 1) / p * p

/-- A microsecond, in FCLK ticks (R37). -/
def usTicks : Nat := 800

/-- A millisecond, in FCLK ticks (R37). -/
def msTicks : Nat := 800000

/-- A second, in FCLK ticks (R49). -/
def secTicks : Nat := 800000000

/-! ### What leaves the package -/

/-- A write to host memory, posted on the host link; while the link stalls it waits for the link's credits (R345). -/
def State.post (s : State) (p : Posted) : State :=
  if s.is DMA_STAT DMA_STAT.STALL then s.modHub (fun h => { h with postWait := h.postWait ++ [p] })
  else s.modOut (fun o => { o with posted := p :: o.posted })

/-- A slot sent on a ROPE port. -/
def State.ropeSend (s : State) (port : Nat) (x : RopeSlot) : State :=
  s.modOut (fun o => { o with rope := (port, x) :: o.rope })

/-- The completion of a host read. -/
def State.answer (s : State) (f : Nat) (w : Word) : State :=
  s.modOut (fun o => { o with reads := (f, w) :: o.reads })

/-- The completion of a host read of memory. -/
def State.answerMem (s : State) (f : Nat) (bs : List (BitVec 8)) : State :=
  s.modOut (fun o => { o with bar2 := (f, bs) :: o.bar2 })

/-! ### The journal -/

/-- The content that a journal record is of (R438: a later record of the same content replaces a waiting one). -/
def JRec.content : JRec → Nat
  | .cal _ _ => 0
  | .life _ _ _ => 1
  | .mark done => 2 + b2n done
  | .relays _ _ _ => 8
  | .bank p _ => 0x100 + p
  | .trims k _ => 0x200 + k
  | .site d i full _ => 0x10000 + 0x8000 * d + 2 * i + b2n full
  | .kaFit _ _ => 9
  | .key k _ => 0x300 + k
  | .setting a _ => 0x40000 + a

/-- The state with the NVM changed. -/
def State.modNvm (s : State) (g : NvmState → NvmState) : State := { s with nvm := g s.nvm }

/-- A journal record starts to wait for its programming (R437, R438). -/
def State.journal (s : State) (r : JRec) : State :=
  s.modNvm (fun n => { n with
    queue := n.queue.filter (fun x => x.content ≠ r.content) ++ [r]
    part := if n.queue.head?.map JRec.content = some r.content then 0 else n.part })

/-- Register `a` of the settings area takes the value `v`, which is journaled (R436); of IMG_KEY_STAT the eight bits of the slots. -/
def State.setting (s : State) (a : Nat) (v : Word) : State :=
  (s.wr a v).journal (.setting a (if a = IMG_KEY_STAT then v &&& 0xFF#32 else v))

/-! ### Roundings that the spec leaves open -/

/-- `num / den` rounded to an adjacent integer, the free choice of an implementation, for `den > 0`. -/
def roundFree (num den : Int) : Int :=
  if num % den = 0 then num / den else if Config.roundUp num den then num / den + 1 else num / den

/-- `num / den` rounded to nearest; a tie goes to either neighbour, the free choice of an implementation, for `den > 0`. -/
def roundTie (num den : Int) : Int :=
  if 2 * (num % den) = den then (if Config.roundUp num den then num / den + 1 else num / den)
  else (2 * num + den) / (2 * den)

/-! ### The outcome of a meaning -/

/-- The outcomes of a command. -/
abbrev Out := Host.Outcome State Fault Refusal

/-! ### Free values -/

/-- The state after one free value has been drawn. -/
def State.drew (s : State) : State := { s with freeCtr := s.freeCtr + 1 }

end Sys2Proof.Machine
end

