-- ==== Sys2Proof/Machine/Events.lean ====
section
/-! DEFINITION. Owners of regions, interrupts and MSI-X (R36, R467 to R470 of 15_register_maps.md), and the emission of
events into the fabric (R316, R321, R322 of 10_event_fabric.md). -/

namespace Sys2Proof.Machine

/-! ### Owners and device states of a region -/

/-- The physical function that owns region `t` (R462). -/
def State.ownerOf (s : State) (t : Nat) : Nat :=
  s.rdF (if t < 8 then HUB_OWN_RGN_0 else HUB_OWN_RGN_1) ⟨4 * (t % 8), 3⟩

/-- The functions whose region `t` is, for the interrupt causes: its owner, and PF0 (R467). -/
def State.regionFns (s : State) (t : Nat) : List Nat :=
  if s.ownerOf t = 0 then [0] else [0, s.ownerOf t]

/-- The region is in nightlight mode (R384, R466). -/
def State.nightlight (s : State) (t : Nat) : Bool := s.is (RGN_INFO t) RGN_INFO.NL

/-- The region is in a restart, from phase 1 to its resumption (R434). -/
def State.restarting (s : State) (t : Nat) : Bool := (s.region t).restart ≠ 0

/-! ### MSI-X -/

/-- The key in `perFn` of DWORD `o` of function `f`'s MSI-X area (R470). -/
def msixKey (f o : Nat) : Nat := 2 ^ 28 * f + 0xF0000 + o

/-- What a DWORD of the MSI-X area holds at reset: every vector masked, as the PCI Express layout has it (R470). -/
def msixReset (o : Nat) : Word := if o < 0x400 && o % 16 = 12 then 1#32 else 0#32

/-- DWORD `o` of function `f`'s MSI-X area (R470). -/
def State.msix (s : State) (f o : Nat) : Word := mapGet (msixReset o) (msixKey f o) s.perFn

/-- The state with a DWORD of the MSI-X area written. -/
def State.setMsix (s : State) (f o : Nat) (v : Word) : State :=
  { s with perFn := mapPut (msixReset o) (msixKey f o) v s.perFn }

/-- Vector `v` of function `f` is masked. -/
def State.masked (s : State) (f v : Nat) : Bool := bitOf (s.msix f (16 * v + 12)).toNat 0

/-- The offset of the PBA DWORD that holds vector `v` (R470). -/
def pbaOff (v : Nat) : Nat := 0x800 + 4 * (v / 32)

/-- A message of vector `v` of function `f`: withheld with the PBA bit set while the vector is masked (R468). -/
def State.sendMsix (s : State) (f v : Nat) : State :=
  if s.masked f v then s.setMsix f (pbaOff v) (setFld (s.msix f (pbaOff v)) ⟨v % 32, 1⟩ 1)
  else s.post (.msix f v)

/-! ### Interrupt causes -/

/-- The vector of cause `c` of function `f` (R469). -/
def State.causeVec (s : State) (f c : Nat) : Nat := s.rdF (HUB_INT_VEC0 f + 4 * (c / 4)) ⟨8 * (c % 4), 6⟩

/-- The message of cause `c` of function `f`; a function in D3hot sends it on its return (R468). -/
def State.sendCause (s : State) (f c : Nat) : State :=
  if bitOf s.hub.d3 f then s else (s.bump (HUB_INT_CNT f) 1).sendMsix f (s.causeVec f c)

/-- Cause `c` sets its bit for function `f`, and sends a message when the bit rises while it is enabled (R468). A cause
that does not apply to `f` does nothing (R469). -/
def State.setCause (s : State) (f c : Nat) : State :=
  if !bitOf (causeMask f) c then s
  else if s.bit (HUB_INT_STAT f) c then s.noteSet (HUB_INT_STAT f) (w32 (2 ^ c))
  else
    let s1 := s.wrBit (HUB_INT_STAT f) c true
    if s1.bit (HUB_INT_EN f) c then s1.sendCause f c else s1

/-- A cause of region `t`, set for its owner and PF0, with the region's bit (R467, R469). -/
def State.regionCause (s : State) (t c : Nat) : State :=
  s.each (s.regionFns t) (fun s f => (s.wrBit (HUB_INT_RGN f) t true).setCause f c)

/-- A cause of every function that the package has (R467: causes 5 and 6). -/
def State.allCause (s : State) (c : Nat) : State :=
  s.each (indices 8 (fun f => s.bit HUB_FN_PRESENT f)) (fun s f => s.setCause f c)

/-- Cause numbers of R467. -/
def causeNotify : Nat := 0
def causeSafe : Nat := 1
def causeRestart : Nat := 2
def causeRestartDone : Nat := 3
def causeThermal : Nat := 4
def causeShutdown : Nat := 5
def causeSupply : Nat := 6
def causeImage : Nat := 7
def causeSeq : Nat := 8
def causeRefused : Nat := 9
def causeLink : Nat := 10
def causeOverdue : Nat := 11

/-! ### Producers -/

/-- Producer of unit `p`, offset `k` of R317: die-local number of R316. -/
def unitProd (p k : Nat) : Nat := 0x300 * (p / 16 % 4) + 0x20 * (p % 16) + k

/-- Producer of cluster `c` (p div 4), offset `k` (R316). -/
def clusterProd (c k : Nat) : Nat := 0x300 * (c / 4 % 4) + 0x200 + 0x10 * (c % 4) + k

/-- Producer of region `t`, offset `k` of R317 (R316). -/
def regionProd (t k : Nat) : Nat := 0x300 * (t % 4) + 0x240 + k

def evCompliance : Nat := 0x00
def evCmplExit : Nat := 0x01
def evClamp : Nat := 0x02
def evOpenLoad : Nat := 0x03
def evRangeSettled : Nat := 0x04
def evNcoZero : Nat := 0x05
def evSwitchClosed : Nat := 0x06
def evSwitchOpened : Nat := 0x07
def evLofStart : Nat := 0x08
def evLofHold : Nat := 0x09
def evOverrange : Nat := 0x0A
def evSample : Nat := 0x0B
def evValue : Nat := 0x0C

def evEmber : Nat := 0x00
def evSweepStep : Nat := 0x01
def evWfTrig : Nat := 0x02
def evWfEnd : Nat := 0x06
def evUnderrun : Nat := 0x07
def evSeqCommit : Nat := 0x08
def evSeqCloseNc : Nat := 0x09
def evSeqStop : Nat := 0x0A
def evSeqHostWait : Nat := 0x0B
def evWinClose : Nat := 0x0C
def evRdcVevt : Nat := 0x0D
def evRdcClose : Nat := 0x11

/-- The die channels whose source multiplexer selects producer `prod` (R318): only a listed register can select one, since
the reset value selects none. -/
def State.channelsOf (s : State) (d prod : Nat) : List Nat :=
  s.regs.filterMap (fun r =>
    if EVT_CH d 0 ≤ r.1 && r.1 < EVT_CH d 512 && (r.1 - EVT_CH d 0) % 8 = 0 && getFld r.2 ⟨0, 12⟩ = prod
    then some ((r.1 - EVT_CH d 0) / 8) else none)

/-- A firing of channel `n` of die `d` enters its route stage at tick `t` (R321, R325). -/
def State.fire (s : State) (d n t lin : Nat) (w : Nat := 1) : State :=
  s.modDie d (fun x => { x with fires := x.fires ++ [{ ch := n, tick := t, lin := lin, weight := w }] })

/-- A producer edge of die `d` at tick `t`: it reaches the route stage of every channel that selects it three ticks later
(R321). A producer of a region under restart or in nightlight mode issues nothing (R333, R385). -/
def State.emit (s : State) (d prod t : Nat) (lin : Nat := 0) (w : Nat := 1) : State :=
  if prod < 0xC00 && (s.restarting (4 * d + prod / 0x300) || s.nightlight (4 * d + prod / 0x300)) then s
  else s.each (s.channelsOf d prod) (fun s n => s.fire d n (t + 3) lin w)

/-- An event of unit `p` at the present instant. -/
def State.emitUnit (s : State) (p k : Nat) : State := s.emit (p / 64) (unitProd p k) s.now

/-- An event of region `t` at the present instant, with a lineage. -/
def State.emitRegion (s : State) (t k : Nat) (lin : Nat := 0) : State := s.emit (t / 4) (regionProd t k) s.now lin

/-- The package channels that select hub producer `prod` (R338). -/
def State.hubChannelsOf (s : State) (prod : Nat) : List Nat :=
  s.regs.filterMap (fun r =>
    if EVT_PCH 0 ≤ r.1 && r.1 < EVT_PCH 256 && (r.1 - EVT_PCH 0) % 8 = 0 && getFld r.2 ⟨0, 2⟩ = 1
        && getFld r.2 ⟨4, 9⟩ = prod
    then some ((r.1 - EVT_PCH 0) / 8) else none)

/-- A hub producer's edge at the present instant: its package channels route two ticks later (R322). -/
def State.emitHub (s : State) (prod : Nat) : State :=
  s.each (s.hubChannelsOf prod)
    (fun s n => s.modHub (fun h => { h with pkg := h.pkg ++ [{ ch := n, tick := s.now + 2, lin := 0, weight := 1 }] }))

end Sys2Proof.Machine
end

