-- ==== Sys2Proof/Machine/Access.lean ====
section
/-! DEFINITION. Host access to registers: who may read and write what (R453, R454, R460, R461 of 15_register_maps.md), what
a refusal logs, and the access codes of R9. -/

namespace Sys2Proof.Machine

/-- Reasons of R461. -/
def rsnOwner : Nat := 1
def rsnSecure : Nat := 2
def rsnStructure : Nat := 3
def rsnSize : Nat := 4
def rsnFenced : Nat := 5
def rsnKey : Nat := 6
def rsnWindow : Nat := 7

/-- PF0 alone (R461: SECURE). -/
def pf0Only (f : Nat) : Option Nat := if f = 0 then none else some rsnSecure

/-- The function `o` and PF0 (R461: OWNER). -/
def ownerOrPf0 (f o : Nat) : Option Nat := if f = 0 || f = o then none else some rsnOwner

/-- A channel, counter, capture or pin with an owner and a SECURE attribute (R326). -/
def attrRight (f owner : Nat) (secure : Bool) : Option Nat :=
  if f = 0 then none else if secure then some rsnSecure else if f = owner then none else some rsnOwner

/-- Function `f` owns a region of die `d`. -/
def State.ownsOnDie (s : State) (f d : Nat) : Bool :=
  (List.range 4).any (fun g => s.ownerOf (4 * d + g) = f)

/-- The right to die channel `n` of die `d` (R326). -/
def State.chanRight (s : State) (f d n : Nat) : Option Nat :=
  attrRight f (s.rdF (EVT_CH d n) ⟨12, 3⟩) (s.is (EVT_CH d n) ⟨16, 1⟩)

/-- The right to package channel `n` (R326, R338). -/
def State.pchRight (s : State) (f n : Nat) : Option Nat :=
  attrRight f (s.rdF (EVT_PCH n) ⟨16, 3⟩) (s.is (EVT_PCH n) ⟨19, 1⟩)

/-- The right to system channel `n` (R326, R338). -/
def State.schRight (s : State) (f n : Nat) : Option Nat :=
  attrRight f (s.rdF (EVT_SCH n) ⟨12, 3⟩) (s.is (EVT_SCH n) ⟨15, 1⟩)

/-- The right to event counter `m` of die `d` (R336). -/
def State.cntRight (s : State) (f d m : Nat) : Option Nat :=
  attrRight f (s.rdF (EVT_CNT_CTRL d m) ⟨4, 3⟩) (s.is (EVT_CNT_CTRL d m) ⟨7, 1⟩)

/-- The right to timestamp capture `m` of die `d` (R326). -/
def State.capRight (s : State) (f d m : Nat) : Option Nat :=
  let o := (s.die d).capOwner / 16 ^ m
  attrRight f (o % 8) (bitOf o 3)

/-- The right to EVIO pin `k` of die `d` (R336). -/
def State.evioRight (s : State) (f d k : Nat) : Option Nat :=
  attrRight f (s.rdF (EVT_EVIO d k) ⟨16, 3⟩) (s.is (EVT_EVIO d k) ⟨19, 1⟩)

/-- The right of consumer input `i` of die `d` (R336): its region's owner, or the owner of its pin, counter or capture. -/
def State.inputRight (s : State) (f d i : Nat) : Option Nat :=
  let owner (x : Option Nat) : Option Nat := if x = none then none else some rsnOwner
  if i < 0x400 then ownerOrPf0 f (s.ownerOf (4 * d + i / 0x100))
  else if i < 0x408 then owner (s.evioRight f d (i - 0x400))
  else if 0x410 ≤ i && i < 0x430 then owner (s.cntRight f d (i % 16))
  else if 0x430 ≤ i && i < 0x438 then owner (s.capRight f d (i - 0x430))
  else ownerOrPf0 f 0

/-- A read of a 32-channel register is refused only when the function may read none of its channels (R326). -/
def State.groupRight (s : State) (f d k : Nat) : Option Nat :=
  if (List.range 32).any (fun j => s.chanRight f d (32 * k + j) = none) then none
  else if (List.range 32).any (fun j => s.is (EVT_CH d (32 * k + j)) ⟨16, 1⟩) then some rsnSecure
  else some rsnOwner

/-- The right to a register of the die event block (R326, R336). A multi-bit write is decided bit by bit by its command. -/
def State.evtRight (s : State) (f d o : Nat) (wr : Bool) (v : Word) : Option Nat :=
  if o = 0 then (if wr then s.chanRight f d (getFld v ⟨0, 9⟩) else none)
  else if o = 4 then (if wr && v &&& 0xF#32 ≠ 0#32 then pf0Only f else none)
  else if o = 8 then pf0Only f
  else if o = 0xC then none
  else if o < 0x80 then none
  else if o < 0x100 then (if wr then none else s.groupRight f d (o % 0x40 / 4))
  else if o < 0x1000 then none
  else if o < 0x2000 then (if o % 8 = 4 && !wr then s.chanRight f d ((o - 0x1000) / 8) else none)
  else if o < 0xA000 then (if o % 16 = 0 then none else s.inputRight f d ((o - 0x2000) / 16))
  else if o < 0xB000 then none
  else if o < 0xB100 then s.cntRight f d ((o - 0xB000) / 16)
  else if o < 0xB180 then s.capRight f d ((o - 0xB100) / 16)
  else if 0xB200 ≤ o && o < 0xB220 then s.evioRight f d ((o - 0xB200) / 4)
  else none

/-- The right to a register of the hub event block (R338). -/
def State.hevtRight (s : State) (f o : Nat) (wr : Bool) (v : Word) : Option Nat :=
  if o = 0 then (if wr then s.pchRight f (getFld v ⟨0, 8⟩) else none)
  else if o = 4 then (if wr then s.schRight f (getFld v ⟨0, 6⟩) else none)
  else if o = 8 then (if wr then pf0Only f else none)
  else if o = 0xC then (if wr && v &&& 0xF#32 ≠ 0#32 then pf0Only f else none)
  else if 0x1000 ≤ o && o < 0x1800 && o % 8 = 4 then (if wr then none else s.pchRight f ((o - 0x1000) / 8))
  else if 0x2000 ≤ o && o < 0x2200 && o % 8 = 4 then (if wr then none else s.schRight f ((o - 0x2000) / 8))
  else none

/-- The block of site contexts of region `t`: first die-local index and count (R278). -/
def State.siteBlk (s : State) (t : Nat) : Nat × Nat :=
  let a := siteBase (t / 4) + 0x20 + 4 * (t % 4)
  (s.rdF a ⟨0, 14⟩, s.rdF a ⟨16, 14⟩)

/-- Die-local site `i` lies in a block of a region of die `d` that function `f` owns. -/
def State.ownsSites (s : State) (f d i n : Nat) : Bool :=
  (List.range 4).any (fun g =>
    s.ownerOf (4 * d + g) = f && (s.siteBlk (4 * d + g)).1 ≤ i && i + n ≤ (s.siteBlk (4 * d + g)).1 + (s.siteBlk (4 * d + g)).2)

/-- The right to write a register of the site walker block of die `d` (R309). -/
def State.siteWrite (s : State) (f d o : Nat) (v : Word) : Option Nat :=
  if f = 0 then none
  else
    if o < 0x18 then
      (if s.rdF (SITE_PORT_CFG d) SITE_PORT_CFG.MODE = 0 &&
          (List.range 4).any (fun g => bitOf (s.rdF (SITE_PORT_CFG d) SITE_PORT_CFG.REGIONS) g && s.ownerOf (4 * d + g) = f)
       then none else some rsnOwner)
    else if 0x30 ≤ o && o < 0x40 then (if s.ownerOf (4 * d + (o - 0x30) / 4) = f then none else some rsnOwner)
    else if o = 0x40 || o = 0x64 || o = 0x68 then (if s.ownsOnDie f d then none else some rsnOwner)
    else if o = 0x44 then
      (if (v &&& 3#32 = 0#32 && s.ownsOnDie f d) || s.ownsSites f d (s.rdF (siteBase d + 0x40) ⟨0, 14⟩) 1 then none else some rsnOwner)
    else if o = 0x6C then
      (if (v &&& 1#32 = 0#32 && s.ownsOnDie f d) ||
          s.ownsSites f d (s.rdF (siteBase d + 0x64) ⟨0, 14⟩) (max 1 (s.rdF (siteBase d + 0x68) ⟨0, 14⟩))
       then none else some rsnOwner)
    else if 0x400 ≤ o && o < 0x800 then
      (let x := SITE_WS_CFG d ((o - 0x400) / 0x100)
       if s.is x SITE_WS_CFG.EN && s.ownerOf (4 * d + s.rdF x SITE_WS_CFG.REGION) = f then none else some rsnOwner)
    else some rsnSecure

/-- The right to a register of the fault hub (R421, R431, R447): the owner of a region may acknowledge a source whose
first cause names the region, a unit or a cluster of it. -/
def State.fltRight (s : State) (f o : Nat) (wr : Bool) (v : Word) : Option Nat :=
  if o = 0x20 || o = 0x24 then pf0Only f
  else if !wr then none
  else if 0x1000 ≤ o && o % 0x20 = 4 && bitOf v.toNat 1 then
    let c := s.rdN (FLT_FIRST_CAUSE ((o - 0x1000) / 0x20))
    let i := c % 256
    let mine (t : Nat) : Option Nat := if f = 0 || s.ownerOf t = f then none else some rsnOwner
    match c / 256 % 8 with
    | 0 => mine (i / 16)
    | 1 => mine (i / 4)
    | 2 => mine (i % 16)
    | _ => pf0Only f
  else pf0Only f

/-- The right of function `f` to read (`wr = false`) or write register `o` of a block (R453, R454): none, or the reason
of a refusal. -/
def State.blockRight (s : State) (f : Nat) (b : Block) (k o : Nat) (wr : Bool) (v : Word) : Option Nat :=
  match b with
  | .id => if !wr then none else if 0x40 ≤ o && o < 0x60 then ownerOrPf0 f ((o - 0x40) / 4) else pf0Only f
  | .int => ownerOrPf0 f (o / 0x100)
  | .own =>
    if wr then pf0Only f
    else if 0x40 ≤ o && o < 0xC0 then ownerOrPf0 f ((o - 0x40) / 0x10) else none
  | .hevt => s.hevtRight f o wr v
  | .dma =>
    if 0x1000 ≤ o then ownerOrPf0 f (s.rdF (DMA_RING_CTRL ((o - 0x1000) / 0x40)) ⟨16, 3⟩)
    else if wr then pf0Only f else none
  | .rope | .tmp | .life | .img | .time | .mem => if wr then pf0Only f else none
  | .flt => s.fltRight f o wr v
  | .msix => none
  | .die =>
    if o = 0 then (if wr then pf0Only f else none)
    else if !wr && 0x110 ≤ o && o < 0x130 then ownerOrPf0 f (s.ownerOf (4 * k + o % 0x10 / 4)) else pf0Only f
  | .evt => s.evtRight f k o wr v
  | .dtmp => if wr then pf0Only f else none
  | .site => if wr then s.siteWrite f k o v else if f = 0 || s.ownsOnDie f k then none else some rsnOwner
  | .rgn => ownerOrPf0 f (s.ownerOf k)
  | .seq | .eng | .prf | .rdc => if wr then (if f = s.ownerOf k then none else some rsnOwner) else ownerOrPf0 f (s.ownerOf k)
  | .mea =>
    if wr && 0x214 ≤ o && o < 0x314 && o % 0x40 = 0x14 then pf0Only f
    else if wr then (if f = s.ownerOf k then none else some rsnOwner) else ownerOrPf0 f (s.ownerOf k)
  | .unit => if wr then (if f = s.ownerOf (k / 16) then none else some rsnOwner) else ownerOrPf0 f (s.ownerOf (k / 16))

/-- Function `f` is fenced: from the PCLK cycle after the write of FENCE on, until the one after the write that lifts it (R463). -/
def State.fenced (s : State) (f : Nat) : Bool :=
  let a := HUB_FN_CTRL f
  f ≠ 0 && getFld (if s.hostWrote a then s.rdCyc a else s.rd a) HUB_FN_CTRL.FENCE = 1

/-- The package takes accesses: it is not held in reset (R408), nor is a software package reset under way (R465). -/
def State.accepts (s : State) : Bool := s.hub.held = none && !s.hub.rstWait

/-- Why an access is refused, the first reason in the order FENCED, SIZE, SECURE, OWNER, KEY, WINDOW, STRUCTURE; none when
it is carried out (R460, R461). A reserved register address is no refusal (R10). -/
def State.refusal (s : State) (f a : Nat) (wr : Bool) (v : Word) : Option Nat :=
  if s.fenced f then some rsnFenced
  else
    match blockOf a with
    | none => none
    | some (b, k, o) =>
      if b = .msix then none
      else
        match regRow a with
        | none => none
        | some r =>
          match s.blockRight f b k o wr v with
          | some x => some x
          | none =>
            if !wr then none
            else if a = HUB_RST_CTRL && bitOf v.toNat 0 && getFld v ⟨24, 8⟩ ≠ 0xA5 then some rsnKey
            else if (v ^^^ s.rd a) &&& w32 r.img ≠ 0#32 then some rsnStructure
            else none

/-- The status register whose FIRE_REF bit 3 a refused access to `a` sets (R326, R336, R338): a software fire, a write of
software levels, a read of levels or of an issue counter. -/
def fireRefReg (a : Nat) : Option Nat :=
  match blockOf a with
  | some (.evt, d, o) =>
    if o = 0 || (0x40 ≤ o && o < 0x100) || (0x1000 ≤ o && o < 0x2000 && o % 8 = 4) then some (EVT_STAT d) else none
  | some (.hevt, _, o) =>
    if o = 0 || o = 4 || (0x1000 ≤ o && o < 0x2200 && o % 8 = 4) then some EVT_PSTAT else none
  | _ => none

/-- FIRE_REF follows a refused access to `a`. -/
def State.fireRef (s : State) (a : Nat) : State :=
  match fireRefReg a with
  | some x => s.wrBit x 3 true
  | none => s

/-- The log of a refused access, and its REFUSED cause (R460). `bar2` says in which window the offset lies. -/
def State.refuse (s0 : State) (f a : Nat) (wr bar2 : Bool) (reason : Nat) : State :=
  let s := if bar2 then s0 else s0.fireRef a
  ((((s.bump (HUB_SEC_CNT f) 1).wrN (HUB_SEC_LAST f) (0x80000000 + 0x10 * b2n wr + reason)).wrN (HUB_SEC_ADDR f)
    (a / 4 * 4 % 2 ^ 28 + 2 ^ 28 * b2n bar2)).setCause f causeRefused)

/-- A write of `v` to register `a` by function `f`: lost where the package takes no access, refused and logged, or carried out by `k`. -/
def State.guardWrite (s : State) (f a : Nat) (v : Word) (k : State → State) : State :=
  if !s.accepts then s
  else
    match s.refusal f a true v with
    | some r => s.refuse f a true false r
    | none => k s

/-- A register write by its access codes alone (R9): RW fields are stored, W1C bits at 1 clear, W1S bits at 1 set; a WO
field acts through its register's own operation. `old` is the register, `hw` the bits that hardware has set in this PCLK cycle: a
W1C bit among them stays 1. -/
def storeByCodes (r : RegRow) (old hw v : Word) : Word :=
  let rw := w32 r.rw
  let w1c := w32 r.w1c &&& ~~~ hw
  let w1s := w32 r.w1s
  ((((old &&& ~~~ rw) ||| (v &&& rw)) &&& ~~~ (v &&& w1c)) ||| (v &&& w1s))

/-- A register write by its access codes alone. -/
def State.store (s : State) (a : Nat) (v : Word) : State :=
  match regRow a with
  | none => s
  | some r => s.wr a (storeByCodes r (s.rd a) (s.setNow a) v)

end Sys2Proof.Machine
end

