-- ==== Sys2Proof/Machine/UnitBase.lean ====
section
/-! DEFINITION. The loop grid (R39, R113), the gang and the booster of a unit (R97, R101), and the stress time of the sites
that a die's units hold (R282, R285). -/

namespace Sys2Proof.Machine

/-! ### The loop grid -/

/-- Loop periods in FCLK ticks by RATE (R113). -/
def periods : List Nat := [80, 160, 400, 800, 1600, 8000, 80000]

/-- The loop period of region `t` in ticks (R113), at the rate in force: TMP_RGN_t.EFF_RATE (R398). -/
def State.period (s : State) (t : Nat) : Nat := periods.getD (s.rdF (TMP_RGN t) TMP_RGN.EFF_RATE) 80

/-- Four ECLK cycles, in ticks: the lead of R91, R202 and R206. -/
def leadTicks : Nat := 8

/-- The first loop boundary of region `t` at least four ECLK cycles after the instant `at'` (R91). -/
def State.eligible (s : State) (t at' : Nat) : Nat := nextMultiple (s.period t) (at' + leadTicks)

/-- The first loop boundary of region `t` at or after the present instant whose sample has not been taken yet. -/
def State.boundary (s : State) (t : Nat) : Nat :=
  nextMultiple (s.period t) (match (s.region t).lastSample with
    | some b => max s.now (b + 1)
    | none => s.now)

/-- The boundary at which a request of the instant `at'` takes effect: none before the present instant (R91). -/
def State.effectAt (s : State) (t at' : Nat) : Nat := max (s.eligible t at') (s.boundary t)

/-- The loop boundary after the instant `at'`, or the next one from now (R77, R106, R136): none before the present. -/
def State.nextBoundary (s : State) (t at' : Nat) : Nat := max ((at' / s.period t + 1) * s.period t) (s.boundary t)

/-- The CH_MODE value that a write asks for: a VRNG of 3 leaves the field as it is (R112). -/
def modeValue (old v : Nat) : Nat :=
  let x := v % 128
  if x / 4 % 4 = 3 then x / 16 * 16 + old / 4 % 4 * 4 + x % 2 else x / 4 * 4 + x % 2

/-- The output switch is closed. -/
def State.closed (s : State) (p : Nat) : Bool := s.is (CH_STAT p) CH_STAT.OUT_CLOSED

/-- Region `t` is in booster mode, so that its unit 0 forces nothing of its own (R19, R101). -/
def State.boost (s : State) (t : Nat) : Bool := s.is (CH_BST (16 * t)) CH_BST.BOOST

/-- Unit `p` belongs to the booster function of its region. -/
def State.isBoost (s : State) (p : Nat) : Bool := p % 16 = 0 && s.boost (p / 16)

/-- Unit `p` is a gang member but not its master (R99). -/
def State.follower (s : State) (p : Nat) : Bool :=
  s.is (CH_GANG p) CH_GANG.MEMBER && !s.is (CH_GANG p) CH_GANG.MASTER

/-- The DAC of unit `p` drives an output: its switch is commanded closed, or it is the booster channel out of the state of R75,
which drives BDRV (R101, R103). -/
def State.drives (s : State) (p : Nat) : Bool := (s.unit p).swCmd || (s.isBoost p && !s.is (CH_STAT p) CH_STAT.SAFE)

/-- The unit forces current (R85); a gang follower always does (R97). -/
def State.forcesI (s : State) (p : Nat) : Bool := s.follower p || s.is (CH_MODE p) CH_MODE.FMODE

/-- Unit `p` is a gang master (R97). -/
def State.master (s : State) (p : Nat) : Bool := s.is (CH_GANG p) CH_GANG.MASTER

/-- The master of the gang of unit `p`, as a package channel. -/
def State.masterOf (s : State) (p : Nat) : Nat := p / 16 * 16 + s.rdF (CH_GANG p) CH_GANG.MASTER_U

/-- The current range in force for unit `p`: a gang shares its master's (R98), a booster's calibration has its own (R102). -/
def State.irng (s : State) (p : Nat) : Nat :=
  if s.isBoost p then Config.boostRange.val else s.rdF (CH_MODE (if s.follower p then s.masterOf p else p)) CH_MODE.IRNG

/-- The members of the gang whose master is `p` (R97): `p` alone where it leads none. -/
def State.members (s : State) (p : Nat) : List Nat :=
  if s.master p then
    (unitsOf (p / 16)).filter (fun q => s.is (CH_GANG q) CH_GANG.MEMBER && s.masterOf q = p)
  else [p]

/-! ### Sites in force and stress time -/

/-- The site in force for unit `p`, a die-local index: the master's in a gang (R282). -/
def State.siteOf (s : State) (p : Nat) : Option Nat := (s.unit (if s.follower p then s.masterOf p else p)).mea.site

/-- The BAR2 offset of context `i` of die `d` (R278). -/
def State.ctxAt (s : State) (d i : Nat) : Nat := s.part d 1 + 256 * i

/-- CFLAGS bit `k` of context `i` of die `d` (R280). -/
def State.ctxFlag (s : State) (d i k : Nat) : Bool := bitOf (s.byte (s.ctxAt d i + 4)).toNat k

/-- The output of unit `p` is connected (R283): its switch is closed. DESIGN CHOICE (R101 keeps the switch of a booster channel open, and
R284 decides what its samples add): a booster channel is connected while it drives BDRV. -/
def State.connected (s : State) (p : Nat) : Bool := s.closed p || (s.isBoost p && s.drives p)

/-- Unit `p` is one whose samples may accumulate (R283, R285): its mask bit, its switch, its site with VALID and ACC_EN. -/
def State.accOn (s : State) (p : Nat) : Bool :=
  match s.siteOf p with
  | none => false
  | some i =>
    s.bit (SITE_ACC_UMASK (p / 64) (p / 16 % 4)) (p % 16) && s.connected p && s.ctxFlag (p / 64) i 0 && s.ctxFlag (p / 64) i 1

/-- The instant from which site `i` of die `d` lies in the break of the switch that selects it: that switch's start (R285). -/
def State.breakFrom (s : State) (d i : Nat) : Option Nat :=
  ((s.die d).switches.find? (fun w => w.site = i && w.start ≠ none && w.made = none)).bind PortSwitch.start

/-- The sites of die `d` whose STRESS counts now, outside a break, each once (R285). -/
def State.drivenSites (s : State) (d : Nat) : List Nat :=
  ((((List.range 64).map (fun u => 64 * d + u)).filter (fun p => s.accOn p)).filterMap (fun p => s.siteOf p)).eraseDups

/-- LCLK edges from `a` inclusive to `b` exclusive. -/
def lclkEdges (a b : Int) : Nat := ((-a) / usTicks - (-b) / usTicks).toNat

/-- Stress time of die `d` is counted up to now, under the conditions that have held since it was counted last (R285), by the LCLK
edges of the die's own timestamp (R48). -/
def State.syncStress (s : State) (d : Nat) : State :=
  let a := (s.die d).stressTo
  let edges (b : Nat) : Nat := lclkEdges (a + (s.die d).replica.toInt) (b + (s.die d).replica.toInt)
  if edges s.now = 0 then s
  else
    let n (i : Nat) : Nat := edges (max a (min s.now ((s.breakFrom d i).getD s.now)))
    let sites := s.drivenSites d
    s.modDie d (fun x =>
      { x with
        stressTo := s.now
        stress := sites.foldl (fun m i => mapPut 0 i (mapGet 0 i m + n i) m) x.stress })

end Sys2Proof.Machine
end

