-- ==== Sys2Proof/Machine/UnitOps.lean ====
section
/-! DEFINITION. Shared operations of units and regions: the safe state and its two paths (R75, R76), the player's stop, and the sequencer's squash, stop and close requests (R205, R207). -/

namespace Sys2Proof.Machine

/-! ### The safe state and its paths -/

/-- The code of 0 V or 0 A (R75, R82). -/
def midCode : Nat := 0x80000

/-- The engine of the unit in manual at mid-scale, nothing on its way (R75): what a safe path leaves of the engine. -/
def EngUnit.safe (e : EngUnit) : EngUnit :=
  { e with
    limited := false, ret := false, autoReq := none, preset := .none, lof := .none, uSel := 0 }

/-- The generator at 0 with no NCO amplitude (R77, R160). -/
def GenState.zero (g : GenState) : GenState :=
  { g with x := 0, w := 0, hist := g.hist.map (fun _ => 0), out := 0, ampPos := 0 }

/-- A start of the generator at a position in Q4.44 (R160). -/
def GenState.start (g : GenState) (x : Int) : GenState :=
  let y := clampI (-(5 * 2 ^ 42)) (5 * 2 ^ 42) x
  { g with x := y, w := 0, hist := g.hist.map (fun _ => y), out := roundDiv y (2 ^ 14) }

/-- IN_CMPL clears with its event when the loop stops regulating the limited quantity (R88, R138). -/
def State.leaveCmpl (s : State) (p : Nat) : State :=
  if s.is (CH_STAT p) CH_STAT.IN_CMPL then
    (s.flag (CH_STAT p) CH_STAT.IN_CMPL false).emitUnit p evCmplExit
  else s

/-- The switch of unit `p` opens and its DAC takes mid-scale, the end of every path of R76: the state of R75. -/
def State.openNow (s : State) (p : Nat) : State :=
  let s0 := if s.connected p then s.syncStress (p / 64) else s
  let s1 := if s.closed p then (s0.flag (CH_STAT p) CH_STAT.OUT_CLOSED false).emitUnit p evSwitchOpened else s0
  let s2 := (s1.leaveCmpl p).modUnit p (fun u =>
    { u with
      swCmd := false, swReq := none, safe := .none, openedAt := if s.closed p || s.drives p then s.now else u.openedAt,
      fonTicks := if s.closed p then u.fonTicks + (s.now - u.fonFrom) else u.fonTicks,
      guardSense := false, eng := u.eng.safe, gen := { u.gen with ampPos := 0 } })
  ((((((s2.wrN (CH_DAC p) midCode).flag (CH_CTRL p) CH_CTRL.OUT_REQ false).flag (CH_STAT p) CH_STAT.SAFE true).flag
    (ENG_UCTRL p) ENG_UCTRL.AUTO false).wrN (ENG_MANUAL p) midCode).wr (ENG_USTAT p)
      (s2.rd (ENG_USTAT p) &&& ~~~ 0x7#32))

/-- The feedback of unit `p` has failed, or a reaction to its failure runs or holds (R140, R143, R144). -/
def EngUnit.blind (e : EngUnit) : Bool := e.lof ≠ .none || e.frzV || e.frzI || e.plLive

/-- The DAC code of unit `p` starts to move open-loop to mid-scale (R76, R144); the 1 ms of a ramp already begun run on. -/
def State.openLoopRamp (s : State) (p : Nat) : State :=
  ((s.modUnit p (fun u =>
    { u with safe := .openLoop, safeFrom := if u.safe = .ramp then u.safeFrom else s.now, swReq := none, eng := { u.eng with lofTarget := midCode } })).flag (ENG_USTAT p)
      ENG_USTAT.LOF_RAMP true).flag (ENG_USTAT p) ENG_USTAT.BELAY false

/-- Unit `p` starts its ramped path (R76): closed-loop, or open-loop with failed feedback and from a hold (R144). A unit already
on its way keeps its path; one that drives no output ends at once in the state of R75. A unit in manual ramps its code
open-loop: its generator does not drive it. The generator of a gang follower, whose target a slot gave until now, starts from the last
target. -/
def State.startRamp (s : State) (p : Nat) : State :=
  if !s.drives p then s.openNow p
  else if (s.unit p).safe ≠ .none then s
  else if (s.unit p).eng.blind || !s.is (ENG_USTAT p) ENG_USTAT.AUTO_ACT then s.openLoopRamp p
  else
    s.modUnit p (fun u =>
      { u with safe := .ramp, safeFrom := s.now, swReq := none, gen := if s.follower p then u.gen.start (u.eng.rPrev * 2 ^ 14) else u.gen })

/-- Feedback that fails on a closed-loop ramp is not used any further (R144): the ramp goes on open-loop. -/
def State.blindRamp (s : State) (p : Nat) : State :=
  if (s.unit p).safe = .ramp && (s.unit p).eng.blind then s.openLoopRamp p else s

/-- The safe path of unit `p`: immediate or ramped (R76). -/
def State.safePath (s : State) (p : Nat) (immediate : Bool) : State :=
  if immediate then s.openNow p else s.startRamp p

/-- The SAFE sequence of R144 on unit `p`: manual at the present code, which ramps open-loop to mid-scale. -/
def State.lofSafe (s : State) (p : Nat) : State :=
  let s1 := (s.leaveCmpl p).modUnit p (fun u =>
    { u with
      safe := .openLoop, safeFrom := s.now, swReq := none,
      eng := { u.eng with lof := .safe, lofFrom := s.now, lofTarget := midCode, autoReq := none, limited := false,
                          ret := false } })
  (((s1.wr (ENG_MANUAL p) (s.rd (CH_DAC p))).flag (ENG_UCTRL p) ENG_UCTRL.AUTO false).wr (ENG_USTAT p)
    ((s1.rd (ENG_USTAT p) &&& ~~~ 0x7#32) ||| 4#32)).emitUnit p evLofStart

/-- A force command ends the self-test or the recalibration of unit `p` (R245). -/
def State.endProc (s : State) (p : Nat) : State :=
  if (s.unit p).mea.proc = .none then s
  else
    ((s.modUnit p (fun u => { u with mea := { u.mea with proc := .none } })).flag (MEA_U_STAT p) MEA_U_STAT.PROC false).flag
      (MEA_U_ST p) MEA_U_ST.ABORTED true

/-! ### The player -/

/-- The time that the sequence timebase of region `t` has stood still: PRF_STALL and the present stall (R181). -/
def State.stalled (s : State) (t : Nat) : Nat :=
  s.rd64 (PRF_STALL_LO t) + (if s.is (PRF_STAT t) PRF_STAT.STALLED then s.now - (s.player t).stallFrom else 0)

/-- Sequence time of region `t` (R181). -/
def State.seqTime (s : State) (t : Nat) : Nat := s.now - s.stalled t

/-- Tracks of a sample, W (R169). -/
def State.tracks (s : State) (t : Nat) : Nat := s.rdF (PRF_CTRL t) PRF_CTRL.WF_TRACKS + 1

/-- The track that unit `p` follows (R188). -/
def State.trackOf (s : State) (p : Nat) : Nat :=
  let k := s.rdF (PRF_UCTRL p) PRF_UCTRL.TRACK
  if k < s.tracks (p / 16) then k else 0

/-- The waveform contribution of unit `p` (R169). -/
def State.wfPart (s : State) (p : Nat) : Int :=
  if s.is (PRF_UCTRL p) PRF_UCTRL.WF_EN then
    roundFree (signed 16 (s.rdF (PRF_UCTRL p) PRF_UCTRL.WF_GAIN) * ((s.player (p / 16)).sample.getD (s.trackOf p) 0)) (2 ^ 14)
  else 0

/-- Unit `p` keeps the target that a stopping player leaves it, until CH_SETPT changes or WF_EN is cleared (R173). -/
def State.keepTarget (s : State) (p : Nat) : State :=
  if s.is (PRF_UCTRL p) PRF_UCTRL.WF_EN && (s.player (p / 16)).sample ≠ [] then
    s.modUnit p (fun u => { u with gen := { u.gen with keep := some (u.gen.setLat + s.wfPart p) } })
  else s

/-- The player of region `t` stops (R173): the present targets stay, a stall ends, and no request to it is pending any longer. -/
def State.playerStop (s0 : State) (t : Nat) : State :=
  let s := ((s0.each (unitsOf t) State.keepTarget).flag (PRF_CTRL t) PRF_CTRL.ABORT false).flag (PRF_WF_JUMP t) PRF_WF_JUMP.REQ false
  ((s.wr64 (PRF_STALL_LO t) (s.stalled t)).wr (PRF_STAT t) (s.rd (PRF_STAT t) &&& ~~~ (fldMask PRF_STAT.RUNNING |||
      fldMask PRF_STAT.WAITING ||| fldMask PRF_STAT.HOLDING ||| fldMask PRF_STAT.STALLED |||
      fldMask PRF_STAT.JUMP_PEND))).modPlayer t (fun x =>
    { x with sample := [], jump := none, abort := false, trigAt := none, episode := false,
             resumedAt := if s.is (PRF_STAT t) PRF_STAT.STALLED then s.now else x.resumedAt })

/-! ### The sequencer -/

/-- The sequencer of region `t` runs. -/
def State.seqRunning (s : State) (t : Nat) : Bool := s.is (SEQ_STAT t) SEQ_STAT.RUNNING

/-- The state of region `t`'s sequencer. -/
def State.seq (s : State) (t : Nat) : SeqState := (s.region t).seq

/-- The state with region `t`'s sequencer changed. -/
def State.modSeq (s : State) (t : Nat) (g : SeqState → SeqState) : State :=
  s.modRegion t (fun r => { r with seq := g r.seq })

/-- One step of a dither LFSR (R495). -/
def ditherNext (w : BitVec 16) : BitVec 16 := if w.getLsbD 0 then (w >>> 1) ^^^ 0xB400#16 else w >>> 1

/-- `n` steps of a dither LFSR. -/
def ditherTimes : Nat → BitVec 16 → BitVec 16
  | 0, w => w
  | n + 1, w => ditherTimes n (ditherNext w)

/-- The slices `js` of a cluster convert `n` times (R495). -/
def ClusterState.dither (c : ClusterState) (js : List Nat) (n : Nat) : ClusterState :=
  { c with lfsr := c.lfsr.zipIdx.map (fun x => if js.contains x.2 then ditherTimes n x.1 else x.1) }

/-- The handover that a tap reading in progress held back starts on cluster `k` (R238, R243). -/
def State.handoverStart (s : State) (k : Nat) : State :=
  let a := MEA_PIL_STAT (k / 4) (k % 4)
  (((s.modCluster k (fun c => { c with busy := true, only := false, tickWait := false, failed := false, phaseAt := s.now })).wrF a
    MEA_PIL_STAT.SLICE ((s.cluster k).next % 8))).wrF a MEA_PIL_STAT.PHASE 0

/-- The tap readings in progress for region `t` end (R199, R205, R243). -/
def State.tapsEnd (s : State) (t : Nat) : State :=
  s.each (indices 4 (fun c => (s.cluster (4 * t + c)).tickWait)) (fun s c => s.handoverStart (4 * t + c))

/-- The sequencer of region `t` stops (R207): no output moves. -/
def State.seqStop (s : State) (t : Nat) (lin : Nat := 0) (mark : Bool := true) : State :=
  if !s.seqRunning t then s
  else
    let s1 := (s.wr (SEQ_STAT t) ((s.rd (SEQ_STAT t) &&& ~~~ 0xF#32) ||| fldMask SEQ_STAT.QP)).modSeq t (fun q =>
      { q with foot := [], conf := none, stopReq := false, forceStop := false, hold := false, siteFault := false, buildAt := none, abortLin := none,
               late := [], gone := [], told := none, qpAt := s.now })
    let s2 := if mark then s1.emitRegion t evSeqStop lin else s1
    (s2.regionCause t causeSeq).tapsEnd t

end Sys2Proof.Machine
end

