-- ==== Sys2Proof/Machine/Foothold.lean ====
section
/-! DEFINITION. The footholds of a region's sequencer as the rest of the device meets them (06_step_sequencer_and_foothold.md): what
their commit waits for, the decision point of a commit (R202), squashes and their causes (R198, R205, R206). -/

namespace Sys2Proof.Machine

/-! ### What a commit waits for -/

/-- STRIG slot `n` of region `t` is set (R208). -/
def State.strig (s : State) (t n : Nat) : Bool := s.is (EVT_IN_STAT (t / 4) (0x100 * (t % 4) + n)) EVT_IN_STAT.PEND

/-- The trigger slots that the commit of a foothold consumes: its WAITT gates, and STRIG0 for WAIT_TRIG (R166, R208). -/
def Foothold.slots (f : Foothold) : List Nat :=
  indices 4 (fun n => bitOf f.waitt n || (n = 0 && (f.entry.map (fun e => bitOf e.flags 3)).getD false))

/-- The sequence time before which a foothold does not commit: WAITTM, and the idle dwell of enforcement (R194, R398). -/
def State.notBefore (s : State) (t : Nat) (f : Foothold) : Nat :=
  let idle := if 2 ≤ s.rdF (TMP_RGN t) TMP_RGN.ENF then s.rdN TMP_ENF_IDLE % 2 ^ 24 else 0
  (s.seq t).closeSeq + usTicks * max (f.waittm.getD 0) idle

/-- The earliest instant whose decision point, 4 ECLK cycles before, finds the foothold ready or in error, its trigger slots set and
the timebase resumed (R202, R208, R210, R211). -/
def State.decidedAt (s : State) (t : Nat) (f : Foothold) : Nat :=
  max (f.slots.foldl (fun a n => max a (mapGet 0 n (s.seq t).gateAt)) f.readyAt) (s.player t).resumedAt + leadTicks

/-- The boundary at which a foothold can commit (R202). -/
def State.commitAt (s : State) (t : Nat) (f : Foothold) : Nat :=
  nextMultiple (s.period t) (max (max s.now (s.decidedAt t f)) (s.notBefore t f + s.stalled t))

/-- The timebase stands at the decision point of boundary `b` (R202, R211). -/
def State.stalledAt (s : State) (t b : Nat) : Bool :=
  s.is (PRF_STAT t) PRF_STAT.STALLED && (s.player t).stallFrom + leadTicks ≤ b

/-- The foothold has all that a commit needs of it: built to its end or to its error, its trigger slots set (R202, R208, R210). -/
def State.commitReady (s : State) (t : Nat) (f : Foothold) : Bool :=
  (f.ready || f.err ≠ 0) && f.slots.all (fun n => s.strig t n) && !(s.seq t).siteFault && !s.stalledAt t (s.commitAt t f)

/-! ### The close of the confirmed step -/

/-- A window of the step numbered `n` with a length of its own has not closed yet (R201). -/
def State.windowPending (s : State) (t n : Nat) : Bool :=
  (unitsOf t).any (fun p => (s.unit p).mea.wins.any (fun v => v.step = n && v.len ≠ 0))

/-- The dwell of the confirmed step cannot run out while the timebase stands (R181, R201). -/
def State.dwellStalled (s : State) (t : Nat) (c : ConfStep) : Bool :=
  s.is (PRF_STAT t) PRF_STAT.STALLED && s.seqTime t < c.seqAt + c.dwell

/-- The boundary at which the confirmed step closes (R201, R205): the one that an abort or a fault fixed, or the first
at or after its dwell in sequence time. -/
def State.closeBoundary (s : State) (t : Nat) (c : ConfStep) : Nat :=
  match c.closing with
  | some (_, at') => s.effectAt t at'
  | none => nextMultiple (s.period t) (max s.now (c.seqAt + c.dwell + s.stalled t))

/-- The confirmed step closes CLEAN at boundary `b`, by its dwell alone (R201, R202); true where no step is open. -/
def State.closesClean (s : State) (t b : Nat) : Bool :=
  match (s.seq t).conf with
  | none => true
  | some c => c.closing = none && !c.cmpl && !(s.seq t).stopReq && !s.windowPending t c.num && !s.dwellStalled t c &&
      s.closeBoundary t c = b

/-- The commit at the next loop boundary is decided: the decision-point cycle lies behind, and found every condition of R202 met
(R206, R211). -/
def State.commitDecided (s : State) (t : Nat) : Bool :=
  let b := nextMultiple (s.period t) s.now
  match (s.seq t).foot with
  | [] => false
  | f :: _ => b < s.now + leadTicks - 1 && s.commitReady t f && s.commitAt t f = b && s.closesClean t b

/-! ### The values a step stages -/

/-- The value staged last for parameter `pm` of unit `p` (R195). -/
def Foothold.staged (f : Foothold) (p pm : Nat) : Option Nat :=
  (f.sets.filter (fun x => x.1 = pm && bitOf x.2.1 (p % 16))).getLast?.map (fun x => x.2.2)

/-- MODE of a sweep entry in the layout of CH_MODE (R165). -/
def entryMode (m : Nat) : Nat := m % 2 + 4 * (m / 2 % 4) + 16 * (m / 8 % 8)

/-- The entry of a foothold where it addresses unit `p`. -/
def Foothold.entryFor (f : Foothold) (p : Nat) : Option SweepEntry := if bitOf f.prog.umask (p % 16) then f.entry else none

/-- The CH_MODE value that the step asks for on unit `p` before any look-ahead (R166, R195); none where it asks for none. -/
def State.stepMode (s : State) (f : Foothold) (p : Nat) : Option Nat :=
  let base := s.rdN (CH_MODE p)
  let a := (f.staged p 2).map (fun v => modeValue base v)
  match f.entryFor p with
  | none => a
  | some e =>
    let x := a.getD base
    some (if bitOf e.mode 6 then x / 2 * 2 + e.mode % 2 else modeValue x (entryMode e.mode))

/-- The last range look-ahead of a foothold on unit `p`: its MIN and MAX, none for a unit that the step leaves in current force
(R199). -/
def State.lookAhead (s : State) (f : Foothold) (p : Nat) : Option (Nat × Nat) :=
  if ((s.stepMode f p).getD (s.rdN (CH_MODE p))) % 2 = 1 then none
  else (f.rnga.filter (fun r => bitOf r.1 (p % 16))).getLast?.map (fun r => r.2)

/-! ### Squashes -/

/-- A squash of every foothold of region `t`, with the cause's counter (R205, R206). -/
def State.squash (s : State) (t counter : Nat) : State :=
  if !s.seqRunning t then s
  else
    (((s.modSeq t (fun q =>
      { q with foot := [], gone := if q.goneAt / 2 = s.now / 2 then q.gone ++ q.foot else q.foot, goneAt := s.now })).bump counter
        1).wr (SEQ_STAT t)
      (s.rd (SEQ_STAT t) &&& ~~~ (fldMask SEQ_STAT.WAIT_BAR ||| fldMask SEQ_STAT.WAIT_HOST ||| fldMask SEQ_STAT.WAIT_GATE |||
        fldMask SEQ_STAT.QP))).tapsEnd t

/-- A cause asks the confirmed step of region `t` to close with an outcome (R205): FAULT (3) outranks ABORT (2), and the
earlier request, made at the instant `at'`, fixes the boundary. -/
def State.closeStep (s : State) (t outcome at' : Nat) : State :=
  s.modSeq t (fun q =>
    { q with
      hold := if q.conf = none then q.hold else true
      conf := q.conf.map (fun c =>
        { c with closing := some (match c.closing with
            | some (o, a) => (max o outcome, a)
            | none => (outcome, at')) }) })

/-- The units of the confirmed step, none where no step is open. -/
def State.confMask (s : State) (t : Nat) : Nat := ((s.seq t).conf.map ConfStep.umask).getD 0

/-- A cause of the instant `at'` applies to the footholds and to the confirmed step (R205). -/
def State.applyCause (s : State) (t : Nat) (c : SeqCause) (at' : Nat) : State :=
  match c with
  | .cmpl p =>
    let s1 := s.squash t (SEQ_SQ_CMPL t)
    if bitOf (s.confMask t) (p % 16) then s1.modSeq t (fun q => { q with hold := true }) else s1
  | .abort lin => ((s.squash t (SEQ_SQ_ABORT t)).modSeq t (fun q => { q with abortLin := some lin })).closeStep t 2 at'
  | .host => s.squash t (SEQ_SQ_HOST t)
  | .reconf => s.squash t (SEQ_SQ_RECONF t)
  | .fault mask =>
    let s1 := s.squash t (SEQ_SQ_FAULT t)
    if s.rdN (SEQ_UMASK t) &&& mask ≠ 0 then s1.closeStep t 3 at' else s1
  | .site => (s.squash t (SEQ_SQ_SITE t)).modSeq t (fun q => { q with siteFault := true, hold := true })

/-- A cause reaches the sequencer of region `t` (R205, R206): after the decision point of a commit it waits for the step that commits;
a stopped sequencer it leaves alone. -/
def State.seqCause (s : State) (t : Nat) (c : SeqCause) : State :=
  if !s.seqRunning t then s
  else if s.commitDecided t then s.modSeq t (fun q => { q with late := q.late ++ [(c, s.now)] })
  else s.applyCause t c s.now

/-- The causes that waited for a commit apply to the step that has committed (R206). -/
def State.lateCauses (s : State) (t : Nat) : State :=
  (s.modSeq t (fun q => { q with late := [] })).each (s.seq t).late (fun s x => s.applyCause t x.1 x.2)

/-- A reaction of severity 2 or higher covers the units `mask` of region `t` (R205): every foothold is squashed, and the
confirmed step closes with outcome FAULT when the reaction covers a unit of its UMASK. -/
def State.faultSquash (s : State) (t mask : Nat) : State := s.seqCause t (.fault mask)

/-- Whether two spans of memory meet. -/
def spansMeet (a n b m : Nat) : Bool := a < b + m && b < a + n

/-- Register `a` lies in the read set of a foothold (R198). -/
def Foothold.readsReg (f : Foothold) (a : Nat) : Bool := f.regs.contains a || f.oldRegs.contains a

/-- The `n` bytes at BAR2 offset `a` meet the read set of a foothold (R198). -/
def Foothold.readsMem (f : Foothold) (a n : Nat) : Bool := (f.mem ++ f.oldMem).any (fun m => spansMeet m.1 m.2 a n)

/-- A host write to the registers or the memory of a foothold's read set squashes (R198): `hits` says whether the write
reaches a foothold's set. Footholds squashed in the same ECLK cycle count (R211). -/
def State.hostSquash (s : State) (t : Nat) (hits : Foothold → Bool) : State :=
  let q := s.seq t
  if (q.foot ++ (if q.goneAt / 2 = s.now / 2 then q.gone else [])).any hits then s.seqCause t .host else s

/-- The squash of a host write to register `a` (R198): the SEQ_ registers of a region and CH_MODE of a unit. -/
def State.regSquash (s : State) (a : Nat) : State :=
  match blockOf a with
  | some (.seq, t, _) => s.hostSquash t (fun f => f.readsReg a)
  | some (.unit, p, 4) => s.hostSquash (p / 16) (fun f => f.readsReg a)
  | _ => s

end Sys2Proof.Machine
end

