-- ==== Sys2Proof/Machine/Faults.lean ====
section
/-! DEFINITION. The fault hub (14_faults_availability_life.md): an occurrence and its reaction in one operation, `raise`
(R418 to R425), the restart's first phase (R434), stops and conditions of the availability promise (R442, R443). -/

namespace Sys2Proof.Machine

/-! ### Instances and domains -/

/-- Units in an instance of level 0 unit, 1 cluster, 2 region, 3 die, 4 package. -/
def levelSize (l : Nat) : Nat := 4 ^ l

/-- The number of the instance of level `l'` that contains instance `i` of level `l`, for `l ≤ l'`. -/
def instUp (l i l' : Nat) : Nat := i * levelSize l / levelSize l'

/-- Instance `(l, i)` lies within the domain `(L, I)`; another package (level 5) lies in no domain of this one. -/
def within (l i L I : Nat) : Bool := l ≤ L && L < 5 && instUp l i L == I

/-- The units of an instance; none of this package for another package. -/
def unitsIn (l i : Nat) : List Nat :=
  if l < 5 then (List.range (levelSize l)).map (fun u => i * levelSize l + u) else []

/-- The regions that an instance lies in or contains (R418: NOTIFY). -/
def regionsIn (l i : Nat) : List Nat :=
  if l ≤ 2 then [instUp l i 2]
  else if l = 3 then (List.range 4).map (fun g => 4 * i + g)
  else List.range 16

/-- The level at which a severity reacts (R419). -/
def sevLevel (sev : Nat) : Nat := sev - 2

/-- The reaction domain of an occurrence at instance `(l, i)` (R419). -/
def domainOf (sev l i : Nat) : Nat × Nat :=
  if 5 ≤ l then (4, 0) else if sevLevel sev ≤ l then (l, i) else (sevLevel sev, instUp l i (sevLevel sev))

/-- The unit lies in a reaction shadow, or a thermal shutdown is in force (R404). -/
def State.underReaction (s : State) (p : Nat) : Bool :=
  s.hub.shadows.any (fun h => within 0 p h.level h.inst) || s.is TMP_SHUT TMP_SHUT.SHUT

/-- The unit lies in a reaction shadow, or a safe reaction is under way on it (R79, R138); or a thermal shutdown is in force
(R404). -/
def State.covered (s : State) (p : Nat) : Bool := s.underReaction p || (s.unit p).safe ≠ .none

/-! ### The availability promise -/

/-- A condition of R442 is breached: EVER and RECENT, with the event. -/
def State.breach (s : State) (c : Nat) : State :=
  (((s.wrBit LIFE_COND c true).wrBit LIFE_COND (8 + c) true).modHub (fun h =>
    { h with breaches := mapPut 0 c s.now h.breaches })).emitHub 0x09

/-- No condition of the promise stands against counting a stop (R443): no recent breach, none of the mean temperature. -/
def State.promised (s : State) : Bool := s.rdF LIFE_COND LIFE_COND.RECENT = 0 && !s.bit LIFE_COND 2

/-- Whether a stop of source `n` counts against the promise (R443): not EXT, not of a severity that PF0 set above the default, its
first cause not injected, and the promise holds. -/
def State.stopCounts (s : State) (k : FaultKind) (n sev : Nat) : Bool :=
  !k.ext && !(k.dflt < sev && sev ≠ getFld (s.resetVal (FLT_SRC_CFG n)) FLT_SRC_CFG.SEV) &&
    !s.is (FLT_SRC_STAT n) FLT_SRC_STAT.INJ && s.promised

/-- A stop is recorded (R443): counted or excluded, in the stop log and as the last stop. -/
def State.recordStop (s : State) (n inst : Nat) (counted : Bool) : State :=
  let s1 := s.modHub (fun h =>
    { h with stops := h.stops ++ [{ src := n, inst := inst, start := s.now, counted := counted }] })
  let s2 := (s1.wrN LIFE_LAST_STOP (n + 2 ^ 16 * (inst % 256) + 2 ^ 31)).wr64 LIFE_LAST_STOP_TS_LO s.now
  if counted then (s2.bump LIFE_STOPS 1).emitHub 0x08 else s2.bump LIFE_STOPS_X 1

/-! ### Reactions -/

/-- The severity that governs an occurrence of source `n` now, 7 acting as 6 (R448): one that the host writes governs from the PCLK
cycle after the write (R416). -/
def State.sevOf (s : State) (n : Nat) : Nat :=
  min 6 (getFld (if s.hostWrote (FLT_SRC_CFG n) then s.rdCyc (FLT_SRC_CFG n) else s.rd (FLT_SRC_CFG n)) FLT_SRC_CFG.SEV)

/-- The units of a mask in region `t`, as a mask of region-local units. -/
def maskIn (t : Nat) (ps : List Nat) : Nat :=
  (List.range 16).foldl (fun m u => if ps.contains (16 * t + u) then m + 2 ^ u else m) 0

/-- The regions that some of the units belong to. -/
def regionsTouched (ps : List Nat) : List Nat := indices 16 (fun t => maskIn t ps ≠ 0)

/-- The units take their safe path; a feedback fault at severity 2 is carried out by the SAFE sequence (R146). -/
def State.safeUnits (s : State) (ps : List Nat) (immediate feedback : Bool) : State :=
  s.each ps (fun s p =>
    if feedback && !immediate then
      if !s.drives p then s.openNow p
      else if s.rdF (ENG_UCTRL p) ENG_UCTRL.LOF = 2 then s.openNow p
      else if (s.unit p).eng.lof ≠ .none || (s.unit p).safe ≠ .none then s.startRamp p
      else s.lofSafe p
    else s.safePath p immediate)

/-- The interrupts and squashes of a reaction of severity 2, 3, 5 or 6 on the units `ps`. -/
def State.safeEffects (s : State) (ps : List Nat) : State :=
  s.each (regionsTouched ps) (fun s t => (s.faultSquash t (maskIn t ps)).regionCause t causeSafe)

/-- Measurement windows of the units of region `t` end without a close job (R227). -/
def State.dropWindows (s : State) (t : Nat) : State :=
  s.each (unitsOf t) (fun s p => s.modUnit p (fun u => { u with mea := { u.mea with wins := [] } }))

/-- The state whose slot holds the image `bs`, or none for the empty list: IMG_SLOTINFO and IMG_SEQ follow (R373, R391). -/
def State.setSlot (s : State) (target slot : Nat) (bs : List (BitVec 8)) : State :=
  ((s.modNvm (fun n => { n with slots := mapPut [] (2 * target + slot) bs n.slots })).wrBit (IMG_SLOTINFO target) slot
    (bs ≠ [])).wrN ((if slot = 0 then IMG_SEQ_A else IMG_SEQ_B) target) (byteField bs 12 4)

/-- The loader has no operation in progress any more. -/
def State.imgIdle (s : State) : State :=
  (s.modHub (fun h => { h with imgOp := none })).wr IMG_STAT
    (s.rd IMG_STAT &&& ~~~ (fldMask IMG_STAT.BUSY ||| fldMask IMG_STAT.PHASE ||| fldMask IMG_STAT.WAIT_IDLE))

/-- A loader operation's code is reported (R389, R467, R493). -/
def State.imgResult (s : State) (code : Nat) : State :=
  let s1 := (s.wrF IMG_STAT IMG_STAT.RESULT code).setCause 0 causeImage
  if code = 0 then s1 else (s1.bump IMG_FAIL_CNT 1).emitHub 0xB1

/-- A restart of region `t` meets an APPLY or a WRITE_SLOT for it, which ends with code 13: the APPLY's request is withdrawn, the slot
is left empty (R373, R383). -/
def State.cutLoad (s : State) (t : Nat) : State :=
  match s.hub.imgOp with
  | some x =>
    if x.target ≠ t then s
    else if x.op = 3 then
      ((s.flag (SEQ_STAT t) SEQ_STAT.RECONF false).modHub (fun h => { h with cuts := h.cuts ++ [t] })).imgIdle.imgResult 13
    else if x.op = 2 then (s.setSlot t x.slot []).imgIdle.imgResult 13
    else s
  | none => s

/-- Phase 1 of a restart of region `t` (R434), unless the region restarts already (R466). Its producers issue nothing from here on
(R333). -/
def State.restartPhase1 (s : State) (t : Nat) (immediate ecc : Bool) : State :=
  if s.restarting t then s
  else
    let s1 := (s.emit (t / 4) (0xC30 + t % 4) s.now).bump (RGN_RST_CNT t) 1
    let s2 := (s1.wrF (RGN_INFO t) RGN_INFO.STATE 3).wrF (IMG_RGN_STAT t) ⟨0, 2⟩ 3
    let s3 := s2.modRegion t (fun r => { r with restart := 1, restartEcc := ecc })
    let s4 := ((s3.safeUnits (unitsOf t) immediate false).faultSquash t 0xFFFF).playerStop t
    ((s4.dropWindows t).regionCause t causeRestart).cutLoad t

/-- Sequencers and players of the regions stop without taking a vector (R418): a confirmed step, or one whose commit is decided, closes
first, with outcome FAULT and its windows early (R201, R227). -/
def State.stopRegions (s : State) (ts : List Nat) : State :=
  s.each ts (fun s t =>
    let s1 :=
      if !s.seqRunning t then s
      else if (s.seq t).conf = none && !s.commitDecided t then s.seqStop t
      else (s.closeStep t 3 s.now).modSeq t (fun q => { q with forceStop := true })
    s1.playerStop t)

/-- Every unit of die `d` is in its safe state. -/
def State.dieSafe (s : State) (d : Nat) : Bool := (unitsIn 3 d).all (fun p => !s.closed p && (s.unit p).safe = .none)

/-- A reaction of severity 5 or 6 covers die `d`, or a thermal shutdown is in force (R298, R404). -/
def State.dieReaction (s : State) (d : Nat) : Bool :=
  s.is TMP_SHUT TMP_SHUT.SHUT || s.hub.shadows.any (fun h => 5 ≤ h.sev && within 3 d h.level h.inst)

/-- The site-select port of a die drives SEN low once every unit of the die is in its safe state under a reaction of
severity 5 or 6 or in a thermal shutdown (R298, R404). -/
def State.senSettle (s : State) : State :=
  s.each (List.range 4) (fun s d =>
    if s.dieReaction d && s.dieSafe d then s.modDie d (fun x =>
        { x with sen := false, lastPat := x.lastPat.map (fun l => l.map (fun y => (y.1, false))) }) else s)

/-! ### ROPE ports -/

/-- The package number on the chain (R61). -/
def State.pkgNum (s : State) : Nat := s.rdF HUB_ALN_STAT HUB_ALN_STAT.PKG_NUM

/-- The package sends slots and markers on its DOWN port: not package 15, nor one beyond it (R61). -/
def State.sendsDown (s : State) : Bool := s.pkgNum ≠ 15 && !s.is HUB_ALN_STAT HUB_ALN_STAT.CHAIN_LONG

/-- A slot that arrives on DOWN at package 15 is discarded (R61). -/
def State.slotDiscarded (s : State) (port : Nat) : Bool := s.pkgNum = 15 && port = 1

/-- ROPE port `p`. -/
def State.ropePort (s : State) (p : Nat) : RopePort := mapGet {} p s.hub.rope

/-- The state with ROPE port `p` changed. -/
def State.modRope (s : State) (p : Nat) (g : RopePort → RopePort) : State :=
  s.modHub (fun h => { h with rope := mapPut {} p (g (s.ropePort p)) h.rope })

/-- What tells the reports of one source from those of another, of the slots of class 0: source package and source number of a fault
slot, 16 and the pool of an audit slot; a slot of another class has none. -/
def RopeSlot.class0 : RopeSlot → Option (Nat × Nat)
  | .fault pkg src _ _ _ => some (pkg, src)
  | .audit pool _ _ _ => some (16, pool)
  | _ => none

/-- A slot waits for a class 0 credit: a report of the same source merges into the waiting one (R347). -/
def addFault (x : RopeSlot) (l : List RopeSlot) : List RopeSlot :=
  l.filter (fun y => y.class0 ≠ x.class0) ++ [x]

/-- Of the slots of class 0 that wait on a port, the first whose source has no report in flight (R347). -/
def RopePort.next0 (y : RopePort) : Option RopeSlot :=
  y.wait0.find? (fun x => !y.sent0.any (fun z => z.class0 = x.class0))

/-- A fault, audit or management slot leaves on port `p` (R353 to R356): with a credit of its class at once, without one it waits; at
a link that is down it is discarded and counted. A report of a source that has the same report in flight or waiting merges into it, a
newer one waits until the first has been consumed (R347, R360). Package 15 sends none on DOWN (R61). -/
def State.ropePut (s : State) (p : Nat) (x : RopeSlot) : State :=
  if p = 1 && !s.sendsDown then s
  else if !s.is (ROPE_STAT p) ROPE_STAT.LINK_UP then s.bump (ROPE_BADSLOT p) 1
  else
    let y := s.ropePort p
    if x.class0 ≠ none then
      if ((y.sent0 ++ y.wait0).filter (fun z => z.class0 = x.class0)).getLast? = some x then s
      else if 0 < y.cred0 && !y.sent0.any (fun z => z.class0 = x.class0) then
        (s.modRope p (fun y => { y with cred0 := y.cred0 - 1, sent0 := y.sent0 ++ [x] })).ropeSend p x
      else s.modRope p (fun y => { y with wait0 := addFault x y.wait0 })
    else if 0 < y.cred3 then (s.modRope p (fun y => { y with cred3 := y.cred3 - 1 })).ropeSend p x
    else s.modRope p (fun y => { y with wait3 := y.wait3 ++ [x] })

/-- A fault report on both ROPE ports (R354, R418). -/
def State.ropeReport (s : State) (sev n : Nat) : State :=
  let x := RopeSlot.fault s.pkgNum n sev (s.is (FLT_SRC_STAT n) FLT_SRC_STAT.LIVE) (s.rd64 (FLT_FIRST_TS_LO n))
  (s.ropePut 0 x).ropePut 1 x

/-- The new shadow of a reaction replaces every shadow of lower severity that it overlaps (R425). -/
def addShadow (x : Shadow) (l : List Shadow) : List Shadow :=
  x :: l.filter (fun h =>
    !(h.sev < x.sev && (within h.level h.inst x.level x.inst || within x.level x.inst h.level h.inst)))

/-- The units of a domain that a reaction of severity `sev` reaches: those in no shadow of equal or higher severity
(R425). -/
def State.reached (s : State) (sev l i : Nat) : List Nat :=
  (unitsIn l i).filter (fun p => !s.hub.shadows.any (fun h => sev ≤ h.sev && within 0 p h.level h.inst))

/-- Sources that no shadow makes consequential (R425). -/
def neverShadowed (k : FaultKind) : Bool := k == .thermShutdown || k == .pllUnlock || k == .supplyReset

/-- The reaction of severity `sev` of source `n` to an occurrence at `(l, i)` (R418, R423, R425). CREDIT_AUDIT_P restarts no region
(R359). -/
def State.react (s : State) (k : FaultKind) (n sev l i : Nat) : State :=
  let immediate := s.is (FLT_SRC_CFG n) FLT_SRC_CFG.PATH
  let dom := domainOf sev l i
  let ps := if neverShadowed k then unitsIn dom.1 dom.2 else s.reached sev dom.1 dom.2
  let feedback := sev = 2 && (k == .feedbackFrozen || k == .feedbackImplausible)
  let counts := s.stopCounts k n sev
  let pos := s.hub.stops.length
  let shadow (lv it : Nat) (stop : Option Nat) (s : State) : State :=
    s.modHub (fun h => { h with shadows := addShadow { level := lv, inst := it, sev := sev, src := n, start := s.now, stop := stop } h.shadows })
  if sev ≤ 1 then s
  else if sev ≤ 3 then
    let s1 := (shadow dom.1 dom.2 none s).safeUnits ps immediate feedback
    let s2 := s1.safeEffects ps
    if k.ext then s2 else s2.bump LIFE_CH_STOPS 1
  else if sev = 4 then
    if k == .creditAuditP then s else
    s.each ((regionsIn dom.1 dom.2).filter (fun t => ps.any (fun p => p / 16 = t))) (fun s t =>
      if s.restarting t then s
      else
        (shadow 2 t (some s.hub.stops.length) (s.recordStop n t counts)).restartPhase1 t immediate (k == .sramUncorr))
  else
    let s1 := (shadow dom.1 dom.2 (some pos) (s.recordStop n i counts)).safeUnits ps immediate false
    let s2 := ((s1.safeEffects ps).stopRegions (regionsTouched ps)).senSettle
    if sev = 6 then s2.ropeReport sev n else s2

/-- The cause word of R420. -/
def causeWord (l i detail : Nat) : Nat := i % 256 + 256 * l + 65536 * (detail % 65536)

/-- The last occurrence of source `n`. -/
def State.occ (s : State) (n : Nat) : Occ := mapGet {} n s.hub.occ

/-- The state with it replaced. -/
def State.setOcc (s : State) (n : Nat) (o : Occ) : State := s.modHub (fun h => { h with occ := mapPut {} n o h.occ })

/-- The latching of an occurrence of severity `sev` (R420). -/
def State.latchSource (s : State) (n cause sev : Nat) (live conseq inj : Bool) : State :=
  let a := FLT_SRC_STAT n
  let first := !s.is a FLT_SRC_STAT.LATCHED
  let s0 := s.setOcc n { at' := s.now, conseq := conseq, inj := inj, sev := if first then sev else (s.occ n).sev }
  let s1 := (s0.bumpSat a FLT_SRC_STAT.COUNT 1).wrN (FLT_LAST_CAUSE n) cause
  let s2 := (s1.flag a FLT_SRC_STAT.LATCHED true).flag a FLT_SRC_STAT.LIVE (live || s.is a FLT_SRC_STAT.LIVE)
  if first then
    (((s2.wrN (FLT_FIRST_CAUSE n) cause).wr64 (FLT_FIRST_TS_LO n) s.now).flag a FLT_SRC_STAT.CONSEQ conseq).flag a
      FLT_SRC_STAT.INJ inj
  else s2

/-- The severity of an occurrence of kind `k` at `(l, i)`: in a region in nightlight mode the source's default (R385). -/
def State.sevAt (s : State) (k : FaultKind) (n l i : Nat) : Nat :=
  if l ≤ 2 && s.nightlight (instUp l i 2) then k.dflt else s.sevOf n

/-- An occurrence of kind `k` on die `d` (any number for a hub kind), at the instance `(l, i)` with a DETAIL (R12, R420 to R425);
`live` says that its condition persists, `sevAs` that the severity acts as another (R427). -/
def State.occurs (s : State) (k : FaultKind) (d l i : Nat) (detail : Nat := 0) (live : Bool := false)
    (sevAs : Option Nat := none) : State :=
  let n := srcNum k d
  let sev := sevAs.getD (s.sevAt k n l i)
  let inj := s.hub.injected
  let conseq := !neverShadowed k && s.hub.shadows.any (fun h => within l i h.level h.inst)
  let s1 := (s.modHub (fun h => { h with injected := false })).latchSource n (causeWord l i detail) sev live conseq inj
  let s2 := s1.emitHub sev
  let s3 := if k.atHub then s2 else s2.emit d (0xC28 + sev) s.now
  if conseq then s3.bump (FLT_CONSEQ_CNT n) 1
  else
    let s4 := if 1 ≤ sev then s3.each (regionsIn l i) (fun s t => s.regionCause t causeNotify) else s3
    s4.react k n sev l i

/-- IMG_LOAD_FAIL is raised for the APPLYs that a restart has cut short (R383). -/
def State.cutReports (s : State) : State :=
  (s.modHub (fun h => { h with cuts := [] })).each s.hub.cuts (fun s t => s.occurs .imgLoadFail 0 2 t)

/-- One report of a fault: its occurrence, and those of the loads that its reaction cuts short. -/
def State.report (s : State) (k : FaultKind) (d l i : Nat) (detail : Nat := 0) (live : Bool := false)
    (sevAs : Option Nat := none) : State := (s.occurs k d l i detail live sevAs).cutReports

/-- ARM arms what FLT_INJ_SEL selects (R431); a reserved checker or block arms nothing. On ROPE, whose frames never stop, the next
frame takes the inversion at once. -/
def State.arm (s : State) : State :=
  let c := s.rdF FLT_INJ_SEL FLT_INJ_SEL.CHECKER
  let g := s.rdF FLT_INJ_SEL FLT_INJ_SEL.TARGET
  if 6 ≤ c || (c = 2 && 12 < g % 256 && g % 256 ≠ 16) then s
  else if c = 4 then
    (s.modHub (fun h => { h with ropeInj := withBit h.ropeInj (g % 2) })).flag FLT_INJ_CTRL FLT_INJ_CTRL.DONE true
  else
    (s.modHub (fun h =>
      { h with inject := some { checker := c, die := s.rdF FLT_INJ_SEL FLT_INJ_SEL.DIE, target := g
                                mode := s.rdF FLT_INJ_CTRL FLT_INJ_CTRL.MODE } })).flag FLT_INJ_CTRL FLT_INJ_CTRL.ARM true

/-- The armed inversion is consumed (R431); a write of ARM in the same cycle arms anew (R9). -/
def State.injectDone (s : State) : State :=
  let s1 := ((s.modHub (fun h => { h with inject := none })).flag FLT_INJ_CTRL FLT_INJ_CTRL.ARM false).flag FLT_INJ_CTRL
    FLT_INJ_CTRL.DONE true
  if s.askedAgain FLT_INJ_CTRL FLT_INJ_CTRL.ARM then s1.arm else s1

/-- A transfer of die `d`'s spine has passed its check: the failures in a row end (R350). -/
def State.spinePassed (s : State) (d : Nat) : State :=
  if (s.die d).spineFails = 0 then s else s.modDie d (fun x => { x with spineFails := 0 })

/-- A transfer on the spine of die `d` in direction `dir`, 0 die to hub and 1 hub to die: an armed inversion makes it fail its
check, and it is replayed (R350, R431). -/
def State.spineXfer (s0 : State) (d dir : Nat) : State :=
  let s := s0.spinePassed d
  match s.hub.inject with
  | some j =>
    if j.checker = 3 && j.die = d && j.target % 2 = dir then
      ((s.injectDone.modHub (fun h => { h with injected := true })).bump (DIE_SPINE_CRC d) 1).report .spineCrc d 3 d
    else s
  | none => s

/-- The dies that the hub commands to react to an occurrence (R418, R431): those of its reaction domain, but a die source's own. -/
def State.commanded (s : State) (k : FaultKind) (d l i : Nat) (sevAs : Option Nat) : List Nat :=
  let sev := sevAs.getD (s.sevAt k (srcNum k d) l i)
  let dom := domainOf sev l i
  if sev ≤ 1 || (!neverShadowed k && s.hub.shadows.any (fun h => within l i h.level h.inst)) then []
  else (List.range 4).filter (fun e => (k.atHub || e ≠ d) && (4 ≤ dom.1 || instUp dom.1 dom.2 3 = e))

/-- The device raises a fault: its report, which a die source sends over its spine, and the hub's commands to the dies that react. -/
def State.raise (s : State) (k : FaultKind) (d l i : Nat) (detail : Nat := 0) (live : Bool := false)
    (sevAs : Option Nat := none) : State :=
  let s1 := s.report k d l i detail live sevAs
  (if k.atHub then s1 else s1.spineXfer d 0).each (s.commanded k d l i sevAs) (fun s e => s.spineXfer e 1)

/-- A fault of unit `p`. -/
def State.raiseUnit (s : State) (k : FaultKind) (p : Nat) (detail : Nat := 0) (live : Bool := false) : State :=
  s.raise k (p / 64) 0 p detail live

/-- A fault of region `t`. -/
def State.raiseRegion (s : State) (k : FaultKind) (t : Nat) (detail : Nat := 0) (live : Bool := false) : State :=
  s.raise k (t / 4) 2 t detail live

/-- A fault of the package. -/
def State.raisePkg (s : State) (k : FaultKind) (detail : Nat := 0) (live : Bool := false) : State :=
  s.raise k 0 4 0 detail live

/-- An event of producer `prod` is not issued: it would take lineage 8 (R329). -/
def State.eventLoop (s : State) (d prod : Nat) : State :=
  (((s.bump (EVT_LOOP_CNT d) 1).wrN (EVT_LOOP_LAST d) prod).flag (EVT_STAT d) EVT_STAT.LOOP true).raise .eventLoop d 3 d

/-- An event caused by another (R329): `lin` is the lineage it takes, 0 for one that no input caused. At lineage 8 it is not
issued. -/
def State.emitCaused (s : State) (d prod t lin : Nat) : State := if lin < 8 then s.emit d prod t lin else s.eventLoop d prod

/-- The lineage that events take whose cause is an event of lineage `lin` on input `i` of die `d` (R329, R330). -/
def State.causedLin (s : State) (d i lin : Nat) : Nat :=
  if s.is (EVT_IN_CFG d i) EVT_IN_CFG.RING then lin else lin + 1

/-- The condition of a source is absent (R420). -/
def State.unlive (s : State) (k : FaultKind) (d : Nat) : State := s.flag (FLT_SRC_STAT (srcNum k d)) FLT_SRC_STAT.LIVE false

/-! ### Host writes -/

/-- The die whose blocks hold register `a`. -/
def dieOf (a : Nat) : Option Nat := if a < 0x1000000 then none else some (a / 0x1000000 - 1)

/-- The spine of die `d` is down: its retraining has failed three times (R350). -/
def State.spineDown (s : State) (d : Nat) : Bool := s.is (FLT_SRC_STAT (srcNum .spineDown d)) FLT_SRC_STAT.LIVE

/-- A spine outage of die `d`: from its first retrain attempt until the link is up again (R350). -/
def State.spineOut (s : State) (d : Nat) : Bool := s.is (FLT_SRC_STAT (srcNum .spineRetrain d)) FLT_SRC_STAT.LIVE

/-- The region whose block holds register `a` (R385). -/
def blockRegion (a : Nat) : Option Nat :=
  match blockOf a with
  | some (.unit, p, _) => some (p / 16)
  | some (.rgn, t, _) | some (.seq, t, _) | some (.eng, t, _) | some (.prf, t, _) | some (.mea, t, _) | some (.rdc, t, _) => some t
  | _ => none

/-- A write to a block of region `t` in nightlight mode (R385): W1C bits clear, START sets START_IGN, nothing else happens. -/
def State.nightWrite (s : State) (t a : Nat) (v : Word) : State :=
  if a = SEQ_CTRL t then
    (if getFld v SEQ_CTRL.START = 1 then s.flag (SEQ_STAT t) SEQ_STAT.START_IGN true else s)
  else if a = PRF_CTRL t then
    (if getFld v PRF_CTRL.START = 1 then s.flag (PRF_STAT t) PRF_STAT.START_IGN true else s)
  else
    match regRow a with
    | some r => s.w1c a (w32 r.w1c) v
    | none => s

/-- A host write that reaches the block of register `a`: ignored in nightlight mode but for requests of MEA_REQ (R385), else
carried out by `k` after the squash of every foothold that read the register. -/
def State.reachWrite (s : State) (a : Nat) (v : Word) (k : State → State) : State :=
  match blockRegion a with
  | some t => if s.nightlight t && a ≠ MEA_REQ t then s.nightWrite t a v else k ((s.wroteNow a v).regSquash a)
  | none => k ((s.wroteNow a v).regSquash a)

/-- An access waits for the end of the outage of die `d`'s spine: it changes nothing (R30). -/
def State.spineHold (s : State) (d : Nat) (x : SpineAcc) : State :=
  s.modHub (fun h => { h with spineWait := h.spineWait ++ [(d, x)] })

/-- An access of function `f` is in flight to a die (R463). -/
def State.inFlight (s : State) (f : Nat) : Bool := s.hub.spineWait.any (fun x => x.2.fn = f)

/-- FENCED of the fenced functions whose last access in flight has completed (R463). -/
def State.fenceSettle (s : State) : State :=
  s.each ((List.range 8).filter (fun f => s.is (HUB_FN_CTRL f) HUB_FN_CTRL.FENCE && !s.inFlight f)) (fun s f =>
    s.flag (HUB_FN_CTRL f) HUB_FN_CTRL.FENCED true)

/-- A host write to register `a` by function `f`: refused and logged; discarded with REG_TMO at a die whose spine is down
(R350); waiting in an outage before that (R30); or carried out by `k` after the squash of every foothold that read the
register. -/
def State.hostWrite (s : State) (f a : Nat) (v : Word) (k : State → State) : State :=
  s.guardWrite f a v (fun s =>
    match dieOf a with
    | none => s.reachWrite a v k
    | some d =>
      if s.spineDown d then s.flag DMA_STAT DMA_STAT.REG_TMO true
      else if s.spineOut d then s.spineHold d (.write f a v)
      else (s.spineXfer d 1).reachWrite a v k)

/-! ### "Image" registers -/

/-- The bits of register `o` of a block that are writable and whose reset column reads "image" (the register tables of every
chapter); those that are not writable stand in the tables' `img` column. -/
def rwImage (b : Block) (o : Nat) : Nat :=
  match b with
  | .eng =>
    if o = 0 then 7
    else if 0x100 ≤ o && o < 0x200 && 0x10 ≤ o % 0x20 then (if o % 0x20 = 0x1C then 0xF else 0xFFFFFF)
    else if 0x400 ≤ o && 0x10 ≤ o % 0x80 && o % 0x80 < 0x38 then (if o % 0x80 = 0x2C then 0xFFF else 0xFFFFFF)
    else 0
  | .prf =>
    if 0x1000 ≤ o then (if o % 0x10 = 0 then 0xFFFFFF else if o % 0x10 = 4 then 0xFFFFFFFF else if o % 0x10 = 8 then 0x7FFF else 0)
    else 0
  | .mea => if 0x40 ≤ o && o < 0x140 then (if o % 0x10 = 0 then 0xF0F else if o % 0x10 < 0xC then 0xFFFFFF else 0) else 0
  | .rdc => if 0x800 ≤ o && o < 0x1000 then 0xFFFFFFFF else 0
  | .site =>
    if 0x400 ≤ o && o < 0x800 then
      (if o % 0x100 = 4 then 0xFFFFFFFF else if o % 0x100 = 8 then 0x3FFF0F1F
       else if 0x40 ≤ o % 0x100 && o % 0x100 < 0x80 then 0xFCFF7777 else 0)
    else 0
  | .flt => if 0x1000 ≤ o && o % 0x20 = 0 && kindOf ((o - 0x1000) / 0x20) ≠ none then 7 else 0
  | _ => 0

/-- The bits of the register at BAR0 offset `a` whose reset value an image sets (R31, R379); CH_BST reads 0 but on unit 0 (R112). -/
def imageMask (a : Nat) : Word :=
  match blockOf a, regRow a with
  | some (b, k, o), some r => if b = .unit && o = 0x40 && k % 16 ≠ 0 then 0#32 else w32 (r.img ||| rwImage b o)
  | _, _ => 0#32

/-- Register `a` is one that a region image of target `t` may set: its own blocks' and its own consumer inputs' (R369, R371). -/
def regionScope (t a : Nat) : Bool :=
  match blockOf a with
  | some (.evt, d, o) => d = t / 4 && 0x2000 ≤ o && o < 0x6000 && (o - 0x2000) / 0x1000 = t % 4
  | some (.rgn, _, _) => false
  | _ => blockRegion a = some t

/-- Register `a` is one that the package image may set: no region's (R369, R371). -/
def packageScope (a : Nat) : Bool :=
  blockRegion a = none && (List.range 16).all (fun t => !regionScope t a)

/-! ### Summaries -/

/-- One bit per severity with a latched source: FLT_SEV_PEND (R447), from the sources listed. -/
def State.sevPend (s : State) : Nat :=
  (List.range 6).foldl (fun m j =>
    if s.regs.any (fun r =>
        FLT_SRC_CFG 0 ≤ r.1 && r.1 < FLT_SRC_CFG 545 && (r.1 - FLT_SRC_CFG 0) % 0x20 = 4 && bitOf r.2.toNat 1
          && s.sevOf ((r.1 - FLT_SRC_CFG 0) / 0x20) = j + 1)
    then m + 2 ^ (j + 1) else m) 0

end Sys2Proof.Machine
end

