-- ==== Sys2Proof/Machine/Ecc.lean ====
section
/-! DEFINITION. Protected memory (R32, R33, R426 to R431 of the spec): the Reed-Solomon code of an 8-byte word, reads that
correct and report, writes that encode afresh and meet the inversion of R431. -/

namespace Sys2Proof.Machine

/-! ### The code -/

/-- Multiplication in GF(2^8) with field polynomial 0x11D (R426), `n` low bits of `b`. -/
def gfMulAux (a : Nat) : Nat → Nat → Nat
  | 0, _ => 0
  | n + 1, b =>
    let hi := gfMulAux a n (b / 2)
    let dbl := if hi < 128 then 2 * hi else (2 * hi) ^^^ 0x11D
    if b % 2 = 1 then dbl ^^^ a else dbl

/-- Multiplication in GF(2^8) (R426). -/
def gfMul (a b : Nat) : Nat := gfMulAux a 8 b

/-- α^n with α = 0x02 (R426). -/
def gfPow : Nat → Nat
  | 0 => 1
  | n + 1 => gfMul 2 (gfPow n)

/-- The power of x that symbol `k` of an error pattern stands at: data byte i at x^(i + 3), check symbol j at x^j (R426). -/
def symPos (k : Nat) : Nat := if k < 8 then k + 3 else k - 8

/-- Symbol `k` of an error pattern. -/
def symOf (e k : Nat) : Nat := e / 256 ^ k % 256

/-- Syndrome `j` of an error pattern (R426). -/
def syndrome (e j : Nat) : Nat :=
  (List.range 11).foldl (fun a k => a ^^^ gfMul (symOf e k) (gfPow (symPos k * j))) 0

/-- What the decoder makes of an error pattern (R426): the errors left in the eight data bytes, and whether it reports a
corrected symbol; none for an uncorrectable word. -/
def eccDecode (e : Nat) : Option (Nat × Bool) :=
  let s0 := syndrome e 0
  let s1 := syndrome e 1
  let s2 := syndrome e 2
  if s0 = 0 && s1 = 0 && s2 = 0 then some (e % 2 ^ 64, false)
  else if s0 = 0 then none
  else
    match (List.range 11).find? (fun k => gfMul s0 (gfPow (symPos k)) = s1 && gfMul s1 (gfPow (symPos k)) = s2) with
    | none => none
    | some k => some ((if k < 8 then e ^^^ (s0 * 256 ^ k) else e) % 2 ^ 64, true)

/-! ### Blocks -/

/-- The partition code that byte `o` of die `d` lies in: 15 outside every partition (R449). -/
def State.partOf (s : State) (d o : Nat) : Nat :=
  ((List.range 9).find? (fun k =>
    s.rdN (DIE_PART_BASE d k) ≤ o && o < s.rdN (DIE_PART_BASE d k) + s.rdN (DIE_PART_SIZE d k))).getD 15

/-- The block of region `t` in partition `k` of its die: byte offset in the die's window and size (R33, R128, R164, R170,
R278, R32). -/
def State.blockSpan (s : State) (t k : Nat) : Nat × Nat :=
  let d := t / 4
  let b := s.rdN (DIE_PART_BASE d k)
  match k with
  | 0 => (b + 16 * s.rdN (PRF_SWP_BASE t), 16 * s.rdN (PRF_SWP_LEN t))
  | 1 => (b + 256 * (s.siteBlk t).1, 256 * (s.siteBlk t).2)
  | 2 => (s.rdN (PRF_WF_BASE t), s.rdN (PRF_WF_SIZE t))
  | 4 => (b + 0x10000 * (t % 4), 0x10000)
  | 6 => (b + 0x20000 * (t % 4), 0x20000)
  | _ => mapGet (0, 0) (16 * t + k) s.blocks

/-- The region whose block holds byte `o` of die `d` (R427). Kernel stores lie first in the reducer partition, 64 KiB to
each region (R32). -/
def State.memRegion (s : State) (d o : Nat) : Option Nat :=
  let k := s.partOf d o
  let b := s.rdN (DIE_PART_BASE d 5)
  if k = 5 && o < b + 0x40000 then some (4 * d + (o - b) / 0x10000)
  else
    ((List.range 4).map (fun g => 4 * d + g)).find? (fun t =>
      (s.blockSpan t k).1 ≤ o && o < (s.blockSpan t k).1 + (s.blockSpan t k).2)

/-! ### Reads -/

/-- The word of a BAR2 offset lies in hub SRAM. -/
def inHub (a : Nat) : Bool := hubMem ≤ a

/-- The errors stored with word `w`. -/
def State.eccErr (s : State) (w : Nat) : Nat := mapGet 0 w s.ecc

/-- The state with errors `e` stored with word `w`. -/
def State.setEcc (s : State) (w e : Nat) : State := { s with ecc := mapPut 0 w e s.ecc }

/-- Byte `o` of die `d` lies in the bank of program or kernel store that an APPLY, its swap still ahead, fills (R376, R444). -/
def State.loadBank (s : State) (d o : Nat) : Bool :=
  match s.hub.imgOp with
  | some x =>
    let b := 1 - (s.region x.target).bank
    let p := s.rdN (DIE_PART_BASE d 6) + 0x20000 * (x.target % 4) + 0x10000 * b
    let k := s.rdN (DIE_PART_BASE d 5) + 0x10000 * (x.target % 4) + 0x8000 * b
    x.op = 3 && x.target / 4 = d && s.rdF IMG_STAT IMG_STAT.PHASE ≤ 4 && ((p ≤ o && o < p + 0x10000) || (k ≤ o && o < k + 0x8000))
  | none => false

/-- After HUB_SRAM_UNCORR the hub rebuilds the structure that word `w` belongs to from its source (R429): ring state from the DMA
registers, its configuration from the NVM, the life counters from their last journal record; the staging buffer has no source. Which
structure lies where beyond the staging buffer is a free value (`Config.hubContent`). -/
def State.hubRebuild (s : State) (w : Nat) : State :=
  let o := 8 * w - hubMem
  if o < 0x200000 then s
  else
    match (Config.hubContent o).toNat with
    | 1 => s.modHub (fun h => { h with rings := [] })
    | 2 =>
      s.each ((s.regs.map (·.1)).filter (fun a => dieOf a = none && packageScope a)) (fun s a =>
        s.wr a ((s.rd a &&& ~~~ imageMask a) ||| (s.resetVal a &&& imageMask a)))
    | 3 =>
      (s.each s.nvm.life.1 (fun s x => s.wr x.1 x.2)).modHub (fun h => { h with life := s.nvm.life.2.1, stops := s.nvm.life.2.2 })
    | _ => s

/-- The report of a read that met errors in word `w` (R427, R429, R431). DESIGN CHOICE: an uncorrectable word of the bank that an APPLY
fills acts at severity 1, since it leaves the running image unaffected (R444). -/
def State.eccReport (s : State) (w : Nat) (uncorr : Bool) : State :=
  let a := 8 * w
  let inj := bitOf (s.eccErr w) 88
  let s := if inj then (s.setEcc w (s.eccErr w % 2 ^ 88)).modHub (fun h => { h with injected := true }) else s
  if inHub a then
    if uncorr then ((s.bump FLT_HUB_UNCORR 1).raisePkg .hubSramUncorr).hubRebuild w
    else (s.bump FLT_HUB_CORR 1).raisePkg .hubSramCorr
  else
    let d := a / 0x2000000
    let o := a % 0x2000000
    let k := s.partOf d o
    let s1 := s.wrN (DIE_ECC_LAST d) (o % 2 ^ 24 + 2 ^ 31 * b2n uncorr)
    match s.memRegion d o with
    | some t =>
      if uncorr && s.loadBank d o then
        ((s1.bump (DIE_ECC_UNCORR d) 1).raise .sramUncorr d 2 t k false (some 1)).modHub (fun h => { h with bankBad := true })
      else if uncorr then (s1.bump (DIE_ECC_UNCORR d) 1).raise .sramUncorr d 2 t k
      else (s1.bump (DIE_ECC_CORR d) 1).raise .sramCorr d 2 t k
    | none =>
      if uncorr then (s1.bump (DIE_ECC_UNCORR d) 1).raise .sramUncorr d 3 d k false (some 1)
      else (s1.bump (DIE_ECC_CORR d) 1).raise .sramCorr d 3 d k

/-- What a read of memory answers: the bytes, whether a word was uncorrectable, whether one was corrected. -/
structure MemRead where
  bytes : List (BitVec 8) := []
  bad : Bool := false
  corr : Bool := false
  deriving DecidableEq, Repr

/-- Bytes of a word whose data carry the errors `e`, from byte `lo` on. -/
def xorBytes (e lo : Nat) : List (BitVec 8) → List (BitVec 8)
  | [] => []
  | b :: bs => (b ^^^ BitVec.ofNat 8 (symOf e lo)) :: xorBytes e (lo + 1) bs

/-- A read of `n` bytes from `lo` of word `w` (R426, R427). -/
def State.readWord (s : State) (w lo n : Nat) : State × MemRead :=
  let bs := s.bytes (8 * w + lo) n
  let e := s.eccErr w % 2 ^ 88
  if e = 0 then (s, { bytes := bs })
  else
    match eccDecode e with
    | none => (s.eccReport w true, { bytes := bs.map (fun _ => 0#8), bad := true })
    | some (x, c) => (if c then s.eccReport w false else s, { bytes := xorBytes x lo bs, corr := c })

/-- The spans of the words that `n` bytes from `a` touch: word, first byte in it, count. -/
def wordSpans (a n : Nat) : List (Nat × Nat × Nat) :=
  if n = 0 then []
  else
    (List.range ((a + n - 1) / 8 + 1 - a / 8)).map (fun j =>
      let w := a / 8 + j
      let lo := if j = 0 then a % 8 else 0
      (w, lo, min 8 (a + n - 8 * w) - lo))

/-- A device or host read of `n` bytes of memory at BAR2 offset `a` (R427, R457). -/
def State.memRead (s : State) (a n : Nat) : State × MemRead :=
  (wordSpans a n).foldl (fun r x =>
    let q := r.1.readWord x.1 x.2.1 x.2.2
    (q.1, { bytes := r.2.bytes ++ q.2.bytes, bad := r.2.bad || q.2.bad, corr := r.2.corr || q.2.corr })) (s, {})

/-! ### Writes -/

/-- The armed inversion waits for a write to word `w` (R431). -/
def State.injectsAt (s : State) (w : Nat) : Option Nat :=
  match s.hub.inject with
  | some j =>
    let hit := if j.checker = 0 then w = (dieMem j.die (j.target / 8 * 8)) / 8
      else j.checker = 1 && w = (hubMem + j.target % 2 ^ 23 / 8 * 8) / 8
    if hit then some j.mode else none
  | none => none

/-- A write of the bytes `bs` from byte `lo` of word `w` on (R426, R431, R457): a partial write reads the word first, and
an uncorrectable word discards it. -/
def State.writeWord (s : State) (w lo : Nat) (bs : List (BitVec 8)) : State :=
  let r := if bs.length < 8 then s.readWord w 0 8 else (s, {})
  if r.2.bad then r.1
  else
    let s1 := if bs.length < 8 && r.2.bytes ≠ s.bytes (8 * w) 8 then r.1.setBytes (8 * w) r.2.bytes else r.1
    let s2 := (s1.setBytes (8 * w + lo) bs).setEcc w 0
    match s2.injectsAt w with
    | none => s2
    | some m => (s2.setEcc w (2 ^ 88 + 0xFF * 2 ^ 64 + (if m = 0 then 0 else 0xFF * 2 ^ 72))).injectDone

/-- A device or host write of bytes to memory at BAR2 offset `a`. -/
def State.memWrite (s : State) (a : Nat) (bs : List (BitVec 8)) : State :=
  (wordSpans a bs.length).foldl (fun s x =>
    s.writeWord x.1 x.2.1 ((bs.drop (8 * x.1 + x.2.1 - a)).take x.2.2)) s

/-- A write of the `n`-byte little-endian number `v`. -/
def State.memPut (s : State) (a n v : Nat) : State := s.memWrite a (leBytes n v)

/-- A read of the `n`-byte little-endian number at `a`: an uncorrectable word reads as 0. -/
def State.memGet (s : State) (a n : Nat) : State × Nat × Bool :=
  let r := s.memRead a n
  (r.1, ofLeBytes r.2.bytes, r.2.bad)

end Sys2Proof.Machine
end

