-- ==== Sys2Proof/Machine/Float.lean ====
section
/-! DEFINITION. IEEE 754 binary64 and binary32 arithmetic over their bit patterns, rounded to nearest with ties to even:
the engineering values of R7, the reducer's arithmetic of R262 and the binary32 limits of R153. Every operation is
computed exactly over integers and rounded once. -/

namespace Sys2Proof.Machine

/-- A finite binary value: (−1)^neg · m · 2^e. -/
structure Dyadic where
  neg : Bool
  m : Nat
  e : Int
  deriving DecidableEq, Repr

/-- A binary64 or binary32 value taken apart. -/
inductive FpVal where
  | nan
  | inf (neg : Bool)
  | fin (d : Dyadic)
  deriving DecidableEq, Repr

/-- The two formats: precision in bits, exponent bias. -/
structure FpFmt where
  p : Nat
  bias : Nat
  deriving DecidableEq, Repr

/-- binary64. -/
def fmt64 : FpFmt := ⟨53, 1023⟩

/-- binary32. -/
def fmt32 : FpFmt := ⟨24, 127⟩

/-- Take the bit pattern `w` of a format apart. -/
def fpUnpack (f : FpFmt) (w : Nat) : FpVal :=
  let frac := w % 2 ^ (f.p - 1)
  let ex := (w >>> (f.p - 1)) % (2 * f.bias + 2)
  let neg := (w >>> (f.p - 1)) / (2 * f.bias + 2) % 2 == 1
  if ex = 2 * f.bias + 1 then (if frac = 0 then .inf neg else .nan)
  else if ex = 0 then .fin ⟨neg, frac, 1 - (f.bias : Int) - (f.p - 1 : Nat)⟩
  else .fin ⟨neg, frac + 2 ^ (f.p - 1), (ex : Int) - f.bias - (f.p - 1 : Nat)⟩

/-- The sign bit of a format. -/
def fpSign (f : FpFmt) (neg : Bool) : Nat := if neg then (2 * f.bias + 2) * 2 ^ (f.p - 1) else 0

/-- The bit pattern of an infinity. -/
def fpInf (f : FpFmt) (neg : Bool) : Nat := fpSign f neg + (2 * f.bias + 1) * 2 ^ (f.p - 1)

/-- Round the value (−1)^neg · m · 2^e to the format, to nearest with ties to even. `sticky` says that the true magnitude
lies above m · 2^e by less than one unit of m. -/
def fpRound (f : FpFmt) (neg : Bool) (m : Nat) (e : Int) (sticky : Bool) : Nat :=
  if m = 0 then fpSign f neg else
  let emin : Int := 1 - (f.bias : Int) - (f.p - 1 : Nat)
  let e1 : Int := max (e + ((m.log2 + 1 : Nat) : Int) - f.p) emin
  let sh : Int := e1 - e
  let q : Nat :=
    if sh ≤ 0 then m <<< (-sh).toNat
    else
      let k := sh.toNat
      let q0 := m >>> k
      let r := m % 2 ^ k
      let half := 2 ^ (k - 1)
      if r > half || (r == half && (sticky || q0 % 2 == 1)) then q0 + 1 else q0
  let q2 := if q = 2 ^ f.p then 2 ^ (f.p - 1) else q
  let e2 : Int := if q = 2 ^ f.p then e1 + 1 else e1
  if q2 < 2 ^ (f.p - 1) then fpSign f neg + q2
  else
    let ex := (e2 + f.bias + (f.p - 1 : Nat)).toNat
    if ex > 2 * f.bias then fpInf f neg
    else fpSign f neg + ex * 2 ^ (f.p - 1) + (q2 - 2 ^ (f.p - 1))

/-- Take a binary64 apart. -/
def f64u (w : DWord) : FpVal := fpUnpack fmt64 w.toNat

/-- The NaN an operation on `a` and `b` makes: a quiet NaN whose payload the spec leaves open. -/
def f64Nan (a b : DWord) : DWord := 0x7FF8000000000000#64 ||| (Config.nanBits a b).zeroExtend 64

/-- A finite value rounded to binary64. -/
def f64r (neg : Bool) (m : Nat) (e : Int) : DWord := BitVec.ofNat 64 (fpRound fmt64 neg m e false)

/-- Positive zero. -/
def f64Zero : DWord := 0#64

/-- One. -/
def f64One : DWord := 0x3FF0000000000000#64

/-- Whether a binary64 is a NaN. -/
def f64IsNan (w : DWord) : Bool := f64u w == .nan

/-- Whether a binary64 is a zero of either sign. -/
def f64IsZero (w : DWord) : Bool := w.toNat % 2 ^ 63 == 0

/-- The signed integer of a dyadic scaled to exponent `e`, for `e ≤ d.e`. -/
def Dyadic.scaled (d : Dyadic) (e : Int) : Int :=
  let v : Int := (d.m <<< (d.e - e).toNat : Nat)
  if d.neg then -v else v

/-- Round a signed integer times 2^e to binary64; an exact zero takes the sign `zneg`. -/
def f64OfScaled (v e : Int) (zneg : Bool) : DWord :=
  if v = 0 then BitVec.ofNat 64 (fpSign fmt64 zneg) else f64r (v < 0) v.natAbs e

/-- Negation: the sign bit inverted. -/
def f64Neg (a : DWord) : DWord := a ^^^ 0x8000000000000000#64

/-- Magnitude: the sign bit cleared. -/
def f64Abs (a : DWord) : DWord := a &&& 0x7FFFFFFFFFFFFFFF#64

/-- Addition in binary64 (R262). -/
def f64Add (a b : DWord) : DWord :=
  match f64u a, f64u b with
  | .nan, _ => f64Nan a b
  | _, .nan => f64Nan a b
  | .inf x, .inf y => if x == y then a else f64Nan a b
  | .inf _, .fin _ => a
  | .fin _, .inf _ => b
  | .fin x, .fin y =>
    let e := min x.e y.e
    f64OfScaled (x.scaled e + y.scaled e) e (x.neg && y.neg)

/-- Subtraction in binary64 (R262). -/
def f64Sub (a b : DWord) : DWord := if f64IsNan b then f64Nan a b else f64Add a (f64Neg b)

/-- Multiplication in binary64 (R262). -/
def f64Mul (a b : DWord) : DWord :=
  match f64u a, f64u b with
  | .nan, _ => f64Nan a b
  | _, .nan => f64Nan a b
  | .inf x, .inf y => BitVec.ofNat 64 (fpInf fmt64 (x != y))
  | .inf x, .fin y => if y.m = 0 then f64Nan a b else BitVec.ofNat 64 (fpInf fmt64 (x != y.neg))
  | .fin x, .inf y => if x.m = 0 then f64Nan a b else BitVec.ofNat 64 (fpInf fmt64 (x.neg != y))
  | .fin x, .fin y => f64r (x.neg != y.neg) (x.m * y.m) (x.e + y.e)

/-- Fused multiply-add a · b + c in binary64, rounded once (R262). -/
def f64Fma (a b c : DWord) : DWord :=
  match f64u a, f64u b, f64u c with
  | .fin x, .fin y, .fin z =>
    let e := min (x.e + y.e) z.e
    let p : Dyadic := ⟨x.neg != y.neg, x.m * y.m, x.e + y.e⟩
    f64OfScaled (p.scaled e + z.scaled e) e ((x.neg != y.neg) && z.neg)
  | .fin _, .fin _, .inf _ => c
  | .fin _, .fin _, .nan => f64Nan a c
  | _, _, _ => f64Add (f64Mul a b) c

/-- Division in binary64 (R262). -/
def f64Div (a b : DWord) : DWord :=
  match f64u a, f64u b with
  | .nan, _ => f64Nan a b
  | _, .nan => f64Nan a b
  | .inf _, .inf _ => f64Nan a b
  | .inf x, .fin y => BitVec.ofNat 64 (fpInf fmt64 (x != y.neg))
  | .fin x, .inf y => BitVec.ofNat 64 (fpSign fmt64 (x.neg != y))
  | .fin x, .fin y =>
    if y.m = 0 then (if x.m = 0 then f64Nan a b else BitVec.ofNat 64 (fpInf fmt64 (x.neg != y.neg)))
    else
      let n := x.m <<< 120
      BitVec.ofNat 64 (fpRound fmt64 (x.neg != y.neg) (n / y.m) (x.e - y.e - 120) (n % y.m != 0))

/-- Square root in binary64 (R262). -/
def f64Sqrt (a : DWord) : DWord :=
  match f64u a with
  | .nan => f64Nan a a
  | .inf neg => if neg then f64Nan a a else a
  | .fin x =>
    if x.m = 0 then a
    else if x.neg then f64Nan a a
    else
      let odd := x.e % 2 ≠ 0
      let m := (if odd then x.m * 2 else x.m) <<< 120
      let e := (if odd then x.e - 1 else x.e) - 120
      let r := isqrt m
      BitVec.ofNat 64 (fpRound fmt64 false r (e / 2) (r * r != m))

/-- Ordered comparison a < b; false when either is a NaN. -/
def f64Lt (a b : DWord) : Bool :=
  match f64u a, f64u b with
  | .nan, _ => false
  | _, .nan => false
  | .inf x, .inf y => x && !y
  | .inf x, .fin _ => x
  | .fin _, .inf y => !y
  | .fin x, .fin y =>
    let e := min x.e y.e
    decide (x.scaled e < y.scaled e)

/-- Equality of values; false when either is a NaN, true of zeros of either sign. -/
def f64Eq (a b : DWord) : Bool :=
  !f64IsNan a && !f64IsNan b && !f64Lt a b && !f64Lt b a

/-- Ordered comparison a ≤ b. -/
def f64Le (a b : DWord) : Bool := f64Lt a b || f64Eq a b

/-- The lesser of two, ignoring a NaN (R262). -/
def f64Min (a b : DWord) : DWord :=
  if f64IsNan a then b else if f64IsNan b then a else if f64Lt b a then b else a

/-- The greater of two, ignoring a NaN (R262). -/
def f64Max (a b : DWord) : DWord :=
  if f64IsNan a then b else if f64IsNan b then a else if f64Lt a b then b else a

/-- An integer as a binary64. -/
def f64OfInt (i : Int) : DWord := f64OfScaled i 0 false

/-- The rational num · 2^e / den as a binary64, correctly rounded, for `den > 0`. -/
def f64OfRat (num : Int) (den : Nat) : DWord :=
  if num = 0 then f64Zero
  else
    let n := num.natAbs <<< 1200
    BitVec.ofNat 64 (fpRound fmt64 (num < 0) (n / den) (-1200) (n % den != 0))

/-- A binary64 rounded to binary32. -/
def f32OfF64 (a : DWord) : Word :=
  match f64u a with
  | .nan => 0x7FC00000#32 ||| ((Config.nanBits a a).extractLsb' 0 22).zeroExtend 32
  | .inf neg => BitVec.ofNat 32 (fpInf fmt32 neg)
  | .fin d => BitVec.ofNat 32 (fpRound fmt32 d.neg d.m d.e false)

/-- A binary32 as the binary64 of the same value. -/
def f64OfF32 (a : Word) : DWord :=
  match fpUnpack fmt32 a.toNat with
  | .nan => f64Nan (a.zeroExtend 64) 0
  | .inf neg => BitVec.ofNat 64 (fpInf fmt64 neg)
  | .fin d => BitVec.ofNat 64 (fpRound fmt64 d.neg d.m d.e false)

/-- A finite binary64 as a fraction: numerator and denominator, the denominator a power of two; zero for what is not
finite. -/
def f64ToRat (a : DWord) : Int × Nat :=
  match f64u a with
  | .fin d =>
    let v : Int := if d.neg then -(d.m : Int) else d.m
    if 0 ≤ d.e then (v * (2 ^ d.e.toNat : Nat), 1) else (v, 2 ^ (-d.e).toNat)
  | _ => (0, 1)

/-- The integer part of a finite binary64, rounded toward minus infinity; zero for what is not finite. -/
def f64Floor (a : DWord) : Int := (f64ToRat a).1 / ((f64ToRat a).2 : Int)

end Sys2Proof.Machine
end

