-- ==== Sys2Proof/Machine/Real.lean ====
section
/-! DEFINITION. The real functions that the spec names: sine and cosine (R105 of 03_channel_front_end.md, R264 and R265 of
08_reduction_engines.md), the argument (R265), the exponential (R141 of 04_control_engine.md). They are computed in units of
2^−160 with an error below 2^−120; only the rounding of a result to the device's format is left free. -/

namespace Sys2Proof.Machine

/-- One, in the units of this file. -/
def oneFix : Int := 2 ^ 160

/-- π in units of 2^−160, rounded down. -/
def piFix : Int := 4591442807048218921384805199743311128454155024418

/-- The product of two numbers in units of 2^−160. -/
def mulFix (a b : Int) : Int := a * b / oneFix

/-- `n` terms of the series of sine and cosine from the term `t` of degree `k` on, `x2` being the square of the argument. -/
def trigSum (x2 : Int) : Nat → Nat → Int → Int
  | 0, _, _ => 0
  | n + 1, k, t => t + trigSum x2 n (k + 2) (-(mulFix t x2) / ((k + 1) * (k + 2) : Nat))

/-- sin x for |x| ≤ π/2. -/
def sinSmall (x : Int) : Int := trigSum (mulFix x x) 24 1 x

/-- cos x for |x| ≤ π/2. -/
def cosSmall (x : Int) : Int := trigSum (mulFix x x) 24 0 oneFix

/-- sin of an angle 0 ≤ x ≤ π/2 that is `x` from 0 and `y` from π/2, computed from the nearer of the two. -/
def sinQuad (x y : Int) : Int := if x ≤ y then sinSmall x else cosSmall y

/-- sin x for −π ≤ x ≤ π. -/
def sinFix (x : Int) : Int :=
  let h := piFix / 2
  let s (x : Int) : Int := if x ≤ h then sinQuad x (h - x) else sinQuad (piFix - x) (x - h)
  if 0 ≤ x then s x else -s (-x)

/-- An angle reduced to −π … π. -/
def wrapFix (x : Int) : Int := (x + piFix) % (2 * piFix) - piFix

/-- cos x for any x. -/
def cosFix (x : Int) : Int := sinFix (wrapFix (x + piFix / 2))

/-- sin(2π · phase / 2^48), exact at the multiples of a quarter turn. -/
def sinTurn (phase : Nat) : Int :=
  let q := phase % 2 ^ 48 / 2 ^ 46
  let r := phase % 2 ^ 46
  let x (n : Nat) : Int := n * piFix / 2 ^ 47
  let up := sinQuad (x r) (x (2 ^ 46 - r))
  let down := sinQuad (x (2 ^ 46 - r)) (x r)
  if q = 0 then up else if q = 1 then down else if q = 2 then -up else -down

/-- `n` terms of the series of the arctangent from the term `t` (without its divisor) of degree `k` on. -/
def atanSum (x2 : Int) : Nat → Nat → Int → Int
  | 0, _, _ => 0
  | n + 1, k, t => t / (k : Int) + atanSum x2 n (k + 2) (-(mulFix t x2))

/-- The tangent of half the angle whose tangent is `x`. -/
def halfTan (x : Int) : Int := x * oneFix / (oneFix + isqrt (oneFix * oneFix + x * x).toNat)

/-- arctan x for 0 ≤ x ≤ 1: the angle is halved four times. -/
def atanFix (x : Int) : Int :=
  let y := halfTan (halfTan (halfTan (halfTan x)))
  16 * atanSum (mulFix y y) 24 1 y

/-- The argument of x + iy, −π to π, for integers that are not both 0. -/
def argFix (y x : Int) : Int :=
  let a : Int := x.natAbs
  let b : Int := y.natAbs
  let q := if b ≤ a then atanFix (b * oneFix / a) else piFix / 2 - atanFix (a * oneFix / b)
  let h := if 0 ≤ x then q else piFix - q
  if 0 ≤ y then h else -h

/-- `n` terms of the exponential series of −y from the term `t` of degree `k` on. -/
def expSum (y : Int) : Nat → Nat → Int → Int
  | 0, _, _ => 0
  | n + 1, k, t => t + expSum y n (k + 1) (-(mulFix t y) / (k + 1 : Nat))

/-- The square, `n` times. -/
def squares : Nat → Int → Int
  | 0, x => x
  | n + 1, x => squares n (mulFix x x)

/-- e^(−num/den), for `den > 0`. -/
def expNeg (num den : Nat) : Int :=
  if 160 * den < num then 0 else squares 9 (expSum (num * oneFix / (den * 512)) 32 0 oneFix)

/-- e^(num/den) for num/den ≤ 60, with a relative error below 2^−120, and `den > 0`. -/
def expReal (num : Int) (den : Nat) : Int :=
  if num < 0 then expNeg num.natAbs den else squares 9 (expSum (-(num * oneFix / (den * 512 : Nat))) 32 0 oneFix)

/-- One of the two binary64 values next to num/den, the free choice of an implementation, or the value itself where a binary64
has it. -/
def f64Near (num : Int) (den : Nat) : DWord :=
  let r := f64OfRat num den
  let x := f64ToRat r
  if x.1 * den = num * x.2 || Config.roundUp num den then r
  else if x.1.natAbs * den < num.natAbs * x.2 then r + 1 else r - 1

/-- A binary64 in the units of this file, rounded down. -/
def f64Fix (a : DWord) : Int := (f64ToRat a).1 * oneFix / ((f64ToRat a).2 : Int)

/-- A number in the units of this file as a binary64. -/
def f64OfFix (x : Int) : DWord := f64Near x (2 ^ 160)

/-- A function of a binary64 that has no value at an infinity or a NaN. -/
def f64Real (f : Int → Int) (a : DWord) : DWord :=
  match f64u a with
  | .fin _ => f64OfFix (f (f64Fix a))
  | _ => f64Nan a a

/-- The cosine of a binary64 (R264, R265). -/
def f64Cos (a : DWord) : DWord := f64Real cosFix a

/-- The sine of a binary64 (R265). -/
def f64Sin (a : DWord) : DWord := f64Real (fun x => sinFix (wrapFix x)) a

/-- The argument of the complex number with imaginary part `y` and real part `x` (R265); of 0 it is a free value. -/
def f64Arg (y x : DWord) : DWord :=
  match f64u y, f64u x with
  | .fin a, .fin b =>
    if a.m = 0 && b.m = 0 then Config.argZero y x
    else
      let e := min a.e b.e
      f64OfFix (argFix (a.scaled e) (b.scaled e))
  | _, _ => f64Nan y x

end Sys2Proof.Machine
end

