-- ==== Sys2Proof/Machine/Generator.lean ====
section
/-! DEFINITION. Full scales and the profile generator (R81, R84, R94 of 03_channel_front_end.md; R152 to R163 of
05_setpoints_sweeps_waveforms.md), and the NCO (R105, R108). -/

namespace Sys2Proof.Machine

/-! ### Full scales -/

/-- FS of a voltage range in volts, as a fraction (R81). -/
def fsV (r : Nat) : Nat × Nat := [(5, 4), (5, 1), (12, 1)].getD r (12, 1)

/-- FS of a current range in amperes, as a fraction (R81). -/
def fsI (r : Nat) : Nat × Nat := (10 ^ r, 10 ^ 9)

/-- Members of the gang with their switches closed, for a master (R98); 1 for every other unit. -/
def State.gangA (s : State) (p : Nat) : Nat := if s.master p then max 1 (s.rdF (CH_GANG p) CH_GANG.ACTIVE) else 1

/-- FS of the unit's current: the booster's full scale, a gang's a-fold range, or its range (R81, R98, R102). -/
def State.fullI (s : State) (p : Nat) : Nat × Nat :=
  if s.isBoost p then (s.rdF (CH_BST p) CH_BST.IFS_MA, 1000)
  else
    let x := fsI (s.irng p)
    (s.gangA p * x.1, x.2)

/-- FS of the unit's voltage. -/
def State.fullV (s : State) (p : Nat) : Nat × Nat := fsV (s.rdF (CH_MODE p) CH_MODE.VRNG)

/-- FS of the forced quantity. -/
def State.fullForced (s : State) (p : Nat) : Nat × Nat := if s.forcesI p then s.fullI p else s.fullV p

/-- FS_old / FS_new as a fraction. -/
def scaleRatio (old new : Nat × Nat) : Nat × Nat := (old.1 * new.2, old.2 * new.1)

/-! ### Set-points -/

/-- ±1.0 in Q2.30 (R84). -/
def one30 : Int := 2 ^ 30

/-- The clip of R84 with its flag. -/
def State.clipSetpt (s : State) (p : Nat) (v : Int) : State × Int :=
  if v < -one30 || one30 < v then (s.flag (CH_STAT p) CH_STAT.SETPT_CLIP true, clampI (-one30) one30 v) else (s, v)

/-- A signed register value. -/
def State.rdI (s : State) (a : Nat) : Int := signed 32 (s.rdN a)

/-- CH_SETPT written at the instant `at'`: the register and the value on its way to the generator (R152, R84). The clip
happens at the generator's input; the register keeps the written value. -/
def State.putSetptAt (s : State) (p at' : Nat) (v : Word) : State :=
  let w := signed 32 v.toNat
  let s1 := (s.wr (CH_SETPT p) v).modUnit p (fun u => { u with gen := { u.gen with setWr := u.gen.setWr ++ [(at', w)] } })
  if w < -one30 || one30 < w then s1.flag (CH_STAT p) CH_STAT.SETPT_CLIP true else s1

/-- CH_SETPT written at the present instant. -/
def State.putSetpt (s : State) (p : Nat) (v : Word) : State := s.putSetptAt p s.now v

/-- CH_CMPL stored, clipped into 0x0080 to 0x8000 with CMPL_CLIP (R86); a master's on every member of its gang, whose share of the
gang compliance is the same fraction of its own full scale (R98, R99). -/
def State.putCmpl (s : State) (p v : Nat) : State :=
  let x := max 0x80 (min 0x8000 v)
  let s1 := s.each (s.members p) (fun s q => s.wrF (CH_CMPL q) CH_CMPL.LIMIT x)
  if x = v then s1 else s1.flag (CH_STAT p) CH_STAT.CMPL_CLIP true

/-- CH_NCO_AMP stored, at most 0x8000 with NCO_CLIP (R108). -/
def State.putAmp (s : State) (p v : Nat) : State :=
  let s1 := s.wrN (CH_NCO_AMP p) (min 0x8000 (v % 2 ^ 16))
  if 0x8000 < v % 2 ^ 16 then s1.flag (CH_STAT p) CH_STAT.NCO_CLIP true else s1

/-! ### The profile limits -/

/-- A profile limit: infinite, or a positive fraction. -/
inductive Lim where
  | inf
  | fin (num den : Nat)
  deriving DecidableEq, Repr

/-- The value of a binary32 limit (R153); none for 0, a negative value or a NaN. -/
def limOf (w : Word) : Option Lim :=
  match fpUnpack fmt32 w.toNat with
  | .nan => none
  | .inf neg => if neg then none else some .inf
  | .fin d =>
    if d.neg || d.m = 0 then none
    else if 0 ≤ d.e then some (.fin (d.m * 2 ^ d.e.toNat) 1) else some (.fin d.m (2 ^ (-d.e).toNat))

/-- A value in Q4.44, held at 7 (R154). -/
def q44 (num den : Nat) : Int := min (7 * 2 ^ 44) (roundFree ((num : Int) * 2 ^ 44) (max 1 den))

/-- The limits in force converted for one period (R154): vp, ap (none for +∞), nf, and whether A is substituted. -/
structure GenLim where
  vp : Int
  ap : Option Int
  nf : Nat
  reduced : Bool
  deriving DecidableEq, Repr

/-- nf and the acceleration that the generator uses (R154), for a period of `per` ticks of 1.25 ns. -/
def jerkOf (acc jrk : Lim) (per : Nat) : Nat × Lim × Bool :=
  match jrk with
  | .inf => (1, acc, false)
  | .fin jn jd =>
    let red : Nat × Lim × Bool := (1024, .fin (512 * jn * per) (jd * secTicks), true)
    match acc with
    | .inf => red
    | .fin an ad =>
      let nf := ceilDiv (2 * an * jd * secTicks) (ad * jn * per)
      if 1024 < nf then red else (nf, acc, false)

/-- The conversion of R154. -/
def convLimits (vel acc jrk : Lim) (per : Nat) (fs : Nat × Nat) : GenLim :=
  let j := jerkOf acc jrk per
  { vp := match vel with
      | .inf => 7 * 2 ^ 44
      | .fin n d => q44 (n * per * fs.2) (d * secTicks * fs.1)
    ap := match j.2.1 with
      | .inf => none
      | .fin n d => some (q44 (n * per * per * fs.2) (d * secTicks * secTicks * fs.1))
    nf := j.1
    reduced := j.2.2 }

/-- Limit `k` of the six in force (0 to 2 voltage, 3 to 5 current: velocity, acceleration, jerk). -/
def GenState.limit (g : GenState) (k : Nat) : Lim := (limOf (g.lim.getD k 0#32)).getD .inf

/-- FS of the forced quantity as the generator of unit `p` is scaled to it: the old one until a range change reaches the boundary
of its period n + 1 (R159). -/
def State.genFull (s : State) (p : Nat) : Nat × Nat :=
  match (s.unit p).rngScale with
  | some (_, r) => ((s.fullForced p).1 * r.1, (s.fullForced p).2 * r.2)
  | none => s.fullForced p

/-- The limits of unit `p` for its present period and forced range; a follower's own have no effect (R163). -/
def State.genLim (s : State) (p : Nat) : GenLim :=
  let g := (s.unit (if s.follower p then s.masterOf p else p)).gen
  let b := if s.forcesI p then 3 else 0
  convLimits (g.limit b) (g.limit (b + 1)) (g.limit (b + 2)) (s.period (p / 16)) (s.genFull p)

/-- nf is set, and every entry of the new history to the present output, wherever nf changes (R154). -/
def State.refreshNf (s : State) (p : Nat) : State :=
  let l := s.genLim p
  let s1 := (s.wrN (PRF_NFILT p) l.nf).flag (PRF_USTAT p) PRF_USTAT.A_REDUCED l.reduced
  if (s.unit p).gen.hist.length = l.nf then s1
  else s1.modUnit p (fun u => { u with gen := { u.gen with hist := List.replicate l.nf (u.gen.out * 2 ^ 14) } })

/-! ### The generator -/

/-- The square root of R155, within 1 LSB. -/
def sqrtFree (n : Nat) : Int :=
  let r := isqrt n
  if r * r = n then r else if Config.roundUp n 0 then (r : Int) + 1 else r

/-- The brake curve of R155. -/
def brakeOf (ap : Option Int) (d : Int) : Option Int :=
  ap.map (fun (a : Int) => roundFree (sqrtFree (a * a + 8 * a * (d.natAbs : Int)).toNat - a) 2)

/-- One period of the generator toward the target `t` in Q2.30 (R155). -/
def GenState.step (g : GenState) (l : GenLim) (t : Int) : GenState :=
  let d := t * 2 ^ 14 - g.x
  let m := min l.vp d.natAbs
  let m2 := match brakeOf l.ap d with
    | none => m
    | some b => min m b
  let wd := sgn d * m2
  let w := match l.ap with
    | none => wd
    | some a => g.w + clampI (-a) a (wd - g.w)
  let x := g.x + w
  let h := pushHist (max 1 g.hist.length) x g.hist
  { g with x := x, w := w, hist := h, out := roundDiv h.sum ((max 1 g.hist.length : Nat) * 2 ^ 14) }

/-- The output equals the target and the generator rests on it (R156). -/
def GenState.atRest (g : GenState) (t : Int) : Bool :=
  g.out == t && g.w == 0 && g.hist.all (fun x => x == t * 2 ^ 14)

/-- A start on unit `p`, with the limits of the quantity now forced (R160). -/
def State.genStart (s : State) (p : Nat) (x : Int) : State :=
  let s1 := (s.modUnit p (fun u => { u with gen := u.gen.start x })).refreshNf p
  s1.wr (PRF_OUT p) (s32 (s1.unit p).gen.out)

/-- The last loop sample of the forced quantity, less its dither (R118, R216). -/
def State.lastForced (s : State) (p : Nat) : Int :=
  if s.forcesI p then (s.unit p).eng.lastI else (s.unit p).eng.lastV

/-- The measured value of the forced quantity as a position (R85, R160): the last loop sample over 0x1_8000. -/
def State.measuredPos (s : State) (p : Nat) : Int := roundFree (s.lastForced p * 2 ^ 44) 0x18000

/-- The generator's state rescaled by FS_old / FS_new, positions held at ±1.25, and with it the set-points written before
the boundary `b` of the change (R159, R166). -/
def GenState.rescale (g : GenState) (b : Nat) (r : Nat × Nat) : GenState :=
  let sc (i : Int) : Int := roundFree (i * r.1) (max 1 r.2)
  let pos (i : Int) : Int := clampI (-(5 * 2 ^ 42)) (5 * 2 ^ 42) (sc i)
  { g with
    x := pos g.x, w := sc g.w, hist := g.hist.map pos, out := clampI (-(5 * 2 ^ 28)) (5 * 2 ^ 28) (sc g.out),
    setLat := clampI (-one30) one30 (truncDiv (g.setLat * r.1) (max 1 r.2))
    keep := g.keep.map (fun k => truncDiv (k * r.1) (max 1 r.2))
    setWr := g.setWr.map (fun x =>
      if x.1 < b then (x.1, clampI (-one30) one30 (truncDiv (x.2 * r.1) (max 1 r.2))) else x) }

/-- Set-point writes that reach the generator at least four ECLK cycles before boundary `b` (R152); one ends the target that a stopped
player left (R173). -/
def GenState.takeSets (g : GenState) (b : Nat) : GenState :=
  let now := g.setWr.filter (fun x => x.1 + leadTicks ≤ b)
  { g with
    setLat := (now.getLast?.map Prod.snd).getD g.setLat
    keep := if now = [] then g.keep else none
    setWr := g.setWr.filter (fun x => !(x.1 + leadTicks ≤ b)) }

/-- A move of `a` toward `t` by at most `step`. -/
def approach (a t step : Int) : Int := a + clampI (-step) step (t - a)

/-! ### The NCO -/

/-- The ceiling FTW of a region (R107). -/
def State.ftwCeiling (s : State) (t : Nat) : Nat := 2 ^ 45 / (s.period t / 4)

/-- The staged FTW (R106). -/
def State.stagedFtw (s : State) (p : Nat) : Nat := s.rdN (CH_NCO_FTW_LO p) + 2 ^ 32 * (s.rdN (CH_NCO_FTW_HI p) % 2 ^ 16)

/-- APPLY takes the staged FTW, for the first boundary at or after `t` (R106). -/
def State.stageFtw (s : State) (p t : Nat) : State :=
  s.modUnit p (fun u => { u with nco := { u.nco with stg := s.stagedFtw p, applyAt := some t } })

/-- The phase of the DAC latch of the period with sample instant `t` (R105). -/
def ncoPhase (ftw ofs t : Nat) : Nat := (ftw * ((t + 64) / 4) + ofs * 2 ^ 32) % 2 ^ 48

/-- `f` becomes the FTW in force, limited to the ceiling with NCO_CLIP (R107). -/
def State.putFtw (s : State) (p f : Nat) : State :=
  let c := s.ftwCeiling (p / 16)
  let s1 := s.modUnit p (fun u => { u with nco := { u.nco with ftw := min c f } })
  if c < f then s1.flag (CH_STAT p) CH_STAT.NCO_CLIP true else s1

/-- The staged FTW comes into force (R106); an APPLY of the same cycle stays pending (R9). -/
def State.applyFtw (s : State) (p : Nat) : State :=
  let again := s.askedAgain (CH_NCO_CTRL p) CH_NCO_CTRL.APPLY
  ((s.modUnit p (fun u => { u with nco := { u.nco with applyAt := if again then some (s.now + 1) else none } })).flag
    (CH_NCO_CTRL p) CH_NCO_CTRL.APPLY again).putFtw p (s.unit p).nco.stg

/-- The NCO's output for an amplitude in Q4.44 and a phase, in Q2.30 (R105): the exact product, rounded either way. -/
def ncoOut (amp : Int) (phase : Nat) : Int := roundFree (amp * sinTurn phase) (oneFix * 2 ^ 14)

/-- The amplitude that the second channel of the generator moves to (R108, R109, R76): 0 while NCO output is off, in the
safe state, on a safe path, or while a soft change falls. -/
def State.ampTarget (s : State) (p : Nat) : Int :=
  let u := s.unit p
  if !s.is (CH_NCO_CTRL p) CH_NCO_CTRL.EN || !s.drives p || u.safe ≠ .none || u.nco.soft = .down then 0
  else (s.rdN (CH_NCO_AMP p) % 2 ^ 16 : Nat) * 2 ^ 29

/-! ### The target -/

/-- The unit's effective governor factor (R399): K, and K_t under enforcement step 3, for a unit above 50 mW. -/
def State.govFactor (s : State) (p : Nat) : Nat :=
  if 50000000 < (s.unit p).power then
    let k := s.rdF PWR_GOV PWR_GOV.K
    if s.rdF (TMP_RGN (p / 16)) TMP_RGN.ENF = 3 then min k (s.region (p / 16)).govK else k
  else 0x8000

/-- The target of unit `p` in Q2.30 (R76, R77, R84, R152, R169, R173, R399): 0 on a ramped path and while an armed unit waits for its
switch. -/
def State.genTarget (s : State) (p : Nat) : State × Int :=
  let u := s.unit p
  if u.safe ≠ .none || u.swReq ≠ none then (s, 0)
  else
    let x := s.clipSetpt p (u.gen.keep.getD (u.gen.setLat + s.wfPart p))
    (x.1, if s.forcesI p then truncDiv (x.2 * s.govFactor p) (2 ^ 15) else x.2)

end Sys2Proof.Machine
end

