-- ==== Sys2Proof/Machine/Channel.lean ====
section
/-! DEFINITION. The unit's own commands (03_channel_front_end.md): the output switch, CH_MODE and range changes,
set-point and compliance, the analog clamp, open load, the NCO. LOOP_PERIOD stands in Loop.lean. -/

namespace Sys2Proof.Machine

/-! ### The output switch -/

/-- Manual takes effect on unit `p` at the present code (R136, R138, R144); a value that the host writes to ENG_MANUAL in the cycle of
the copy stays (R9, R151). -/
def State.toManual (s : State) (p : Nat) : State :=
  ((((s.leaveCmpl p).modUnit p (fun u =>
    { u with eng := { u.eng with autoReq := none, limited := false, ret := false, preset := .none } })).wr (ENG_MANUAL p)
      (s.rd (if s.hostWrote (ENG_MANUAL p) then ENG_MANUAL p else CH_DAC p))).flag (ENG_UCTRL p) ENG_UCTRL.AUTO false).flag (ENG_USTAT p)
        ENG_USTAT.AUTO_ACT false

/-- The unit whose writes act for the gang of unit `p` (R99). -/
def State.leadOf (s : State) (p : Nat) : Nat := if s.follower p then s.masterOf p else p

/-- One unit is armed (R77): the engine is set to automatic with the generator's output at 0, in place of any transfer that waits. -/
def State.armUnit (s : State) (p : Nat) : State :=
  let s1 := (((s.endProc p).flag (CH_CTRL p) CH_CTRL.OUT_REQ true).flag (ENG_UCTRL p) ENG_UCTRL.AUTO true).flag (CH_STAT p)
    CH_STAT.SAFE false
  ((s1.modUnit p (fun u => { u with gen := u.gen.zero, swReq := some s.now, eng := { u.eng with autoReq := none } })).refreshNf p).wr (PRF_OUT p) 0#32

/-- Unit `p` cannot take a write of 1 to OUT_REQ (R79, R466), or has the switch closed or about to close already. DESIGN CHOICE
(R79 does not list it): a ramped open that was merely commanded (R78) counts as a safe path that covers the unit until it ends. -/
def State.outReqIgnored (s : State) (p : Nat) : Bool :=
  s.covered p || s.follower p || s.isBoost p || s.nightlight (p / 16) || s.is (CH_CTRL p) CH_CTRL.OUT_REQ

/-- OUT_REQ changes from 0 to 1 (R77, R79, R99). -/
def State.outReqSet (s : State) (p : Nat) : State :=
  if s.outReqIgnored p then s
  else s.each ((s.members p).filter (fun q => !s.covered q)) State.armUnit

def execOutReqSet (f : Fin 8) (p : Fin 256) (s : State) : Out :=
  .next (s.hostWrite f (CH_CTRL p) (setFld (s.rd (CH_CTRL p)) CH_CTRL.OUT_REQ 1) (fun s => s.outReqSet p))

/-- The switch of one armed unit closes at the present boundary, where a write of AUTO = 0 since it was armed takes effect too (R136). -/
def State.closeSwitch (s : State) (p : Nat) : State :=
  let s1 := (s.syncStress (p / 64)).modUnit p (fun u =>
    { u with swCmd := true, swReq := none, fonFrom := s.now, guardSense := s.rdF (CH_CTRL p) CH_CTRL.GUARD = 0,
             eng := { u.eng with preset := .start, autoReq := none } })
  let s2 := s1.flag (CH_STAT p) CH_STAT.OUT_CLOSED true
  (if s.is (ENG_UCTRL p) ENG_UCTRL.AUTO then s2.flag (ENG_USTAT p) ENG_USTAT.AUTO_ACT true else s2.toManual p).emitUnit p evSwitchClosed

/-- ACTIVE of a master: its members with their switches closed (R98). -/
def State.refreshActive (s : State) (p : Nat) : State :=
  if s.master p then
    s.wrF (CH_GANG p) CH_GANG.ACTIVE ((s.members p).filter (fun q => s.closed q)).length
  else s

/-- SWITCH_CLOSE (R77, R99): the switches of a gang close together. -/
def State.switchClose (s : State) (p : Nat) : State :=
  match (s.unit (s.leadOf p)).swReq with
  | none => s
  | some at' =>
    let m := s.leadOf p
    let s1 := s.advance (s.nextBoundary (p / 16) at')
    (s1.each ((s1.members m).filter (fun q => (s1.unit q).swReq ≠ none)) State.closeSwitch).refreshActive m

def execSwitchClose (p : Fin 256) (s : State) : Out := .next (s.switchClose p)

/-- OUT_REQ changes from 1 to 0 (R78): the unit opens by the ramped or the immediate path. The followers of a master follow
its current to 0 and open by their own reactions (R100). -/
def State.outReqClear (s : State) (p : Nat) : State :=
  if s.follower p || !s.is (CH_CTRL p) CH_CTRL.OUT_REQ then s
  else
    (s.each (s.members p) (fun s q => s.flag (CH_CTRL q) CH_CTRL.OUT_REQ false)).safePath p
      (s.is (CH_CTRL p) CH_CTRL.OPEN_FAST)

def execOutReqClear (f : Fin 8) (p : Fin 256) (s : State) : Out :=
  .next (s.hostWrite f (CH_CTRL p) (setFld (s.rd (CH_CTRL p)) CH_CTRL.OUT_REQ 0) (fun s => s.outReqClear p))

/-- SAFE_RAMP_END (R76): with the forced quantity and the NCO amplitude at 0, or 1 ms after the path began. The generator's 0 is
that of the period whose boundary comes next. -/
def State.safeRampEnd (s : State) (p : Nat) : State :=
  let late := (s.unit p).safeFrom + msTicks
  match (s.unit p).safe with
  | .none => s
  | .ramp =>
    ((s.advance (if (s.unit p).gen.out = 0 && (s.unit p).gen.ampPos = 0 then min late (s.boundary (p / 16)) else late)).openNow p).senSettle
  | .openLoop => ((s.advance (if s.rdN (CH_DAC p) = midCode then s.now else late)).openNow p).senSettle

def execSafeRampEnd (p : Fin 256) (s : State) : Out := .next (s.safeRampEnd p)

/-- SWITCH_MISMATCH (R80). -/
def execSwitchMismatch (p : Fin 256) (s : State) : Out := .next (s.raiseUnit .switchMismatch p)

/-- The fields of CH_CTRL but OUT_REQ, as written. -/
def State.storeCtrl (s : State) (p : Nat) (v : Word) : State :=
  let s1 := s.store (CH_CTRL p) (setFld v CH_CTRL.OUT_REQ (s.rdF (CH_CTRL p) CH_CTRL.OUT_REQ))
  s1.modUnit p (fun u => { u with guardSense := s1.closed p && s1.rdF (CH_CTRL p) CH_CTRL.GUARD = 0 })

/-- A write of the whole CH_CTRL (R74, R77, R78). -/
def State.writeCtrl (s : State) (p : Nat) (v : Word) : State :=
  let s1 := s.storeCtrl p v
  if bitOf v.toNat 0 then s1.outReqSet p else s1.outReqClear p

/-! ### Range change -/

/-- The boundary that ends the overlap of a range change of unit `p`, while it lies ahead (R92, R96). -/
def State.overlapEnd (s : State) (p : Nat) : Option Nat :=
  let b := (s.unit p).rngAt + s.period (p / 16)
  if s.is (CH_STAT p) CH_STAT.RNG_BUSY && s.now < b then some b else none

/-- CH_MODE_WRITE (R91, R96, R99): the last of the writes for one boundary is kept. A write in the overlap of a range change is held
for the boundary that ends it, however late it comes, and replaces every other that waits (R96 names that boundary and no lead).
DESIGN CHOICE (R85 and R91 give the instant of effect alone): the register reads the value in force until RANGE_CHANGE. -/
def State.modeWrite (s : State) (p : Nat) (v : Word) : State :=
  if s.follower p then s
  else
    s.modUnit p (fun u =>
      let val := modeValue ((u.modePend.getLast?.map ModeWrite.val).getD (s.rdN (CH_MODE p))) v.toNat
      { u with modePend := match s.overlapEnd p with
        | some b => [{ at' := min s.now (b - leadTicks), val := val }]
        | none =>
          u.modePend.filter (fun m => s.eligible (p / 16) m.at' < s.eligible (p / 16) s.now) ++ [{ at' := s.now, val := val }] })

def execChModeWrite (f : Fin 8) (p : Fin 256) (v : Word) (s : State) : Out :=
  .next (s.hostWrite f (CH_MODE p) v (fun s => s.modeWrite p v))

/-- CH_SETPT rescaled toward zero and clipped (R94); a value that the host writes in the same PCLK cycle stays (R9). -/
def State.rescaleSetpt (s : State) (p : Nat) (r : Nat × Nat) : State :=
  s.unlessHost (CH_SETPT p) (fun s =>
    let x := truncDiv (s.rdI (CH_SETPT p) * r.1) (max 1 r.2)
    let s1 := s.wr (CH_SETPT p) (s32 (clampI (-one30) one30 x))
    if x < -one30 || one30 < x then s1.flag (CH_STAT p) CH_STAT.SETPT_CLIP true else s1)

/-- CH_CMPL rescaled toward zero and clipped (R94), unless the host writes it (R9); a follower's is its master's (R99). -/
def State.rescaleCmpl (s : State) (p : Nat) (r : Nat × Nat) : State :=
  if s.follower p then s
  else
    s.unlessHost (CH_CMPL p) (fun s =>
      s.putCmpl p (truncDiv ((s.rdF (CH_CMPL p) CH_CMPL.LIMIT : Int) * r.1) (max 1 r.2)).toNat)

/-- Learning restarts (R142): with LEARN = 0 the written values stand and PL_LEARNED reads 1. -/
def State.plRestart (s : State) (p : Nat) : State :=
  if s.is (ENG_PL_CFG p) ENG_PL_CFG.LEARN then
    (s.modUnit p (fun u => { u with eng := { u.eng with plSeen := 0 } })).flag (ENG_USTAT p) ENG_USTAT.PL_LEARNED false
  else s.flag (ENG_USTAT p) ENG_USTAT.PL_LEARNED true

/-- The BAR2 offset of unit `p`'s learning table (R128). -/
def State.learnTable (s : State) (p : Nat) : Nat :=
  s.part (p / 64) 4 + (16 * (p / 16 % 4) + p % 16) * 4096

/-- The learning table is filled with 0 (R131). -/
def State.clearLearn (s : State) (p : Nat) : State := s.memWrite (s.learnTable p) (List.replicate 4096 0#8)

/-- The range network of unit `p` starts to switch at the present boundary (R92). -/
def State.rangeStart (s : State) (p : Nat) : State :=
  ((s.flag (CH_STAT p) CH_STAT.RNG_BUSY true).modUnit p (fun u =>
    { u with
      rngLeft := 20, rngHold := true, rngAt := s.now
      mea := { u.mea with v := { u.mea.v with rngAt := some s.now }, i := { u.mea.i with rngAt := some s.now } } })).plRestart p

/-- The force mode of unit `p` has changed (R85, R160): the generator starts from the measured value, and both paths are
preset to the code that forces it; `r` is FS_old / FS_new of the quantity now forced. -/
def State.fmodeStart (s : State) (p : Nat) (r : Nat × Nat) : State :=
  if s.closed p then
    let sc (n : Int) (d : Nat) : Int := roundFree (n * r.1) (max 1 (d * r.2))
    let a := s.lastForced p
    (s.genStart p (sc (a * 2 ^ 44) 0x18000)).modUnit p (fun u =>
      { u with eng := { u.eng with limited := false, ret := false, preset := .range, uSel := (satS 40 (sc (a * 4 * 2 ^ 16) 1)).1 } })
  else s

/-- A change of the forced range reaches the boundary of period n + 1 (R121, R159): the target in force is formed anew from the rescaled
set-point, and counts as no new target. -/
def State.rescaleNow (s : State) (p : Nat) : State :=
  match (s.unit p).rngScale with
  | none => s
  | some (b, r) =>
    if b < s.now then
      let sc (i : Int) : Int := roundFree (i * r.1) (max 1 r.2)
      let s1 := s.modUnit p (fun u =>
        { u with
          rngScale := none, gen := u.gen.rescale b r
          eng := { u.eng with
            preset := if s.is (ENG_USTAT p) ENG_USTAT.AUTO_ACT then .range else u.eng.preset
            uSel := if s.is (ENG_USTAT p) ENG_USTAT.AUTO_ACT then (satS 40 (sc u.eng.uSel)).1 else u.eng.uSel
            rPrev := sc u.eng.rPrev, vPrev := sc u.eng.vPrev } })
      let g := s1.genTarget p
      ((g.1.wr (PRF_TARGET p) (s32 g.2)).wr (PRF_OUT p) (s32 (s1.unit p).gen.out)).refreshNf p
    else s

/-- CH_MODE takes the value `v` at the present boundary on one unit (R85, R92, R94, R121, R159): a range change that began at the
boundary before reaches its period n + 1 first. -/
def State.applyModeUnit (s0 : State) (p v : Nat) : State :=
  let s := s0.rescaleNow p
  let old := s.rdN (CH_MODE p)
  let s1 := s.wrN (CH_MODE p) v
  let fmode := old % 2 ≠ v % 2 && !s.follower p
  let vChg := old / 4 % 4 ≠ v / 4 % 4
  let iChg := old / 16 % 8 ≠ v / 16 % 8 && !s.isBoost p
  let ranges := vChg || iChg
  let rV := scaleRatio (fsV (old / 4 % 4)) (fsV (v / 4 % 4))
  let rI := if s.isBoost p then (1, 1) else scaleRatio (fsI (old / 16 % 8)) (fsI (v / 16 % 8))
  let s2 := if ranges then s1.rangeStart p else s1
  let s2 := if (if s1.forcesI p then iChg else vChg) then s2.clearLearn p else s2
  let rF := if s1.forcesI p then rI else rV
  let rL := if s1.forcesI p then rV else rI
  if fmode then s2.fmodeStart p rF
  else if ranges then
    let s3 := if rL.1 = rL.2 then s2 else s2.rescaleCmpl p rL
    if rF.1 = rF.2 then s3
    else (s3.rescaleSetpt p rF).modUnit p (fun u => { u with rngScale := some (s.now, rF) })
  else s2

/-- CH_MODE takes the value `v` at the present boundary on every member of the gang that `p` leads (R99). -/
def State.applyMode (s : State) (p v : Nat) : State := s.each (s.members p) (fun s q => s.applyModeUnit q v)

/-- RANGE_CHANGE (R92): the oldest pending CH_MODE write takes effect at its boundary. -/
def State.rangeChange (s : State) (p : Nat) : State :=
  match (s.unit p).modePend with
  | [] => s
  | m :: rest =>
    ((s.advance (s.effectAt (p / 16) m.at')).modUnit p (fun u => { u with modePend := rest })).applyMode p m.val

def execRangeChange (p : Fin 256) (s : State) : Out := .next (s.rangeChange p)

/-- RANGE_SETTLED (R92): the boundary of period n + 20. -/
def State.rangeSettled (s : State) (p : Nat) : State :=
  if s.is (CH_STAT p) CH_STAT.RNG_BUSY && (s.unit p).rngLeft = 0 then
    ((s.advance (s.boundary (p / 16))).flag (CH_STAT p) CH_STAT.RNG_BUSY false).emitUnit p evRangeSettled
  else s

def execRangeSettled (p : Fin 256) (s : State) : Out := .next (s.rangeSettled p)

/-! ### Set-point and compliance -/

/-- SETPT_WRITE (R84, R99). -/
def State.setptWrite (s : State) (p : Nat) (v : Word) : State := if s.follower p then s else s.putSetpt p v

def execSetptWrite (f : Fin 8) (p : Fin 256) (v : Word) (s : State) : Out :=
  .next (s.hostWrite f (CH_SETPT p) v (fun s => s.setptWrite p v))

/-- CMPL_WRITE (R86, R99). -/
def State.cmplWrite (s : State) (p : Nat) (v : Word) : State :=
  if s.follower p then s else s.putCmpl p (getFld v CH_CMPL.LIMIT)

def execCmplWrite (f : Fin 8) (p : Fin 256) (v : Word) (s : State) : Out :=
  .next (s.hostWrite f (CH_CMPL p) v (fun s => s.cmplWrite p v))

/-! ### The analog clamp and the open load -/

/-- CLAMP_ENGAGE (R89). -/
def State.clampEngage (s : State) (p : Nat) : State :=
  if s.is (CH_STAT p) CH_STAT.CLAMP then s
  else
    (((s.flag (CH_STAT p) CH_STAT.CLAMP true).flag (CH_STAT p) CH_STAT.CLAMP_SEEN true).emitUnit p evClamp).raiseUnit
      .clampEngaged p 0 true

def execClampEngage (p : Fin 256) (s : State) : Out := .next (s.clampEngage p)

/-- LIVE of a unit source of die `d` clears once no unit of the die meets the condition (R420). -/
def State.unliveUnless (s : State) (k : FaultKind) (d : Nat) (c : State → Nat → Bool) : State :=
  if (unitsIn 3 d).any (fun q => c s q) then s else s.unlive k d

/-- CLAMP_RELEASE (R89). -/
def State.clampRelease (s : State) (p : Nat) : State :=
  if s.is (CH_STAT p) CH_STAT.CLAMP then
    (s.flag (CH_STAT p) CH_STAT.CLAMP false).unliveUnless .clampEngaged (p / 64) (fun s q => s.is (CH_STAT q) CH_STAT.CLAMP)
  else s

def execClampRelease (p : Fin 256) (s : State) : Out := .next (s.clampRelease p)

/-- OPEN_LOAD (R90). -/
def State.openLoad (s : State) (p : Nat) : State :=
  if 16 ≤ (s.unit p).olCnt && !(s.unit p).olLive then
    (((s.modUnit p (fun u => { u with olLive := true })).flag (CH_STAT p) CH_STAT.OPEN_LOAD true).emitUnit p
      evOpenLoad).raiseUnit .openLoad p 0 true
  else s

def execOpenLoad (p : Fin 256) (s : State) : Out := .next (s.openLoad p)

/-! ### The NCO -/

/-- APPLY (R106, R109): the staged FTW waits for the next boundary or for CH_NCO_AT, or the soft sequence starts. -/
def State.ncoApply (s : State) (p : Nat) : State :=
  let at' := if s.is (CH_NCO_CTRL p) CH_NCO_CTRL.ARM_AT then max (s.rd64 (CH_NCO_AT_LO p)) (s.now + 1) else s.now + 1
  let s1 := (s.flag (CH_NCO_CTRL p) CH_NCO_CTRL.APPLY true).stageFtw p at'
  if s.is (CH_NCO_CTRL p) CH_NCO_CTRL.SOFT || (s.unit p).nco.soft ≠ .idle then
    (s1.modUnit p (fun u => { u with nco := { u.nco with soft := .down } })).flag (CH_STAT p) CH_STAT.NCO_SOFT true
  else s1

/-- A write of the whole CH_NCO_CTRL. -/
def State.writeNcoCtrl (s : State) (p : Nat) (v : Word) : State :=
  let s1 := s.store (CH_NCO_CTRL p) v
  if bitOf v.toNat 3 then s1.ncoApply p else s1

def execNcoApply (f : Fin 8) (p : Fin 256) (s : State) : Out :=
  .next (s.hostWrite f (CH_NCO_CTRL p) (setFld (s.rd (CH_NCO_CTRL p)) CH_NCO_CTRL.APPLY 1) (fun s => s.ncoApply p))

/-- NCO_FTW_SWITCH (R106, R107). -/
def State.ncoFtwSwitch (s : State) (p : Nat) : State :=
  match (s.unit p).nco.applyAt with
  | none => s
  | some t =>
    if (s.unit p).nco.soft = .idle then
      (s.advance (nextMultiple (s.period (p / 16)) (max t s.now))).applyFtw p
    else s

def execNcoFtwSwitch (p : Fin 256) (s : State) : Out := .next (s.ncoFtwSwitch p)

/-- NCO_SOFT_ZERO (R109): the first boundary with amplitude 0, at or after CH_NCO_AT where that is armed. -/
def State.ncoSoftZero (s : State) (p : Nat) : State :=
  match (s.unit p).nco.applyAt with
  | none => s
  | some t =>
    if (s.unit p).nco.soft = .down && (s.unit p).gen.ampPos = 0 then
      ((s.advance (nextMultiple (s.period (p / 16)) (max t s.now))).applyFtw p).modUnit p (fun u =>
        { u with nco := { u.nco with soft := .up } })
    else s

def execNcoSoftZero (p : Fin 256) (s : State) : Out := .next (s.ncoSoftZero p)

/-- NCO_SOFT_DONE (R109). -/
def State.ncoSoftDone (s : State) (p : Nat) : State :=
  if (s.unit p).nco.soft = .up && (s.unit p).gen.ampPos = s.ampTarget p then
    (s.modUnit p (fun u => { u with nco := { u.nco with soft := .idle } })).flag (CH_STAT p) CH_STAT.NCO_SOFT false
  else s

def execNcoSoftDone (p : Fin 256) (s : State) : Out := .next (s.ncoSoftDone p)

/-- NCO_AMP_WRITE (R108). -/
def execNcoAmpWrite (f : Fin 8) (p : Fin 256) (v : Word) (s : State) : Out :=
  .next (s.hostWrite f (CH_NCO_AMP p) v (fun s => s.putAmp p v.toNat))

end Sys2Proof.Machine
end

