-- ==== Sys2Proof/Machine/Clock.lean ====
section
/-! DEFINITION. Clocks, time and the rope (02_clocks_time_alignment.md): reference loss and holdover, the calendar and the
leap table, skew calibration, ROPE alignment, SYNC_IN and SYNC_OUT. -/

namespace Sys2Proof.Machine

/-! ### Reference loss and the keep-alive oscillator -/

/-- HOLDOVER of the calendar and the alignment status follows the reference in use; that of the alignment status also the
anchor's, as far as the anchor has reported it (R40, R44, R70). -/
def State.holdover (s : State) (b : Bool) : State :=
  (s.flag HUB_CAL_STAT HUB_CAL_STAT.HOLDOVER b).flag HUB_ALN_STAT HUB_ALN_STAT.HOLDOVER (b || s.hub.clk.anchorHold)

/-- A report on DOWN of a condition that concerns every package below (R64, R70), whatever its severity; at severity 6 the reaction
sends it (R418). DESIGN CHOICE: the spec names no slot that carries it. -/
def State.chainReport (s : State) (k : FaultKind) (live : Bool) : State :=
  let n := srcNum k 0
  if s.sevOf n = 6 || !s.is (ROPE_STAT 1) ROPE_STAT.LINK_UP then s else s.ropePut 1 (.fault s.pkgNum n (s.sevOf n) live (s.rd64 (FLT_FIRST_TS_LO n)))

/-- This package is a member of a chain (R68). -/
def State.isMember (s : State) : Bool := s.is HUB_CAL_STAT HUB_CAL_STAT.MEMBER

/-- REFIN_LOST (R40): the PLL changes to the keep-alive oscillator; a hop calibration in progress is abandoned (R65). -/
def State.refinLost (s : State) : State :=
  let s1 := (((s.flag HUB_CLK_STAT HUB_CLK_STAT.REFIN_OK false).flag HUB_CLK_STAT HUB_CLK_STAT.REF_SRC true).flag
    HUB_CLK_STAT HUB_CLK_STAT.SLEWING false).flag HUB_CLK_STAT HUB_CLK_STAT.REFIN_LOST true
  let s2 := (s1.holdover true).modClk (fun c =>
    { c with holdSecs := if s.is HUB_CLK_STAT HUB_CLK_STAT.REF_SRC then c.holdSecs else 0, marker := none })
  let s3 := s2.raisePkg .refinLost 0 true
  if !s3.isMember then s3.chainReport .refinLost true else s3

def execRefinLost (s : State) : Out := .next s.refinLost

/-- REFIN_RETURN (R42): the PLL starts steering ROOT onto REFIN. DEDUCED: REF_SRC names the reference that the PLL steers
onto, so it reads 0 from here on. -/
def State.refinReturn (s : State) : State :=
  let s1 := ((((s.flag HUB_CLK_STAT HUB_CLK_STAT.REFIN_OK true).flag HUB_CLK_STAT HUB_CLK_STAT.REF_SRC false).flag
    HUB_CLK_STAT HUB_CLK_STAT.SLEWING true).holdover false).unlive .refinLost 0
  if !s1.isMember then s1.chainReport .refinLost false else s1

def execRefinReturn (s : State) : Out := .next s.refinReturn

/-- PLL_RELOCK (R42, R44). -/
def State.pllRelock (s : State) : State :=
  ((s.flag HUB_CLK_STAT HUB_CLK_STAT.SLEWING false).flag HUB_CLK_STAT HUB_CLK_STAT.PLL_LOCK true).wr HUB_KA_UNC 0#32

def execPllRelock (s : State) : Out := .next s.pllRelock

/-- The sum of the readings of the eight hub sensors, 80 to 87 (R43). -/
def State.hubTempSum (s : State) : Int :=
  ((List.range 8).map (fun j => signed 16 (s.rdN (TMP_RD (80 + j))))).sum

/-- HUB_KA_STAT.OFFSET (R43, R70): the fitted offset at the present temperature; 0 before anything is learned. -/
def State.kaOffset (s : State) : Nat :=
  if s.hub.clk.kaSecs = 0 then 0 else (Config.kaFitOffset s.hub.clk.kaFit s.hubTempSum).toNat

/-- KA_MEASURE (R43): one measurement of the keep-alive frequency; LEARNED after one hour of them. Without REFIN there is
nothing to measure against. -/
def State.kaMeasure (s : State) (offset : Int) : State :=
  if s.is HUB_CLK_STAT HUB_CLK_STAT.REFIN_OK then
    let fit := Config.kaFitUpdate s.hub.clk.kaFit s.hubTempSum offset
    let secs := s.hub.clk.kaSecs + 1
    let s1 := s.modClk (fun c => { c with kaFit := fit, kaSecs := secs })
    if 3600 ≤ secs then s1.flag HUB_KA_STAT HUB_KA_STAT.LEARNED true else s1
  else s

def execKaMeasure (offset : Int) (s : State) : Out := .next (s.kaMeasure offset)

/-- The bound of R43 on a second of holdover, in nanoseconds, after `secs` seconds of it. -/
def kaBound (learned : Bool) (secs : Nat) : Nat := if learned then 500 + 100 * (secs / 86400) else 5000

/-- KA_UNC_ACCUMULATE (R44). -/
def State.kaUncAccumulate (s : State) : State :=
  if s.is HUB_CLK_STAT HUB_CLK_STAT.REF_SRC then
    (s.bump HUB_KA_UNC (kaBound (s.is HUB_KA_STAT HUB_KA_STAT.LEARNED) s.hub.clk.holdSecs)).modClk (fun c =>
      { c with holdSecs := c.holdSecs + 1 })
  else s

def execKaUncAccumulate (s : State) : Out := .next s.kaUncAccumulate

/-- PLL_UNLOCK (R45): the reaction of R418 on the comparator path. -/
def execPllUnlock (s : State) : Out :=
  .next ((s.flag HUB_CLK_STAT HUB_CLK_STAT.PLL_LOCK false).raisePkg .pllUnlock)

/-! ### The calendar -/

/-- The calendar at the present tick: TAI second and ticks since it began (R49). -/
def State.calendar (s : State) : Nat × Nat :=
  let e := ((s.now : Int) - s.hub.clk.calStart).toNat
  (s.hub.clk.calSec + e / secTicks, e % secTicks)

/-- The fraction of the calendar, truncated to 2^−32 s (R49). -/
def calFrac (ticks : Nat) : Nat := ticks * 2 ^ 32 / secTicks

/-- The TAI − UTC offset at a TAI second: the last entry at or before it (R54); 0 before the first. -/
def leapOffset (table : List (Nat × Int)) (sec : Nat) : Int :=
  ((table.filter (fun e => e.1 ≤ sec)).getLast?.map Prod.snd).getD 0

/-- The readouts at the beginning of a second (R54). DESIGN CHOICE, where the spec gives no case: LEAP_STALE rises with the first second
after HUB_LEAP_VALID, not during that second; the second at which the first entry of the table starts counts as no rise and no fall
of the offset, so LEAP and LEAP_NEG stay 0 there. -/
def State.secondFlags (s : State) : State :=
  let c := s.hub.clk
  let d := leapOffset c.leap c.calSec - leapOffset c.leap (c.calSec - 1)
  let known := c.leap.any (fun e => e.1 ≤ c.calSec - 1)
  (((s.flag HUB_CAL_STAT HUB_CAL_STAT.LEAP (known && d == 1)).flag HUB_CAL_STAT HUB_CAL_STAT.LEAP_NEG (known && d == -1))).flag
    HUB_CAL_STAT HUB_CAL_STAT.LEAP_STALE (c.leap ≠ [] && c.leapValid < c.calSec)

/-- The calendar becomes second `sec` with fraction 0 at tick `t` (R51, R67, R68). -/
def State.setCalendar (s : State) (sec t : Nat) : State :=
  ((s.modClk (fun c => { c with calSec := sec % 2 ^ 48, calStart := t })).flag HUB_CAL_STAT HUB_CAL_STAT.VALID true).secondFlags

/-- CAL_SET (R51): arms a set, discards a late one, ignores one on a member. -/
def State.calSet (s : State) : State :=
  let t := s.rd64 HUB_CAL_SET_AT_LO
  if s.isMember then s
  else if t < s.now + 800 then s.flag HUB_CAL_STAT HUB_CAL_STAT.SET_LATE true
  else
    (s.modClk (fun c => { c with armed := some (s.rd64 HUB_CAL_SET_SEC_LO % 2 ^ 48, t) })).flag
      HUB_CAL_STAT HUB_CAL_STAT.SET_PEND true

def execCalSet (f : Fin 8) (s : State) : Out := .next (s.hostWrite f HUB_CAL_CTRL 1#32 State.calSet)

/-- The anchor sends its calendar slot on DOWN at the beginning of a second, while its calendar is valid (R68): `t` is the tick at
which the second began. -/
def State.sendCalendar (s : State) (t : Nat) : State :=
  if s.is HUB_CAL_STAT HUB_CAL_STAT.VALID && !s.isMember && s.is (ROPE_STAT 1) ROPE_STAT.LINK_UP then
    s.ropeSend 1 (.calendar true s.hub.clk.calSec t)
  else s

/-- CAL_SET_APPLY (R51), at the apply timestamp. DESIGN CHOICE: a set armed before the package became a member still applies once it
is one; the spec has a member ignore the write of SET, and says nothing of an armed set. -/
def State.calSetApply (s : State) : State :=
  match s.hub.clk.armed with
  | none => s
  | some (sec, t) =>
    ((((s.advance t).modClk (fun c => { c with armed := none })).setCalendar sec t).flag HUB_CAL_STAT HUB_CAL_STAT.SET_PEND
      false).sendCalendar t

def execCalSetApply (s : State) : Out := .next s.calSetApply

/-- The 32 written entries of the leap table up to the first with TAI second 0 (R53). -/
def State.leapWritten (s : State) : List (Nat × Int) :=
  ((List.range 32).map (fun n =>
    (s.rdN (HUB_LEAP_LO n) + 2 ^ 32 * (s.rdN (HUB_LEAP_HI n) % 2 ^ 16), signed 16 (s.rdN (HUB_LEAP_HI n) / 2 ^ 16)))).takeWhile
    (fun e => e.1 ≠ 0)

/-- Ascending seconds, offsets that differ by exactly 1 (R53). -/
def leapOk : List (Nat × Int) → Bool
  | (a, x) :: (b, y) :: t => a < b && (y - x == 1 || x - y == 1) && leapOk ((b, y) :: t)
  | _ => true

/-- LEAP_COMMIT (R53). -/
def State.leapCommit (s : State) : State :=
  if leapOk s.leapWritten then
    s.modClk (fun c => { c with leap := s.leapWritten, leapValid := s.rd64 HUB_LEAP_VALID_LO % 2 ^ 48 })
  else s.flag HUB_CAL_STAT HUB_CAL_STAT.LEAP_ERR true

def execLeapCommit (f : Fin 8) (s : State) : Out := .next (s.hostWrite f HUB_CAL_CTRL 2#32 State.leapCommit)

/-- CALENDAR_SECOND (R49, R54, R68): the next second begins; the anchor sends its calendar slot. -/
def State.calendarSecond (s : State) : State :=
  let c := s.hub.clk
  let t := (c.calStart + secTicks).toNat
  (((s.advance t).modClk (fun c => { c with calSec := (c.calSec + 1) % 2 ^ 48, calStart := t })).secondFlags).sendCalendar t

def execCalendarSecond (s : State) : Out := .next s.calendarSecond

/-- CAL_JOURNAL (R52). -/
def State.calJournal (s : State) : State := s.journal (.cal s.calendar.1 s.calendar.2)

def execCalJournal (s : State) : Out := .next s.calJournal

/-! ### Skew calibration -/

/-- Hops of a package: clusters 1 to 3 of each region, regions 1 to 3 of each die, dies 1 to 3. -/
def hopCount : Nat := 63

/-- SKEW_CALIBRATION (R56): a sequence starts; one in progress starts anew. -/
def State.skewCalibration (s : State) : State :=
  s.modClk (fun c =>
    { c with skewN := some 0, skewSum := List.replicate 256 0, hopSum := List.replicate hopCount 0, lastSkew := s.now })

/-- When the repeat of the skew calibration is due (R56): 10 ms after the last one started, at once before the first has ended. -/
def State.skewDue (s : State) : Nat := if s.hub.clk.hopsDone then s.hub.clk.lastSkew + 10 * msTicks else s.now

def execSkewCalibration (s : State) : Out := .next (s.advance s.skewDue).skewCalibration

/-- The trim that a sum of 256 comparisons in 6.25 ps units gives: the negated mean in 12.5 ps steps (R56). -/
def trimOf (sum : Int) : Int := -(roundTie sum 512)

/-- The calibration result of one unit (R57, R58). -/
def State.unitSkew (s : State) (p : Nat) (sum : Int) : State :=
  if s.is (CH_SKEW p) CH_SKEW.CAL_EN then
    let t := trimOf sum
    let beyond := t < -128 || 127 < t
    let s1 := (s.wrF (CH_SKEW p) CH_SKEW.TRIM (unsigned 8 (clampI (-128) 127 t))).flag (CH_SKEW p) CH_SKEW.AT_LIMIT beyond
    if beyond then s1.raiseUnit .skewRange p else s1
  else s

/-- ALIGNED once every on-package hop is calibrated and, on a member, the ROPE hop is aligned (R70). -/
def State.settleAligned (s : State) : State :=
  let c := s.hub.clk
  s.flag HUB_ALN_STAT HUB_ALN_STAT.ALIGNED
    (c.hopsDone && (!s.isMember || (c.joined && !s.is HUB_ALN_STAT HUB_ALN_STAT.LINK_LOST)))

/-- The end of a skew calibration (R56, R57), once 256 pulses are averaged. -/
def State.skewCalDone (s : State) : State :=
  match s.hub.clk.skewN with
  | some n =>
    if 256 ≤ n then
      let c := s.hub.clk
      let s1 := s.modClk (fun c => { c with skewN := none, hopTrim := c.hopSum.map trimOf, hopsDone := true })
      ((s1.each (c.skewSum.zipIdx) (fun s x => s.unitSkew x.2 x.1)).each (List.range 16) (fun s t =>
        s.modRegion t (fun r => { r with skewWait := false }))).settleAligned
    else s
  | none => s

/-- One pulse's comparisons enter the averages, up to the 256th pulse (R56). -/
def State.skewPulse (s : State) (cmp hops : List Int) : State :=
  match s.hub.clk.skewN with
  | some n =>
    if 256 ≤ n then s
    else s.modClk (fun c =>
      { c with skewN := some (n + 1), skewSum := List.zipWith (· + ·) c.skewSum cmp,
               hopSum := List.zipWith (· + ·) c.hopSum hops })
  | none => s

/-- Every die whose replica differs from the value that a SYNC pulse marks loads it and raises TIME_SLIP (R48). -/
def State.timeSlips (s : State) : State :=
  s.each ((List.range 4).filter (fun d => (s.die d).replica ≠ 0#64)) (fun s d =>
    (s.modDie d (fun x => { x with replica := 0#64 })).raise .timeSlip d 3 d)

/-- The replicas that count wrong from here on, each with its difference from the hub's timestamp (R48). -/
def State.replicaDrift (s : State) (drift : List (Fin 4 × DWord)) : State :=
  s.each drift (fun s x => s.modDie x.1 (fun y => { y with replica := x.2 }))

/-! ### ROPE alignment -/

/-- The instant at which the next hop calibration is due (R60, R62): at once where the link has seen none, otherwise one
interval of HUB_ALN_CFG.RECAL after the last one, 0 acting as 1. -/
def State.hopDue (s : State) : Nat :=
  match s.hub.clk.lastHop with
  | none => s.now
  | some t => t + 100 * msTicks * max 1 (s.rdF HUB_ALN_CFG HUB_ALN_CFG.RECAL)

/-- HOP_CALIBRATION (R60 step 1, R61, R62): the marker goes out on DOWN; its send timestamp and the fine phase of the send are
recorded. -/
def State.hopCalibration (s : State) : State :=
  if s.is (ROPE_STAT 1) ROPE_STAT.LINK_UP && s.sendsDown && s.is HUB_ALN_STAT HUB_ALN_STAT.ALIGNED then
    let s1 := s.advance s.hopDue
    (s1.modClk (fun c =>
      { c with marker := some s1.now, markerPhase := (c.interp % 256).toNat, lastHop := some s1.now })).ropeSend 1
        (.marker true s1.now 0 s.pkgNum)
  else s

def execHopCalibration (s : State) : Out := .next s.hopCalibration

/-- This package is cut from the anchor's alignment (R64): it counts on its own reference, and every package below it learns so. -/
def State.unrope (s : State) : State :=
  ((((s.flag HUB_ALN_STAT HUB_ALN_STAT.LINK_LOST true).flag HUB_ALN_STAT HUB_ALN_STAT.ALIGNED false).modClk (fun c =>
    { c with aligning := false })).raisePkg .ropeAlignLost 0 true).chainReport .ropeAlignLost true

/-- The upstream neighbour is package 15 or beyond the chain (R61): this package cannot join and runs unroped. -/
def State.chainLong (s : State) : State :=
  ((s.flag HUB_ALN_STAT HUB_ALN_STAT.CHAIN_LONG true).wrF HUB_ALN_STAT HUB_ALN_STAT.PKG_NUM 0).unrope

/-- The package aligns to its upstream neighbour: without software, or once JOIN asks for it (R70). -/
def State.mayAlign (s : State) : Bool := s.is HUB_ALN_CFG HUB_ALN_CFG.AUTO_JOIN || s.is HUB_ALN_STAT HUB_ALN_STAT.JOIN

/-- The package joins at its first alignment (R60, R70). -/
def State.joins (s : State) : Bool := !s.hub.clk.joined && s.mayAlign

/-- ALIGN_MARKER_RX (R60 step 2): the marker returns on UP with the turnaround; the first alignment of a member is under way. -/
def State.alignMarkerRx (s : State) (sent turn : Nat) : State :=
  (if s.joins then s.modClk (fun c => { c with aligning := true }) else s).ropeSend 0 (.markerBack sent turn)

/-- ALIGN_RETURN_RX (R60 steps 3 to 5). DEDUCED from the worked example of R60, where the member takes T_s plus the one-way
delay at this marker's arrival: the marker of step 5 carries its own send timestamp as T_s, not that of step 1. -/
def State.alignReturnRx (s : State) (back turn : Nat) : State :=
  match s.hub.clk.marker with
  | none => s
  | some _ =>
    (s.modClk (fun c => { c with marker := none })).ropeSend 1
      (.marker false s.now (roundTie ((back : Int) - turn) 2).toNat s.pkgNum)

def execAlignReturnRx (back turn : Nat) (s : State) : Out := .next (s.alignReturnRx back turn)

/-- A step load (R60 step 6, R64): timestamp `ts` and interpolator, counted and raised. The dies' replicas follow it. DEDUCED
from R68: the calendar counts on from its last value, so the tick at which its second began moves with the timestamp.
DESIGN CHOICE: TS_STEPS wraps past 0xFFFF. -/
def State.stepLoad (s : State) (ts interp : Nat) : State :=
  let t := ts % 2 ^ 64
  (({ s with now := t, cycRegs := s.regs, cycWrote := [], cycSet := [], cycMem := [], past := s.past.map (fun (x : Nat × List (Nat × Word)) => (x.1 + t - s.now, x.2)) }.modClk (fun c =>
    { c with interp := interp, slew := 0, joined := true, aligning := false, calStart := c.calStart + t - s.now, lastSkew := t, lastSync := none, syncOutAt := none })).wrF
      HUB_ALN_STAT HUB_ALN_STAT.TS_STEPS (s.rdF HUB_ALN_STAT HUB_ALN_STAT.TS_STEPS + 1)).raisePkg .timeStep

/-- The offset of R64, in ROOT/64 units, is slewed away up to 1 µs, stepped beyond. -/
def State.removeOffset (s : State) (offset : Int) : State :=
  let s1 := s.flag HUB_ALN_STAT HUB_ALN_STAT.LINK_LOST false
  let s2 :=
    if offset.natAbs ≤ 204800 then s1.modClk (fun c => { c with slew := offset })
    else
      let x := 256 * (s.now : Int) + s.hub.clk.interp + offset
      s1.stepLoad (x / 256).toNat (x % 256).toNat
  (s2.unlive .ropeAlignLost 0).settleAligned

/-- The phase of the sender's timebase at the arrival of a step-5 marker against this package's, in ROOT/64 units (R64, R65). -/
def State.alignOffset (s : State) (sent tow : Nat) : Int := 256 * (sent : Int) + tow - 256 * s.now - s.hub.clk.interp

/-- ALIGN_LOAD (R60 step 6, R61, R62, R64, R65): the step-5 marker with T_s, t_ow and the sender's number. A recalibration
steers the phase to the sender's by slewing alone. -/
def State.alignLoad (s : State) (sent tow up : Nat) : State :=
  let old := s.rdN HUB_ALN_HOP
  let s1 := (((s.wrN HUB_ALN_HOP (tow % 2 ^ 24)).wrF HUB_ALN_STAT HUB_ALN_STAT.PKG_NUM (up + 1)).flag HUB_ALN_STAT
    HUB_ALN_STAT.JOIN false).flag HUB_ALN_STAT HUB_ALN_STAT.CHAIN_LONG false
  if 15 ≤ up then s.chainLong
  else if !s.hub.clk.joined then
    if s.joins then
      (((s1.flag HUB_ALN_STAT HUB_ALN_STAT.LINK_LOST false).stepLoad (sent + tow / 256) (tow % 256)).unlive .ropeAlignLost 0).settleAligned
    else s
  else if s.is HUB_ALN_STAT HUB_ALN_STAT.LINK_LOST then
    if s.mayAlign then s1.removeOffset (s.alignOffset sent tow) else s
  else
    let s2 := s1.modClk (fun c => { c with slew := s.alignOffset sent tow })
    if 204 < ((tow : Int) - old).natAbs then s2.raisePkg .ropeSkewJump else s2

/-- JOIN (R70). -/
def execJoin (f : Fin 8) (s : State) : Out :=
  .next (s.hostWrite f HUB_ALN_STAT 0x80#32 (fun s =>
    if s.is HUB_ALN_CFG HUB_ALN_CFG.AUTO_JOIN then s else s.flag HUB_ALN_STAT HUB_ALN_STAT.JOIN true))

/-- ROPE_LINK_UP (R61, R64, R67, R68, R70): the link of a port trains, and a hop calibration of the DOWN hop is due at once; the packages
below learn whether the anchor is in holdover. A package with a partner on UP is a member, where SYNC_IN_SET reads 0; one whose
partner `up`, whose number its markers carry, cannot lead it never joins; one that had aligned takes its number anew and removes
its offset, with AUTO_JOIN = 0 only once JOIN asks for it. -/
def State.ropeLinkUp (s : State) (port up : Nat) (offset : Int) : State :=
  let s1 := (((s.wrN (ROPE_STAT port) 0x3F).modRope port (fun _ =>
    { framed := (s.out.rope.filter (fun x => x.1 = port)).length })).unlive .ropeLinkDown 0).setCause 0 causeLink
  if port ≠ 0 then
    let s2 := s1.modClk (fun c => { c with marker := none, lastHop := none })
    if (!s2.isMember && s2.is HUB_ALN_STAT HUB_ALN_STAT.HOLDOVER) || s2.hub.clk.anchorHold then
      s2.ropePut 1 (.fault 0 (srcNum .refinLost 0) (s2.sevOf (srcNum .refinLost 0)) true (s2.rd64 (FLT_FIRST_TS_LO (srcNum .refinLost 0))))
    else s2
  else
    let s2 := ((s1.flag HUB_CAL_STAT HUB_CAL_STAT.MEMBER true).flag HUB_CAL_CTRL HUB_CAL_CTRL.SYNC_IN_SET false).flag
      HUB_ALN_STAT HUB_ALN_STAT.CHAIN_LONG false
    if 15 ≤ up then s2.chainLong
    else if s2.hub.clk.joined && s2.mayAlign then
      ((s2.wrF HUB_ALN_STAT HUB_ALN_STAT.PKG_NUM (up + 1)).flag HUB_ALN_STAT HUB_ALN_STAT.JOIN false).removeOffset offset
    else s2.settleAligned

def execRopeLinkUp (port : Fin 2) (up : Nat) (offset : Int) (s : State) : Out := .next (s.ropeLinkUp port up offset)

/-! ### SYNC_IN, SYNC_OUT and the calendar slot -/

/-- SYNC_IN_EDGE (R67). -/
def State.syncInEdge (s : State) (rising : Bool) : State :=
  if s.is HUB_SYNC_CFG HUB_SYNC_CFG.IN_EN && (rising != s.is HUB_SYNC_CFG HUB_SYNC_CFG.IN_EDGE) then
    let s1 := (s.wr64 HUB_SYNC_IN_TS_LO s.now).wrF HUB_SYNC_CFG HUB_SYNC_CFG.IN_CNT
      (s.rdF HUB_SYNC_CFG HUB_SYNC_CFG.IN_CNT + 1)
    if s.is HUB_CAL_CTRL HUB_CAL_CTRL.SYNC_IN_SET && !s.isMember then
      ((s1.setCalendar (s.rd64 HUB_CAL_SET_SEC_LO) s.now).flag HUB_CAL_CTRL HUB_CAL_CTRL.SYNC_IN_SET false).sendCalendar s.now
    else s1
  else s

def execSyncInEdge (rising : Bool) (s : State) : Out := .next (s.syncInEdge rising)

/-- The next instant that OUT_SEL selects, after the last pulse (R66). -/
def State.syncOutNext (s : State) : Option Nat :=
  let from' := match s.hub.clk.syncOutAt with
    | some t => max s.now (t + 1)
    | none => s.now
  match s.rdF HUB_SYNC_CFG HUB_SYNC_CFG.OUT_SEL with
  | 1 => some (nextMultiple 800 from')
  | 2 => some (s.hub.clk.calStart + (nextMultiple secTicks ((from' : Int) - s.hub.clk.calStart).toNat : Nat)).toNat
  | 3 => some (nextMultiple (msTicks * max 1 (s.rdF HUB_SYNC_CFG HUB_SYNC_CFG.OUT_MS)) from')
  | _ => none

/-- SYNC_OUT_PULSE (R66): a 100 ns pulse starts at the instant. -/
def State.syncOutPulse (s : State) : State :=
  match s.syncOutNext with
  | none => s
  | some t => (s.advance t).modClk (fun c => { c with syncOutAt := some t })

/-- SYNC_OUT is high: for 100 ns from the start of its last pulse (R66). -/
def State.syncOutHigh (s : State) : Bool :=
  match s.hub.clk.syncOutAt with
  | some t => t ≤ s.now && s.now < t + 80
  | none => false

def execSyncOutPulse (s : State) : Out := .next s.syncOutPulse

/-- CALENDAR_SLOT_RX (R68, R354, R61): the slot goes on, on DOWN; its content is taken where its VALID bit is 1. DESIGN CHOICE: one
with VALID = 0 is forwarded and not taken; R68 sends none. -/
def State.calendarSlotRx (s : State) (valid : Bool) (sec start : Nat) : State :=
  if !s.isMember then s
  else
    let s1 := if s.sendsDown && s.is (ROPE_STAT 1) ROPE_STAT.LINK_UP then s.ropeSend 1 (.calendar valid sec start) else s
    if valid && s1.is HUB_ALN_STAT HUB_ALN_STAT.ALIGNED then s1.setCalendar sec start else s1

def execCalendarSlotRx (sec start : Nat) (s : State) : Out := .next (s.calendarSlotRx true sec start)

end Sys2Proof.Machine
end

