-- ==== Sys2Proof/Machine/Nvm.lean ====
section
/-! DEFINITION. The NVM as a circular log of records (R436 to R438 of 14_faults_availability_life.md): areas, sectors and erases, the
bytes of a record, its CRC-32 and its commit word. -/

namespace Sys2Proof.Machine

/-! ### Areas -/

/-- Sectors of 4,096 bytes of an area, in the order of R436: image slots, site records, life records, calibration, settings. -/
def areaSectors (a : Nat) : Nat := [9216, 4096, 2048, 512, 256].getD a 0

/-- Bytes of a sector (R436). -/
def sectorBytes : Nat := 4096

/-- Bytes of a page (R436). -/
def pageBytes : Nat := 256

/-- The area of the NVM that a record lies in. -/
def JRec.area : JRec → Nat
  | .cal _ _ | .life _ _ _ | .relays _ _ _ => 2
  | .bank _ _ | .trims _ _ => 3
  | .site _ _ _ _ | .mark _ => 1
  | .setting _ _ | .key _ _ | .kaFit _ _ => 4

/-- The log of area `a`. -/
def State.area (s : State) (a : Nat) : NvmArea := mapGet {} a s.nvm.log

/-- The state with it changed. -/
def State.modArea (s : State) (a : Nat) (g : NvmArea → NvmArea) : State :=
  s.modNvm (fun n => { n with log := mapPut {} a (g (s.area a)) n.log })

/-! ### Records -/

/-- Pairs of an index of two bytes and a number of four. -/
def pairBytes (l : List (Nat × Nat)) : List (BitVec 8) := l.flatMap (fun x => leBytes 2 x.1 ++ leBytes 4 x.2)

/-- The TYPE of a record. DESIGN CHOICE: R437 gives the header a type and no numbers. -/
def JRec.type : JRec → Nat
  | .cal _ _ => 1
  | .life _ _ _ => 2
  | .relays _ _ _ => 3
  | .bank _ _ => 4
  | .trims _ _ => 5
  | .site _ _ full _ => if full then 7 else 6
  | .mark _ => 8
  | .setting _ _ => 9
  | .key _ _ => 10
  | .kaFit _ _ => 11

/-- The bytes of a stop of the stop log (R439). -/
def StopRec.bytes (x : StopRec) : List (BitVec 8) :=
  leBytes 2 x.src ++ leBytes 2 (x.inst + 2 ^ 15 * b2n x.counted) ++ leBytes 8 x.start ++ leBytes 8 (x.dur.getD (2 ^ 64 - 1))

/-- The payload of a record. DESIGN CHOICE: R437 states no layout; a site snapshot takes 32 bytes, so that 127 fit a payload (R438):
its context, its 24 bytes, and a CRC-32 over them. -/
def JRec.payload : JRec → List (BitVec 8)
  | .cal sec ticks => leBytes 8 sec ++ leBytes 8 ticks
  | .life data acc stops =>
    data.flatMap (fun x => leBytes 4 x.2.toNat) ++ leBytes 8 (unsigned 64 acc.tjSum) ++
      (match acc.cycle with
        | some c => leBytes 4 1 ++ leBytes 4 (unsigned 32 c.1) ++ leBytes 4 (unsigned 32 c.2)
        | none => leBytes 12 0) ++ stops.flatMap StopRec.bytes
  | .relays counts classes warned => pairBytes counts ++ pairBytes classes ++ pairBytes warned
  | .bank p data => leBytes 4 p ++ data.flatMap (fun w => leBytes 4 w.toNat)
  | .trims k data => leBytes 4 k ++ data.flatMap (leBytes 4)
  | .site d i full data =>
    let x := leBytes 4 (0x4000 * d + i) ++ data
    if full then x else x ++ leBytes 4 (crc32 x)
  | .mark done => leBytes 4 (b2n done)
  | .setting a v => leBytes 4 a ++ leBytes 4 v.toNat
  | .key k bs => leBytes 4 k ++ bs
  | .kaFit fit secs => leBytes 8 fit ++ leBytes 8 secs

/-- The greatest payload of a record (R437). -/
def maxPayload : Nat := 4064

/-- The commit word of generation `g` (R437): the generation and its complement. -/
def commitWord (g : Nat) : Nat := g % 2 ^ 32 + 2 ^ 32 * (2 ^ 32 - 1 - g % 2 ^ 32)

/-- The header of a record without its CRC: type, area, length, generation (R437). -/
def headerBytes (type area len gen : Nat) : List (BitVec 8) := leBytes 2 type ++ leBytes 2 area ++ leBytes 4 len ++ leBytes 4 gen

/-- Bytes of a record with a payload of `len` bytes: header, payload, commit word, in units of 16 bytes. -/
def recBytes (len : Nat) : Nat := 16 * (2 + (len + 15) / 16)

/-- A record has a valid commit word (R437). -/
def NvmRec.valid (r : NvmRec) : Bool := r.commit = commitWord r.gen

/-- Record `r` is the newest of some of its contents (R437). -/
def NvmArea.newest (x : NvmArea) (r : NvmRec) : Bool :=
  r.valid && r.contents.any (fun c => !x.recs.any (fun q => q.valid && r.gen < q.gen && q.piece = r.piece && q.contents.contains c))

/-- A record with a payload of `len` bytes fits the sector that is being written: none spans sectors (R437). -/
def NvmArea.fits (x : NvmArea) (len : Nat) : Bool := x.pos + recBytes len ≤ sectorBytes

/-- The log with a record programmed at its end: header and payload, then, unless power was lost before it, the commit word (R437). -/
def NvmArea.program (x : NvmArea) (a type piece : Nat) (contents : List Nat) (payload : List (BitVec 8)) (commit : Bool) : NvmArea :=
  let g := x.gen + 1
  let r : NvmRec := { contents := contents, piece := piece, sector := x.sector, pos := x.pos, len := payload.length, gen := g
                      crc := w32 (crc32 (headerBytes type a payload.length g ++ payload))
                      commit := if commit then commitWord g else 2 ^ 64 - 1 }
  { x with recs := x.recs ++ [r], pos := x.pos + recBytes payload.length, gen := g }

/-- The log goes on in the next sector, which is erased; the newest records of the sector after it are copied forward, and that sector's
erase begins, since none of its records is then the newest of its content (R437, R438). DESIGN CHOICE: the records are copied as they
stand, one sector ahead of the end of the log. -/
def NvmArea.turn (x : NvmArea) (a : Nat) : NvmArea :=
  let n := (x.sector + 1) % areaSectors a
  let m := (n + 1) % areaSectors a
  let y := (x.recs.filter (fun r => r.sector = m && x.newest r)).foldl (fun y r =>
    { y with recs := y.recs ++ [{ r with sector := n, pos := y.pos }], pos := y.pos + recBytes r.len }) { x with sector := n, pos := 0 }
  if x.recs.any (fun r => r.sector = m) then { y with erasing := some m } else y

/-! ### Erases -/

/-- The highest erase count of area `a` (R439, R450). -/
def State.wearHigh (s : State) (a : Nat) : Nat := ((s.area a).wear.map (·.2)).foldl max 0

/-- Sectors of slot `k` of the image area, 2·target + slot: 2 MiB for the package, 1 MiB for a region (R373, R436). -/
def slotSectors (k : Nat) : Nat := if 32 ≤ k then 512 else 256

/-- The mean erase count of area `a` (R439, R450): rounded down. The sectors of a slot of the image area are erased together. -/
def State.wearMean (s : State) (a : Nat) : Nat :=
  ((s.area a).wear.map (fun x => x.2 * (if a = 0 then slotSectors x.1 else 1))).sum / max 1 (areaSectors a)

/-- Sector `m` of area `a`, or the sectors of slot `m` of the image area, have been erased once more (R438). -/
def State.wearOne (s : State) (a m : Nat) : State :=
  let n := mapGet 0 m (s.area a).wear + 1
  let s1 := s.modArea a (fun x => { x with wear := mapPut 0 m n x.wear })
  if s.wearHigh a < 90000 && 90000 ≤ n then s1.raisePkg .nvmWear else s1

/-- Sector `m` of area `a` has failed: a sector of the spare area takes its place; NVM_FAIL where there is none (R438). -/
def State.retire (s : State) (a m : Nat) : State :=
  if s.nvm.spare = 0 then s.raisePkg .nvmFail
  else (s.modArea a (fun x => { x with wear := mapPut 0 m 0 x.wear })).modNvm (fun n => { n with spare := n.spare - 1 })

/-- The erase under way in area `a` ends (R437): its sector is empty and counts one more erase, or a spare sector takes its place. -/
def State.endErase (s : State) (a : Nat) (ok : Bool) : State :=
  match (s.area a).erasing with
  | none => s
  | some m =>
    if !ok && s.nvm.spare = 0 then s.raisePkg .nvmFail
    else
      let s1 := s.modArea a (fun x => { x with erasing := none, recs := x.recs.filter (fun r => r.sector ≠ m) })
      if ok then s1.wearOne a m else s1.retire a m

/-- The log of area `a` has room for a payload of `len` bytes, once a full sector has been left. -/
def State.room (s : State) (a len : Nat) : State :=
  if (s.area a).fits len then s else s.modArea a (fun x => x.turn a)

/-- The record of `r` is written into its area at once, with its commit word: of one content that fits one record. -/
def State.logOne (s : State) (r : JRec) : State :=
  let s1 := (s.endErase r.area true).room r.area r.payload.length
  s1.modArea r.area (fun x => x.program r.area r.type 0 [r.content] r.payload true)

end Sys2Proof.Machine
end

