-- ==== Sys2Proof/Machine/Records.lean ====
section
/-! DEFINITION. Result records and the conservation of counts: the record's layout and sequence number (R234 to R236 of
07_measurement_path.md), the five counts (R270, R272 of 08_reduction_engines.md), the result buffer (R349 of
11_data_movement_and_credits.md) and the reducer's input queue (R252, R253). -/

namespace Sys2Proof.Machine

/-! ### Counts -/

/-- A 64-bit count of unit `p` increased (R270). -/
def State.count64 (s : State) (a n : Nat) : State := s.wr64 a ((s.rd64 a + n) % 2 ^ 64)

/-- A new item of unit `p` (R270): it is in flight until it has a fate. -/
def State.itemNew (s : State) (p : Nat) : State := s.count64 (RDC_PROD_LO p) 1

/-- `n` items of unit `p` in flight end as dropped. -/
def State.itemsDrop (s : State) (p n : Nat) : State := s.count64 (RDC_DROP_LO p) n

/-- `n` items of unit `p` in flight end as delivered. -/
def State.itemsDeliv (s : State) (p n : Nat) : State := s.count64 (RDC_DELIV_LO p) n

/-- `n` value jobs of unit `p` in flight end as completed by the reducer. -/
def State.itemsRonly (s : State) (p n : Nat) : State := s.count64 (RDC_RONLY_LO p) n

/-! ### The record -/

/-- Flag bits of R235. -/
def flOvr : Nat := 1
def flSettle : Nat := 2
def flSuspect : Nat := 4
def flCmpl : Nat := 8
def flEnf : Nat := 16
def flPilot : Nat := 32
def flHold : Nat := 64
def flLate : Nat := 128
def flRangeChg : Nat := 256
def flEccCorr : Nat := 512
def flDropSince : Nat := 1024
def flSubst : Nat := 2048

/-- The fields of a record (R234). -/
structure RecFields where
  ts : Nat
  value : Nat
  chan : Nat
  site : Nat
  kind : Nat
  range : Nat
  flags : Nat
  seq : Nat
  step : Nat
  deriving DecidableEq, Repr

/-- The 32 bytes of a record (R234). -/
def RecFields.bytes (r : RecFields) : List (BitVec 8) :=
  leBytes 8 r.ts ++ leBytes 8 r.value ++ leBytes 2 r.chan ++ leBytes 2 r.site ++ leBytes 1 r.kind ++ leBytes 1 r.range ++
    leBytes 2 r.flags ++ leBytes 4 r.seq ++ leBytes 4 r.step

/-- The flags of a record as its bytes 22 and 23 hold them. -/
def recFlags (bs : List (BitVec 8)) : Nat := ofLeBytes ((bs.drop 22).take 2)

/-- A record's bytes with further flags set. -/
def withFlags (bs : List (BitVec 8)) (f : Nat) : List (BitVec 8) :=
  bs.take 22 ++ leBytes 2 (recFlags bs ||| f) ++ bs.drop 24

/-- The package site number of die-local site `i` of die `d` (R25), 0xFFFF for none (R26). -/
def pkgSite (d : Nat) : Option Nat → Nat
  | some i => 10240 * d + i
  | none => 0xFFFF

/-- Byte 21 of a record of unit `p`: the ranges and the force mode in force (R234). -/
def State.rangeByte (s : State) (p : Nat) : Nat :=
  s.rdF (CH_MODE p) CH_MODE.IRNG + 8 * s.rdF (CH_MODE p) CH_MODE.VRNG + 32 * b2n (s.forcesI p)

/-- No step (R234). -/
def noStep : Nat := 0xFFFFFFFF

/-! ### The result buffer -/

/-- Records that the result buffer of region `t` holds (R33, R349). DESIGN CHOICE: without a package image nothing divides the
partition, and each region holds a quarter of R32's default size. -/
def State.bufSlots (s : State) (t : Nat) : Nat :=
  if (s.blockSpan t 3).2 = 0 && s.is IMG_STAT IMG_STAT.NL then 0x100000 / 32 else (s.blockSpan t 3).2 / 32

/-- The state with region `t`'s reducer changed. -/
def State.modRed (s : State) (t : Nat) (g : RedState → RedState) : State :=
  s.modRegion t (fun r => { r with red := g r.red })

/-- The reducer of region `t`. -/
def State.red (s : State) (t : Nat) : RedState := (s.region t).red

/-- A record is written to the next slot of its region's result buffer, slots in turn (R349: records leave in production order; DESIGN
CHOICE: the buffer is a ring of 32-byte slots in its block; without a block the record is held as it is). -/
def State.bufferPut (s : State) (t : Nat) (r : Rec) : State :=
  if (s.blockSpan t 3).2 = 0 then s.modRed t (fun x => { x with buf := x.buf ++ [r] }) else
  let n := (s.red t).bufNext % s.bufSlots t
  let a := dieMem (t / 4) ((s.blockSpan t 3).1 + 32 * n)
  (s.memWrite a r.bytes).modRed t (fun x => { x with buf := x.buf ++ [{ r with slot := some a }], bufNext := (n + 1) % s.bufSlots t })

/-- A record enters the result buffer of its region, or meets it full (R349): a measurement record is dropped and counted,
a kernel record waits. A nightlight record, no item of R270, is dropped as a measurement record. -/
def State.bufferRec (s : State) (r : Rec) (kernel : Bool) : State :=
  let t := r.unit / 16
  if (s.red t).buf.length < s.bufSlots t && (s.red t).waiting = [] then s.bufferPut t r
  else if kernel then s.modRed t (fun x => { x with waiting := x.waiting ++ [r] })
  else
    ((s.bump (DIE_RBUF_DROP (t / 4) (t % 4)) 1).itemsDrop r.unit (b2n !r.nl)).modUnit r.unit (fun u =>
      { u with mea := { u.mea with dropSince := true } })

/-- Unit `p` produces a record: it takes the next sequence number, DROP_SINCE after a drop, and one item is counted
(R235, R236, R270). -/
def State.produceRec (s : State) (p : Nat) (f : RecFields) (at' : Option Nat) (kernel : Bool) : State :=
  let m := (s.unit p).mea
  let r := { f with seq := m.seqNo, flags := f.flags ||| (if m.dropSince then flDropSince else 0) }
  let s1 := (s.itemNew p).modUnit p (fun u =>
    { u with mea := { u.mea with seqNo := (u.mea.seqNo + 1) % 2 ^ 32, dropSince := false } })
  s1.bufferRec { unit := p, bytes := r.bytes, at' := at' } kernel

/-! ### The reducer's input queue -/

/-- Value jobs in a queue. -/
def valueJobs (l : List Job) : Nat :=
  (l.filter (fun j => match j with | .value .. => true | .close .. => false)).length

/-- QUSE and BUSY of RDC_STAT follow the queue and the section in execution (R276). -/
def State.refreshQueue (s : State) (t : Nat) : State :=
  let r := s.red t
  (s.wrF (RDC_STAT t) RDC_STAT.QUSE r.queue.length).flag (RDC_STAT t) RDC_STAT.BUSY (r.queue ≠ [] || r.run ≠ none)

/-- The key of the context of kernel `k`, unit `p`, quantity `q` (R257). -/
def ctxKey (k p q : Nat) : Nat := 32 * k + 2 * (p % 16) + q

/-- The key of a context of the opening numbered `g`. -/
def ctxKeyAt (g k p q : Nat) : Nat := 512 * g + ctxKey k p q

/-- The context with key `c` of region `t`. -/
def State.kctx (s : State) (t c : Nat) : KCtx := mapGet {} c (s.red t).ctxs

/-- The state with a context changed. -/
def State.modCtx (s : State) (t c : Nat) (g : KCtx → KCtx) : State :=
  s.modRed t (fun r => { r with ctxs := mapPut {} c (g (mapGet {} c r.ctxs)) r.ctxs })

/-- The items of unit `p` with no fate yet (R270), counted from occupancy: value jobs in the reducer, records in the result buffer,
on the spine and at the hub, fates not yet reported to the die. -/
def State.flight (s : State) (p : Nat) : Nat :=
  let r := s.red (p / 16)
  let mine (l : List Rec) : Nat := (l.filter (fun x => x.unit = p && !x.nl)).length
  let jobs := (r.queue.filter (fun j => match j with
    | .value _ u _ _ _ _ _ counted => u = p && counted
    | .close .. => false)).length
  let run := match r.run with
    | some x => if x.counted && !x.close && x.unit = p then 1 else 0
    | none => 0
  let f := mapGet {} p s.hub.fates
  jobs + run + mine r.buf + mine r.waiting + mine (s.hub.spine.map Prod.snd) + f.deliv + f.drop +
    ((s.hub.notices.filter (fun x => x.1 = p)).map (fun x => x.2.1 + x.2.2)).sum

/-! ### Contexts -/

/-- The BAR2 offset of word `w` of context `key` of region `t` (R257), where the image in force places it in the region's block (R33): words 0 to 63 are the
accumulators, 64 to 79 the constants, 80 holds V, 81 TFIRST, and from 82 on a word holds two counters. -/
def State.ctxWordAt (s : State) (t key w : Nat) : Option Nat :=
  match (s.region t).img with
  | some c => (c.ctxWords.find? (fun x => x.1 = 512 * w + key % 512 && x.2 + 8 ≤ (s.blockSpan t 5).2)).map (fun x =>
      dieMem (t / 4) ((s.blockSpan t 5).1 + x.2))
  | none => none

/-- Word `w` of context `key` is stored in its block (R257). -/
def State.ctxPut (s : State) (t key w v : Nat) : State :=
  match s.ctxWordAt t key w with
  | some a => s.memPut a 8 v
  | none => s

/-- Word `w` of a context as its block holds it (R257). -/
def KCtx.word (c : KCtx) (w : Nat) : Nat :=
  if w < 64 then (c.a.getD w 0).toNat
  else if w < 80 then (c.k.getD (w - 64) 0).toNat
  else if w = 80 then c.v
  else if w = 81 then c.tfirst
  else c.hb.getD (2 * (w - 82)) 0 + 2 ^ 32 * c.hb.getD (2 * (w - 82) + 1) 0

/-- The words `l` of context `key` are stored as they stand. -/
def State.ctxStore (s : State) (t key : Nat) (l : List Nat) : State :=
  s.each l (fun s w => s.ctxPut t key w ((s.kctx t key).word w))

/-- The context with word `w` as its block gives it (R257). -/
def KCtx.setWord (c : KCtx) (w v : Nat) : KCtx :=
  if w < 64 then { c with a := c.a.set w (BitVec.ofNat 64 v) }
  else if w < 80 then { c with k := c.k.set (w - 64) (BitVec.ofNat 64 v) }
  else if w = 80 then { c with v := v % 2 ^ 16 }
  else if w = 81 then { c with tfirst := v }
  else { c with hb := (c.hb.set (2 * (w - 82)) (v % 2 ^ 32)).set (2 * (w - 82) + 1) (v / 2 ^ 32) }

/-- The device reads the words `l` of context `key` (R257, R426, R427): the context goes on with what the reads give, a word that the code
does not find wrong or corrects wrongly included; whether one of them is uncorrectable. -/
def State.ctxLoad (s : State) (t key : Nat) (l : List Nat) : State × Bool :=
  l.foldl (fun r w =>
    match r.1.ctxWordAt t key w with
    | some a =>
      let m := r.1.memGet a 8
      (if m.2.2 then m.1 else m.1.modCtx t key (fun c => c.setWord w m.2.1), r.2 || m.2.2)
    | none => r) (s, false)

/-- Kernel `k` of region `t` as it stands (R256, R273). -/
def State.kernRef (s : State) (t k : Nat) : KernRef :=
  { num := k, base := s.rdN (RDC_KS_BASE t), entry := s.rdF (RDC_KENT t k) RDC_KENT.ENTRY
    close := s.rdF (RDC_KENT t k) RDC_KENT.CLOSE, hdr := s.rd (RDC_KHDR t k) }

/-- STATE of a kernel, at most 64. -/
def KernRef.state (k : KernRef) : Nat := min 64 (getFld k.hdr RDC_KHDR.STATE)

/-- HBINS of a kernel. -/
def KernRef.bins (k : KernRef) : Nat := getFld k.hdr RDC_KHDR.HBINS

/-! ### The input queue -/

/-- A value job enters the queue of its region, or finds its 496 ordinary slots full (R253, R267, R269, R270). -/
def State.queueValue (s : State) (p q key : Nat) (x : DWord) (ts flags idx : Nat) (counted : Bool) : State :=
  let t := p / 16
  let s1 := if counted then s.itemNew p else s
  if valueJobs (s.red t).queue < 496 then
    (s1.modRed t (fun r => { r with queue := r.queue ++ [.value key p q x ts flags idx counted] })).refreshQueue t
  else
    let s2 := (s1.bump (RDC_QDROP t) 1).flag (RDC_STAT t) RDC_STAT.QFULL true
    let s3 := if counted then s2.itemsDrop p 1 else s2
    (s3.modCtx t key (fun c => { c with lost := true, v := withBit c.v 15 })).ctxStore t key [80]

/-- The context of kernel `k` for unit `p` and quantity `q` as an opening makes it (R257): cleared, with the constants copied
and the site in force recorded. -/
def State.freshCtx (s : State) (k p q win bound step : Nat) : KCtx :=
  let t := p / 16
  let kern := s.kernRef t k
  { a := List.replicate kern.state 0#64, hb := List.replicate kern.bins 0, kern := kern
    site := s.siteOf p, step := step, tfirst := bound, win := some win
    k := (List.range 16).map (fun i => BitVec.ofNat 64 (s.rd64 (RDC_K_LO t k i)))
    unit := p, qty := q }

/-- The window whose reserved slot a close job takes. -/
def Job.slotOf : Job → Option Nat
  | .close w .. => some w
  | .value .. => none

/-- A close job enters the queue in the reserved slot of its window, or waits for the slot (R253). -/
def State.queueClose (s : State) (t : Nat) (j : Job) : State :=
  if (s.red t).queue.any (fun x => x.slotOf = j.slotOf) then s.modRed t (fun r => { r with closeWait := r.closeWait ++ [j] })
  else (s.modRed t (fun r => { r with queue := r.queue ++ [j] })).refreshQueue t

/-- The close job of window `w` has left the queue: one that waited for its slot enters (R253). -/
def State.slotFree (s : State) (t w : Nat) : State :=
  match (s.red t).closeWait.find? (fun x => x.slotOf = some w) with
  | some j => (s.modRed t (fun r => { r with closeWait := r.closeWait.erase j, queue := r.queue ++ [j] })).refreshQueue t
  | none => s

end Sys2Proof.Machine
end

