-- ==== Sys2Proof/Machine/Measure.lean ====
section
/-! DEFINITION. The measurement path but the pilot (07_measurement_path.md): filters, values and their correction, banks,
windows, self-test and recalibration. -/

namespace Sys2Proof.Machine

/-! ### Filters -/

/-- M, F and the FIR design of a MEA_U_FILT word (R217). -/
def filtM (v : Nat) : Nat := v % 65536 + 1
def filtF (v : Nat) : Nat := 2 ^ (v / 65536 % 4)
def filtSel (v : Nat) : Nat := v / 262144 % 4

/-- The output rate of a setting lies in the range of R217 for a loop period of `per` ticks. -/
def filtRateOk (per v : Nat) : Bool :=
  800 ≤ per * filtM v * filtF v && per * filtM v * filtF v ≤ secTicks

/-- A setting is valid for unit `p` now (R217). -/
def State.filtValid (s : State) (p v : Nat) : Bool :=
  1 ≤ v % 65536 && filtRateOk (s.period (p / 16)) v && (filtSel v ≠ 3 || (s.region (p / 16)).userTaps ≠ [])

/-- The state with unit `p`'s measurement path changed. -/
def State.modMea (s : State) (p : Nat) (g : MeasState → MeasState) : State :=
  s.modUnit p (fun u => { u with mea := g u.mea })

/-- A write of MEA_U_FILT (R217, R221): the reserved bits are dropped, an invalid setting ignored; the last of the writes for one boundary
is kept. -/
def State.filtWrite (s : State) (p : Nat) (v : Word) : State :=
  let x := v.toNat % 2 ^ 20
  if s.filtValid p x then
    (s.wrN (MEA_U_FILT p) x).modMea p (fun m =>
      { m with filtPend := m.filtPend.filter (fun y => s.eligible (p / 16) y.1 < s.eligible (p / 16) s.now) ++ [(s.now, x)] })
  else s.flag (MEA_U_STAT p) MEA_U_STAT.FILT_ERR true

def execFiltWrite (f : Fin 8) (p : Fin 256) (v : Word) (s : State) : Out :=
  .next (s.hostWrite f (MEA_U_FILT p) v (fun s => s.filtWrite p v))

/-- Both filter stages of a stream cleared (R221). -/
def StreamState.clear (x : StreamState) : StreamState :=
  { x with a1 := 0, a2 := 0, a3 := 0, c1 := 0, c2 := 0, c3 := 0, fir := [], outs := 0, ready := none, taken := true }

/-- A filter change of unit `p` to the setting `v` at the present boundary (R221, R230). -/
def State.filterChange (s : State) (p v : Nat) : State :=
  s.modMea p (fun m => { m with v := m.v.clear, i := m.i.clear, filt := v, refilter := false })

/-- The decimation M that makes setting `v` valid for a period of `per` ticks (R221): the smallest from below, or the
largest from above. -/
def adjustM (per v : Nat) : Nat :=
  if per * filtM v * filtF v < 800 then ceilDiv 800 (per * filtF v) else secTicks / (per * filtF v)

/-- The setting in force is made valid at the present rate and with the present image (R219, R221). A written setting that waits for
its boundary stays in the register, to be made valid when it takes effect (R246). -/
def State.filtAdjust (s : State) (p : Nat) : State :=
  let v := (s.unit p).mea.filt
  let v1 := if filtSel v = 3 && (s.region (p / 16)).userTaps = [] then v % 262144 else v
  let per := s.period (p / 16)
  let v2 := if filtRateOk per v1 then v1 else v1 / 65536 * 65536 + (adjustM per v1 - 1) % 65536
  if v2 = v then s
  else
    let s1 := if (s.unit p).mea.filtPend = [] then s.wrN (MEA_U_FILT p) v2 else s
    (s1.filterChange p v2).flag (MEA_U_STAT p) MEA_U_STAT.FILT_ADJ true

/-- FILTER_CHANGE (R221): the oldest write that waits takes effect at its boundary. -/
def State.filterBoundary (s : State) (p : Nat) : State :=
  match (s.unit p).mea.filtPend with
  | [] => s
  | (at', v) :: rest =>
    (((s.advance (s.effectAt (p / 16) at')).modMea p (fun m => { m with filtPend := rest })).filterChange p v).filtAdjust p

def execFilterChange (p : Fin 256) (s : State) : Out := .next (s.filterBoundary p)

/-- Taps of FIR design 0 from tap 31 − `n` on, with `rest` of the half sum left (R219): each is a Q1.23 number, and they use it up. -/
def flatFrom (f : Nat) : Nat → Int → List Int
  | 0, rest => [rest]
  | n + 1, rest =>
    let lo : Int := max (-(2 ^ 23)) (rest - (n + 1 : Nat) * (2 ^ 23 - 1))
    let hi : Int := min (2 ^ 23 - 1) (rest + (n + 1 : Nat) * 2 ^ 23)
    let x := clampI lo hi (Config.firTap f (30 - n)).toInt
    x :: flatFrom f n (rest - x)

/-- Taps 0 to 31 of FIR design 0 (R219): free but for the DC gain, which is 1 to within 2^−23, exactly 1 for a symmetric set. -/
def flatHalf (f : Nat) : List Int := flatFrom f 31 (2 ^ 22)

/-- Taps of FIR design 2 from tap 31 − `n` on, with `rest` of the half sum left (R219): none is negative, and they use it up. -/
def stepFrom (f : Nat) : Nat → Nat → List Int
  | 0, rest => [(rest : Int)]
  | n + 1, rest =>
    let x := min (Config.firStep f (30 - n)).toNat rest
    (x : Int) :: stepFrom f n (rest - x)

/-- Taps 0 to 31 of FIR design 2 (R219). -/
def stepHalf (f : Nat) : List Int := stepFrom f 31 (2 ^ 22)

/-- Tap `i` of the design `sel` at decimation `f` (R219): every design but the user's is symmetric. -/
def firTapOf (taps : List Nat) (sel f i : Nat) : Int :=
  let j := min i (63 - i)
  match sel with
  | 0 => (flatHalf f).getD j 0
  | 1 => if j = 31 then 0x400000 else 0
  | 2 => (stepHalf f).getD j 0
  | _ => signed 24 (taps.getD i 0)

/-- A result in units of 2^−14 as a signed Q18.14 word (R219). -/
def fitQ (i : Int) : Int := if -(2 ^ 31) ≤ i && i < 2 ^ 31 then i else (Config.firOver i).toInt

/-- The FIR's output (R219). -/
def firOut (taps : List Nat) (sel f : Nat) (l : List Int) : Int :=
  fitQ (roundFree ((l.zipIdx.map (fun x => firTapOf taps sel f x.2 * x.1)).sum) (2 ^ 23))

/-- A 72-bit accumulator (R219). -/
def w72 (i : Int) : Int := signed 72 (unsigned 72 i)

/-- One loop sample `x` of instant `t` enters the stream (R218, R219). -/
def StreamState.feed (z : StreamState) (taps : List Nat) (filt per t : Nat) (x : Int) : StreamState :=
  let m := filtM filt
  let a1 := w72 (z.a1 + x)
  let a2 := w72 (z.a2 + a1)
  let a3 := w72 (z.a3 + a2)
  let z1 := { z with a1 := a1, a2 := a2, a3 := a3 }
  if t % (m * per) = 0 then
    let y1 := w72 (a3 - z.c1)
    let y2 := w72 (y1 - z.c2)
    let y3 := w72 (y2 - z.c3)
    let fir := pushHist 64 (fitQ (roundFree (y3 * 2 ^ 14) ((m : Int) ^ 3))) z.fir
    let z2 := { z1 with c1 := a3, c2 := y1, c3 := y2, fir := fir, outs := min 67 (z.outs + 1) }
    if t % (m * filtF filt * per) = 0 then
      { z2 with ready := some (t, firOut taps (filtSel filt) (filtF filt) fir), taken := false }
    else z2
  else z1

/-! ### Correction -/

/-- Register `k` (O, G, T1, T2, T0, STAMP) of entry `e` of bank `b` of unit `p` (R250). -/
def bankReg (p b e k : Nat) : Nat := MEA_BANK0_O p e + 0x200 * b + 4 * k

/-- The active bank of unit `p` (R224). -/
def State.bankAct (s : State) (p : Nat) : Nat := s.rdF (MEA_U_BANK p) MEA_U_BANK.ACT

/-- The bank entry of the range in force (R224). -/
def State.bankEntry (s : State) (p : Nat) (cur : Bool) : Nat :=
  if cur then 3 + s.irng p else s.rdF (CH_MODE p) CH_MODE.VRNG

/-- A binary32 register as binary64. -/
def State.rdF32 (s : State) (a : Nat) : DWord := f64OfF32 (s.rd a)

/-- The temperature of unit `p`'s cluster, its sensor's value, substitutes included (R222, R400). -/
def State.clusterTemp (s : State) (p : Nat) : DWord :=
  f64OfRat (signed 16 (s.rdN (TMP_RD (5 * (p / 16) + p / 4 % 4)))) 16

/-- Full scale of the range in force as binary64: the booster's for unit 0 of a region in booster mode, the member's own
range in a gang (R222, R223, R102). -/
def State.fsF64 (s : State) (p : Nat) (cur : Bool) : DWord :=
  let x := if cur then (if s.isBoost p then s.fullI p else fsI (s.irng p)) else s.fullV p
  f64OfRat x.1 x.2

/-- y of R222, for `x` in units of 2^−14 LSB. -/
def State.bankCorrect (s : State) (p : Nat) (cur : Bool) (x : Int) : DWord :=
  let r (k : Nat) : Nat := bankReg p (s.bankAct p) (s.bankEntry p cur) k
  let dt := f64Sub (s.clusterTemp p) (s.rdF32 (r 4))
  let poly := f64Add (f64Add f64One (f64Mul (s.rdF32 (r 2)) dt)) (f64Mul (f64Mul (s.rdF32 (r 3)) dt) dt)
  let g := f64OfRat (s.rdN (r 1)) (2 ^ 30)
  let d := f64Sub (f64OfRat x (2 ^ 14)) (f64OfRat (s.rdI (r 0)) (2 ^ 14))
  f64Div (f64Mul (f64Mul (f64Mul g poly) d) (s.fsF64 p cur)) (f64OfInt 0x18000)

/-- The path calibration of unit `p` (R222, R282): offset, gain, leakage, and whether a read met a corrected symbol. -/
def State.pathCal (s : State) (p : Nat) (cur : Bool) : State × (DWord × DWord × DWord) × Bool :=
  let none' : DWord × DWord × DWord := (f64Zero, f64One, f64Zero)
  match s.siteOf p with
  | none => (s, none', false)
  | some i =>
    let d := p / 64
    if s.ctxFlag d i 0 && s.ctxFlag d i 2 then
      let a := s.ctxAt d i
      let r := s.memRead (a + 0x88 + 8 * s.bankEntry p cur) 8
      let l := if cur then r.1.memRead (a + 0xE0 + 4 * s.irng p) 4 else (r.1, {})
      let f32 (bs : List (BitVec 8)) : DWord := f64OfF32 (w32 (ofLeBytes bs))
      if r.2.bad || l.2.bad then (l.1, none', false)
      else
        (l.1, (f32 (r.2.bytes.take 4), f32 (r.2.bytes.drop 4), if cur then f32 l.2.bytes else f64Zero), r.2.corr || l.2.corr)
    else (s, none', false)

/-- The corrected voltage value (R222). -/
def State.corrV (s : State) (p : Nat) (x : Int) : State × DWord × Bool :=
  let c := s.pathCal p false
  (c.1, f64Add (f64Mul c.2.1.2.1 (s.bankCorrect p false x)) c.2.1.1, c.2.2)

/-- The corrected current value (R222), with the voltage value of the same instant. -/
def State.corrI (s : State) (p : Nat) (x : Int) (v : DWord) : State × DWord × Bool :=
  let c := s.pathCal p true
  (c.1, f64Sub (f64Add (f64Mul c.2.1.2.1 (s.bankCorrect p true x)) c.2.1.1) (f64Mul c.2.1.2.2 v), c.2.2)

/-! ### Marks -/

/-- The instant of the loop sample `n` samples before the one at `t`, with the period `per` now and the changes `l` of it before (R220). -/
def samplesBack : List (Nat × Nat) → Nat → Nat → Nat → Nat
  | [], per, t, n => t - n * per
  | (b, o) :: l, per, t, n => if n * per ≤ t - b then t - n * per else samplesBack l o b (n - (t - b) / per)

/-- The first sample instant of the support of a value of unit `p` with output instant `t`: 66 · M − 2 consecutive loop samples that end
there, whatever their periods (R220). -/
def State.supportFrom (s : State) (p t : Nat) : Nat :=
  samplesBack (s.region (p / 16)).rates (s.period (p / 16)) t (66 * filtM (s.unit p).mea.filt - 3)

/-- A marked sample lies at or after `from'`. -/
def markedSince (from' : Nat) : Option Nat → Bool
  | some a => from' ≤ a
  | none => false

/-- ENF of R235 (R398). -/
def State.enforced (s : State) (p : Nat) : Bool :=
  s.rdF (TMP_RGN (p / 16)) TMP_RGN.ENF ≠ 0 || s.govFactor p < 0x8000

/-- The stream of quantity `q` (0 voltage, 1 current) of unit `p`. -/
def MeasState.stream (m : MeasState) (q : Nat) : StreamState := if q = 1 then m.i else m.v

/-- The flags of the value of quantity `q` of unit `p` at its output instant `t` (R228 to R235), ECC_CORR and DROP_SINCE
apart. -/
def State.valueFlags (s : State) (p q t : Nat) : Nat :=
  let m := (s.unit p).mea
  let z := m.stream q
  let from' := s.supportFrom p t
  (if markedSince from' z.ovrAt then flOvr else 0) |||
  (if markedSince from' m.settleAt || z.outs ≤ 66 then flSettle else 0) |||
  (if markedSince from' z.suspAt then flSuspect else 0) |||
  (if markedSince from' m.cmplAt then flCmpl else 0) |||
  (if s.enforced p then flEnf else 0) |||
  (if markedSince from' z.pilotAt then flPilot else 0) |||
  (if markedSince from' m.holdAt then flHold else 0) |||
  (if markedSince from' z.rngAt then flRangeChg else 0)

/-- The value of quantity `q` that unit `p` has made at the present output instant takes its flags and its delay; RANGE_CHG is carried by
the first value whose support holds the change's sample (R220, R229). -/
def State.markValue (s : State) (p q : Nat) : State :=
  let z := (s.unit p).mea.stream q
  if z.ready.map Prod.fst = some s.now && !z.taken then
    let f := s.valueFlags p q s.now
    let d := (66 * filtM (s.unit p).mea.filt - 3) * s.period (p / 16)
    let g (z : StreamState) : StreamState :=
      { z with flags := f, delay := d, rngAt := if f &&& flRangeChg = 0 then z.rngAt else none }
    s.modMea p (fun m => if q = 1 then { m with i := g m.i } else { m with v := g m.v })
  else s

/-! ### Values -/

/-- A measurement value as it meets the windows: raw, corrected, flags. -/
structure MeaVal where
  raw : Int
  eng : DWord
  flags : Nat
  deriving DecidableEq, Repr

/-- The value of one unit's current with its flags; the path calibration read for the voltage of the same instant counts too (R235). -/
def State.unitCurrent (s : State) (p : Nat) : State × MeaVal :=
  let m := (s.unit p).mea
  let xv := (m.v.ready.map Prod.snd).getD 0
  let xi := (m.i.ready.map Prod.snd).getD 0
  let v := s.corrV p xv
  let i := v.1.corrI p xi v.2.1
  (i.1, { raw := xi, eng := i.2.1, flags := m.i.flags ||| (if v.2.2 || i.2.2 then flEccCorr else 0) })

/-- The value of unit `p`'s voltage with its flags. -/
def State.unitVoltage (s : State) (p : Nat) : State × MeaVal :=
  let z := (s.unit p).mea.v
  let xv := (z.ready.map Prod.snd).getD 0
  let v := s.corrV p xv
  (v.1, { raw := xv, eng := v.2.1, flags := z.flags ||| (if v.2.2 then flEccCorr else 0) })

/-- The current value that unit `p` reports (R223): in a gang, the sum of the members with their switches closed. -/
def State.reportCurrent (s : State) (p t : Nat) : State × MeaVal :=
  if s.master p then
    let own := s.unitCurrent p
    ((s.members p).filter (fun q => s.closed q && (s.unit q).mea.i.ready.map Prod.fst = some t)).foldl (fun r q =>
      let x := r.1.unitCurrent q
      (x.1, { raw := own.2.raw, eng := f64Add r.2.eng x.2.eng, flags := r.2.flags ||| x.2.flags }))
      (own.1, { raw := own.2.raw, eng := f64Zero, flags := own.2.flags })
  else s.unitCurrent p

/-- The converter that holds the role of quantity `q` of unit `p`: a slice, or the pilot, 8 (R225, R237). -/
def State.converter (s : State) (p q : Nat) : Nat :=
  let k := 2 * (p % 4) + q
  if (s.cluster (p / 4)).inRole && s.rdF (MEA_PIL_STAT (p / 16) (p / 4 % 4)) MEA_PIL_STAT.SLICE = k then 8 else k

/-- Window `n` of region `t` admits quantity `q` (R226). -/
def State.winQty (s : State) (t n q : Nat) : Bool :=
  match s.rdF (MEA_WIN_CFG t n) MEA_WIN_CFG.QTY with
  | 0 => q = 1
  | 1 => q = 0
  | _ => true

/-- An output instant `t` lies within the opening (R226). -/
def OpenWin.admits (w : OpenWin) (t : Nat) : Bool :=
  let a := w.bound + usTicks * w.dly
  let ends := if w.len = 0 then true else t < a + usTicks * w.len
  a ≤ t && ends && (match w.until' with | some u => t < u | none => true)

/-- Kernel `k` of region `t` is valid (R256). -/
def State.kernelValid (s : State) (t k : Nat) : Bool := s.is (RDC_KENT t k) RDC_KENT.VALID

/-- A value of quantity `q` meets one open window (R226, R252, R270). Where another window has taken the context, the value becomes no
job: DESIGN CHOICE, R258 closes the context for the earlier window and does not say what the window's later values meet. -/
def State.takeValue (s : State) (p q t : Nat) (w : OpenWin) (x : MeaVal) : State :=
  let r := p / 16
  let c := MEA_WIN_CFG r w.win
  let idx := if q = 1 then w.idxI else w.idxV
  let m := (s.unit p).mea
  let ts := s.dieTs (p / 64) (t - (m.stream q).delay / 2)
  let rec' := s.is c MEA_WIN_CFG.REC
  let k := w.kern
  let s1 := s.modMea p (fun m => { m with wins := m.wins.map (fun v =>
    if v = w then (if q = 1 then { v with idxI := v.idxI + 1 } else { v with idxV := v.idxV + 1 }) else v) })
  let value := if w.raw then unsigned 32 x.raw + 2 ^ 32 * (idx % 2 ^ 24 + 2 ^ 24 * s.converter p q) else x.eng.toNat
  let s2 := if rec' then
      s1.produceRec p { ts := ts, value := value, chan := s.leadOf p, site := pkgSite (p / 64) (s.siteOf p),
                        kind := (if w.raw then 1 else 0) + 16 * (1 - q), range := s.rangeByte p, flags := x.flags, seq := 0,
                        step := w.step } (some t) false
    else s1
  let flags := x.flags ||| (if rec' && m.dropSince then flDropSince else 0)
  match w.gen with
  | some g =>
    let key := ctxKeyAt g k p q
    if (s.red r).ctxs.any (fun c => c.1 = key && c.2.win = some w.win) then
      s2.queueValue p q key (if w.raw then f64OfRat x.raw (2 ^ 14) else x.eng) ts flags idx (!rec')
    else s2
  | none => if s.is c MEA_WIN_CFG.RDC && !s.kernelValid r k then s2.flag (RDC_STAT r) RDC_STAT.KINV true else s2

/-- The values of unit `p` meet the window numbered `n`: current first, then voltage (R236). -/
def State.admitWin (s : State) (p t n : Nat) (i v : MeaVal) : State :=
  let find (s : State) : Option OpenWin := (s.unit p).mea.wins.find? (fun w => w.win = n && w.admits t)
  let s1 := match find s with
    | some w => if s.winQty (p / 16) n 1 then s.takeValue p 1 t w i else s
    | none => s
  match find s1 with
  | some w => if s1.winQty (p / 16) n 0 then s1.takeValue p 0 t w v else s1
  | none => s1

/-- The value of a stream has met the windows (R218). -/
def StreamState.spend (z : StreamState) : StreamState := { z with taken := true }

/-- A voltage value joins its nightlight second (R386). -/
def NlAcc.add (a : NlAcc) (x : DWord) (flags : Nat) : NlAcc :=
  if a.n = 0 then { n := 1, min := x, max := x, sum := x, flags := flags }
  else { n := a.n + 1, min := f64Min a.min x, max := f64Max a.max x, sum := f64Add a.sum x, flags := a.flags ||| flags }

/-- MEAS_VALUE_OUTPUT (R218, R222, R223, R226, R386). -/
def State.measValue (s : State) (p : Nat) : State :=
  let m := (s.unit p).mea
  match m.v.ready, m.i.ready with
  | some (t, _), some _ =>
    if m.v.taken then s
    else
      let i := s.reportCurrent p t
      let v := i.1.unitVoltage p
      let s1 := (v.1.wr64 (MEA_U_LASTV_LO p) v.2.eng.toNat).wr64 (MEA_U_LASTI_LO p) i.2.eng.toNat
      let s2 := s1.modMea p (fun m =>
        { m with v := m.v.spend, i := m.i.spend, nl := if s.nightlight (p / 16) then mapPut {} (t / secTicks) ((mapGet {} (t / secTicks) m.nl).add v.2.eng v.2.flags) m.nl
                 else m.nl })
      (m.wins.map OpenWin.win).foldl (fun s n => s.admitWin p t n i.2 v.2) (s2.emit (p / 64) (unitProd p evValue) t)
  | _, _ => s

def execMeasValueOutput (p : Fin 256) (s : State) : Out := .next (s.measValue p)

/-! ### Banks -/

/-- COMMIT (R224). -/
def State.bankCommit (s : State) (p : Nat) : State :=
  let a := MEA_U_BANK p
  if s.is a MEA_U_BANK.CPEND || s.is a MEA_U_BANK.JPEND then s.flag (MEA_U_STAT p) MEA_U_STAT.COMMIT_IGN true
  else (s.flag a MEA_U_BANK.CPEND true).modMea p (fun m => { m with commitAt := some s.now })

def execBankCommit (f : Fin 8) (p : Fin 256) (s : State) : Out :=
  .next (s.hostWrite f (MEA_U_BANK p) 2#32 (fun s => s.bankCommit p))

/-- The content of bank `b` of unit `p` for the journal: the bank's number, then its entries 0 to 10. -/
def State.bankData (s : State) (p b : Nat) : List Word :=
  w32 b :: (List.range 66).map (fun j => s.rd (bankReg p b (j / 6) (j % 6)))

/-- BANK_SWAP (R224). -/
def State.bankSwap (s : State) (p : Nat) : State :=
  match (s.unit p).mea.commitAt with
  | none => s
  | some at' =>
    let a := MEA_U_BANK p
    let b := 1 - s.bankAct p
    ((((s.advance (s.effectAt (p / 16) at')).modMea p (fun m => { m with commitAt := none })).flag a MEA_U_BANK.CPEND
      false).wrF a MEA_U_BANK.ACT b |>.flag a MEA_U_BANK.JPEND true).journal (.bank p (s.bankData p b))

def execBankSwap (p : Fin 256) (s : State) : Out := .next (s.bankSwap p)

/-- The offsets and gains of a recalibration into the inactive bank, with t1, t2 and t0 of the active one (R245). -/
def State.recalWrite (s : State) (p : Nat) (data : List (Word × Word)) : State :=
  let b := s.bankAct p
  s.each (List.range 11) (fun s e =>
    let x := data.getD e (s.rd (bankReg p b e 0), s.rd (bankReg p b e 1))
    let s1 := (s.wr (bankReg p (1 - b) e 0) x.1).wr (bankReg p (1 - b) e 1) x.2
    ([2, 3, 4].foldl (fun s k => s.wr (bankReg p (1 - b) e k) (s.rd (bankReg p b e k))) s1).wrN (bankReg p (1 - b) e 5)
      (s.hub.clk.calSec % 2 ^ 32))

/-- The journal record of unit `p`'s bank is complete (R224, R437); a recalibration that waited commits now (R245). -/
def State.bankJournaled (s : State) (p : Nat) (data : List Word) : State :=
  let s1 := (s.modNvm (fun n => { n with banks := mapPut [] p data n.banks })).flag (MEA_U_BANK p) MEA_U_BANK.JPEND false
  let m := (s.unit p).mea
  if m.recalWait then
    let s2 := match m.recalData with
      | some d => s1.recalWrite p d
      | none => s1
    (s2.modMea p (fun m => { m with recalWait := false, recalData := none })).bankCommit p
  else s1

/-- BANK_JOURNAL_DONE (R224). -/
def State.bankJournalDone (s : State) (p : Nat) : State :=
  match s.nvm.queue.find? (fun r => r.content = 0x100 + p) with
  | some (.bank q data) =>
    ((s.modNvm (fun n => { n with queue := n.queue.erase (.bank q data) })).logOne (.bank q data)).bankJournaled p data
  | _ => s

def execBankJournalDone (p : Fin 256) (s : State) : Out := .next (s.bankJournalDone p)

/-- A write of a bank register by the host (R224): a write to the active bank is ignored with BANK_WR. -/
def State.bankWrite (s : State) (p b a : Nat) (v : Word) : State :=
  if s.bankAct p = b then s.flag (MEA_U_STAT p) MEA_U_STAT.BANK_WR true else s.store a v

/-! ### Windows -/

/-- The contexts `held` leave their window, whose close job enters the queue (R252, R258, R260). -/
def State.closeCtxs (s : State) (t n step c : Nat) (early : Bool) (held : List Nat) : State :=
  (s.queueClose t (.close n step c early held)).each held (fun s k => s.modCtx t k (fun y => { y with win := none, early := early }))

/-- Window `n` of region `t` closes for the units `ps` at boundary `c` (R226, R227, R252): it stops admitting, its close
job enters the queue where it fed a kernel, WIN_CLOSE is emitted. -/
def State.closeWindow (s : State) (t n c : Nat) (ps : List Nat) (early : Bool) : State :=
  let ws := ps.filterMap (fun p => (s.unit p).mea.wins.find? (fun w => w.win = n))
  let held := ((s.red t).ctxs.filter (fun x => x.2.win = some n && ps.contains x.2.unit)).map Prod.fst
  let s1 := s.each ps (fun s p => s.modMea p (fun m => { m with wins := m.wins.filter (fun w => w.win ≠ n) }))
  let s2 := if ws.any (fun w => w.gen ≠ none) then s1.closeCtxs t n ((ws.map OpenWin.step).headD 0) c early held else s1
  s2.emitRegion t evWinClose

/-- The contexts of kernel `k` that an opening on the units `ps` takes and that another window still holds close for that window first,
one close job to a window, at the commit boundary `b` (R258). -/
def State.releaseCtxs (s : State) (t n k b : Nat) (ps : List Nat) : State :=
  let held := (s.red t).ctxs.filter (fun x =>
    x.2.win ≠ none && ps.any (fun p => [1, 0].any (fun q => s.winQty t n q && x.1 % 512 = ctxKey k p q)))
  s.each (indices 16 (fun m => held.any (fun x => x.2.win = some m))) (fun s m =>
    let l := held.filter (fun x => x.2.win = some m)
    s.closeCtxs t m ((l.map (fun x => x.2.step)).headD 0) b false (l.map Prod.fst))

/-- Window `n` opens on unit `p` at the commit boundary `b` of step `num` (R226, R227, R256, R257). -/
def State.openOn (s : State) (p n b num : Nat) (raw : Bool) (gen : Option Nat) : State :=
  let t := p / 16
  let k := s.rdF (MEA_WIN_CFG t n) MEA_WIN_CFG.KERNEL
  let w : OpenWin :=
    { win := n, bound := b, step := num, raw := raw, gen := gen, kern := k
      dly := s.rdN (MEA_WIN_DLY t n) % 2 ^ 24, len := s.rdN (MEA_WIN_LEN t n) % 2 ^ 24 }
  let s1 := s.modMea p (fun m => { m with wins := m.wins ++ [w] })
  match gen with
  | some g =>
    [1, 0].foldl (fun s q =>
      if s.winQty t n q then
        let c := s.freshCtx k p q n b num
        (s.modCtx t (ctxKeyAt g k p q) (fun _ => c)).ctxStore t (ctxKeyAt g k p q) (List.range (82 + (c.hb.length + 1) / 2))
      else s) s1
  | none => s1

/-- MEAS opens window `n` of region `t` for the units of `mask` at the commit boundary `b` of step `num` (R203 item 8, R256). -/
def State.openWindow (s : State) (t n mask b num : Nat) (raw : Bool) : State :=
  let ps := (unitsOf t).filter (fun p => bitOf mask (p % 16))
  let again := ps.filter (fun p => (s.unit p).mea.wins.any (fun w => w.win = n))
  let s1 := if again = [] then s else s.closeWindow t n b again false
  let c := MEA_WIN_CFG t n
  let k := s.rdF c MEA_WIN_CFG.KERNEL
  if s.is c MEA_WIN_CFG.RDC && s.kernelValid t k then
    let g := (s1.red t).gen
    ((s1.releaseCtxs t n k b ps).modRed t (fun r => { r with gen := g + 1 })).each ps (fun s p => s.openOn p n b num raw (some g))
  else
    (if s.is c MEA_WIN_CFG.RDC then s1.flag (RDC_STAT t) RDC_STAT.KINV true else s1).each ps (fun s p =>
      s.openOn p n b num raw none)

/-- Units of region `t` on which an opening of window `n` by the step `st` is open. -/
def State.winUnits (s : State) (t n st : Nat) : List Nat :=
  (unitsOf t).filter (fun p => (s.unit p).mea.wins.any (fun w => w.win = n && w.step = st))

/-- The openings of window `n` of region `t` that have a length of their own, the first opening first: one on each unit, as a step that
outlives its close, and a later one on other units, can leave more than one (R201, R226). -/
def State.timedWins (s : State) (t n : Nat) : List OpenWin :=
  (unitsOf t).filterMap (fun p => (s.unit p).mea.wins.find? (fun w => w.win = n && w.len ≠ 0))

/-- The boundary at whose decision point an opening closes (R226): the first at or after B + DLY + LEN. -/
def State.winEnd (s : State) (t : Nat) (w : OpenWin) : Nat := nextMultiple (s.period t) (w.bound + usTicks * (w.dly + w.len))

/-- The opening of window `n` that closes next. -/
def State.winNext (s : State) (t n : Nat) : Option OpenWin :=
  (s.timedWins t n).foldl (fun a w => match a with
    | none => some w
    | some v => if s.winEnd t w < s.winEnd t v then some w else some v) none

/-- WINDOW_CLOSE (R226): the decision point of the first loop boundary at or after B + DLY + LEN. -/
def State.windowClose (s : State) (t n : Nat) : State :=
  match s.winNext t n with
  | none => s
  | some w => (s.advance (s.winEnd t w - leadTicks)).closeWindow t n (s.winEnd t w) (s.winUnits t n w.step) false

def execWindowClose (t : Fin 16) (n : Fin 16) (s : State) : Out := .next (s.windowClose t n)

/-! ### SUSPECT -/

/-- SUSPECT_END (R233). -/
def State.suspectEnd (s : State) (k : Nat) : State :=
  match (s.cluster k).suspUntil with
  | none => s
  | some u =>
    ((s.advance u).modCluster k (fun c => { c with suspUntil := none })).each (clusterUnits k) (fun s p =>
      s.flag (MEA_U_STAT p) MEA_U_STAT.SUSPECT false)

def execSuspectEnd (k : Fin 64) (s : State) : Out := .next (s.suspectEnd k)

/-! ### Self-test and recalibration -/

/-- Unit `p` is idle (R244). -/
def State.idle (s : State) (p : Nat) : Bool :=
  !s.closed p && !s.is (CH_CTRL p) CH_CTRL.OUT_REQ && (s.unit p).safe = .none && !s.is (CH_GANG p) CH_GANG.MEMBER &&
    !s.isBoost p && !(s.seqRunning (p / 16) && s.bit (SEQ_UMASK (p / 16)) (p % 16))

/-- RESULT of MEA_REQ_STAT. -/
def State.reqResult (s : State) (t r : Nat) : State := s.wrF (MEA_REQ_STAT t) MEA_REQ_STAT.RESULT r

/-- A procedure starts on unit `p` (R244). -/
def State.startProc (s : State) (p : Nat) (x : Proc) : State :=
  (s.modMea p (fun m => { m with proc := x })).flag (MEA_U_STAT p) MEA_U_STAT.PROC true

/-- A handover of a slice of unit `p` is in progress (R238). -/
def State.slicesBusy (s : State) (p : Nat) : Bool :=
  let k := p / 4
  (s.cluster k).busy && !(s.cluster k).only && s.rdF (MEA_PIL_STAT (k / 4) (k % 4)) MEA_PIL_STAT.SLICE / 2 = p % 4

/-- KIND 0 (R244): during a handover of the unit's slices it runs once that has ended (R246). -/
def State.selfTest (s : State) (p : Nat) : State :=
  if !s.idle p then s.reqResult (p / 16) 1
  else if s.slicesBusy p then (s.modCluster (p / 4) (fun c => { c with testUnit := some p })).reqResult (p / 16) 0
  else (s.startProc p .selfTest).reqResult (p / 16) 0

/-- KIND 1 (R244). -/
def State.recalibration (s : State) (p : Nat) : State :=
  if s.idle p then (s.startProc p .recal).reqResult (p / 16) 0
  else (s.wrF (MEA_REQ_STAT (p / 16)) ⟨16 + p % 16, 1⟩ 1).reqResult (p / 16) 2

/-- Self-trim of cluster `k`'s pilot outside a handover starts (R242, R244). -/
def State.trimAlone (s : State) (k : Nat) (unit : Option Nat) : State :=
  (s.modCluster k (fun c => { c with busy := true, only := true, onlyUnit := unit, phaseAt := s.now })).wrF
    (MEA_PIL_STAT (k / 4) (k % 4)) MEA_PIL_STAT.PHASE 0

/-- KIND 2, for the cluster of unit `p` (R244): after a handover or a self-trim in progress, in the order of the requests, or refused for
a pilot without a spare. -/
def State.pilotOnly (s : State) (p : Nat) : State :=
  let k := p / 4
  let a := MEA_PIL_STAT (k / 4) (k % 4)
  if s.is a MEA_PIL_STAT.SUBST || s.is a MEA_PIL_STAT.PILOT_FAIL then s.reqResult (p / 16) 3
  else if (s.cluster k).busy then
    (s.modCluster k (fun c => { c with onlyWait := c.onlyWait ++ [p] })).reqResult (p / 16) 0
  else (s.trimAlone k (some p)).reqResult (p / 16) 0

/-- A write of MEA_REQ (R244, R249). -/
def State.writeMeaReq (s : State) (t : Nat) (v : Word) : State :=
  let s1 := s.store (MEA_REQ t) (setFld v MEA_REQ.GO 0)
  let p := 16 * t + getFld v MEA_REQ.UNIT
  if getFld v MEA_REQ.GO = 0 then s1
  else
    match getFld v MEA_REQ.KIND with
    | 0 => s1.selfTest p
    | 1 => s1.recalibration p
    | 2 => s1.pilotOnly p
    | _ => s1

/-- The word that submits a request of `kind` for region-local unit `u`. -/
def reqWord (kind u : Nat) : Word := w32 (2 ^ 31 + 256 * kind + u)

def execSelfTest (f : Fin 8) (t : Fin 16) (u : Fin 16) (s : State) : Out :=
  .next (s.hostWrite f (MEA_REQ t) (reqWord 0 u) (fun s => s.writeMeaReq t (reqWord 0 u)))

def execRecalibration (f : Fin 8) (t : Fin 16) (u : Fin 16) (s : State) : Out :=
  .next (s.hostWrite f (MEA_REQ t) (reqWord 1 u) (fun s => s.writeMeaReq t (reqWord 1 u)))

def execPilotOnly (f : Fin 8) (t : Fin 16) (u : Fin 16) (s : State) : Out :=
  .next (s.hostWrite f (MEA_REQ t) (reqWord 2 u) (fun s => s.writeMeaReq t (reqWord 2 u)))

/-- The procedure of unit `p` ends by itself: PROC clears, DONE is set. -/
def State.procDone (s : State) (p : Nat) : State :=
  ((s.modMea p (fun m => { m with proc := .none })).flag (MEA_U_STAT p) MEA_U_STAT.PROC false).flag (MEA_U_ST p) MEA_U_ST.DONE
    true

/-- SELF_TEST_DONE (R245): `fail` holds the failing checks, bits 6:0 for bits 14:8. -/
def State.selfTestDone (s : State) (p : Nat) (fail : BitVec 8) : State :=
  if (s.unit p).mea.proc = .selfTest then
    ((s.procDone p).wrF (MEA_U_ST p) MEA_U_ST.FAIL (fail.toNat % 128)).flag (MEA_U_ST p) MEA_U_ST.PASS (fail.toNat % 128 = 0)
  else s

def execSelfTestDone (p : Fin 256) (fail : BitVec 8) (s : State) : Out := .next (s.selfTestDone p fail)

/-- RECAL_DONE (R245): new offsets and gains, one pair for each of the eleven entries; the commit waits while a commit or its journal
record is pending, and a bank that such a commit is about to make active is not written. -/
def State.recalDone (s : State) (p : Nat) (data : List (Word × Word)) : State :=
  if (s.unit p).mea.proc = .recal then
    let s1 := s.procDone p
    if s.is (MEA_U_BANK p) MEA_U_BANK.CPEND then s1.modMea p (fun m => { m with recalWait := true, recalData := some data })
    else
      let s2 := s1.recalWrite p data
      if s.is (MEA_U_BANK p) MEA_U_BANK.JPEND then s2.modMea p (fun m => { m with recalWait := true }) else s2.bankCommit p
  else s

def execRecalDone (p : Fin 256) (data : List (Word × Word)) (s : State) : Out := .next (s.recalDone p data)

/-- RECAL_DEQUEUE (R244). -/
def State.recalDequeue (s : State) (p : Nat) : State :=
  let q : Fld := ⟨16 + p % 16, 1⟩
  if s.is (MEA_REQ_STAT (p / 16)) q && s.idle p && (s.unit p).mea.proc = .none then
    (s.wrF (MEA_REQ_STAT (p / 16)) q 0).startProc p .recal
  else s

def execRecalDequeue (p : Fin 256) (s : State) : Out := .next (s.recalDequeue p)

end Sys2Proof.Machine
end

