-- ==== Sys2Proof/Machine/Pilot.lean ====
section
/-! DEFINITION. The pilot slice of a cluster (R237 to R245 of 07_measurement_path.md): rotation, handover, substitution,
restore. What a conversion of the cluster reference finds is an operand: the trims it leads to, in the units of MEA_TRIM. -/

namespace Sys2Proof.Machine

/-- MEA_PIL_STAT of cluster `k`. -/
def pilStat (k : Nat) : Nat := MEA_PIL_STAT (k / 4) (k % 4)

/-- The phase of the handover (R238), 6 when the pilot is free. -/
def State.pilPhase (s : State) (k n : Nat) : State := s.wrF (pilStat k) MEA_PIL_STAT.PHASE n

/-- Cluster `k` is in phase `n` of a handover or a self-trim. -/
def State.inPhase (s : State) (k n : Nat) : Bool := (s.cluster k).busy && s.rdF (pilStat k) MEA_PIL_STAT.PHASE = n

/-- The slice of the present or last handover. -/
def State.pilSlice (s : State) (k : Nat) : Nat := s.rdF (pilStat k) MEA_PIL_STAT.SLICE

/-- An event of cluster `k` (R316). -/
def State.emitCluster (s : State) (k o : Nat) : State := s.emit (k / 16) (clusterProd k o) s.now

/-- Self-trim and slice trim last 76.8 µs (R238). -/
def trimTicks : Nat := 61440

/-- A trim is out of its limits (R240, R241): ±64 LSB of offset in 1/16 LSB, ±1 % of gain in 2^−20. -/
def trimBad (off gain : Int) : Bool := off < -1024 || 1024 < off || 100 * gain < -(2 ^ 20) || 2 ^ 20 < 100 * gain

/-- A trim as MEA_TRIM_k holds it (R251). -/
def trimWord (off gain : Int) : Nat := unsigned 16 off + 2 ^ 16 * unsigned 16 gain

/-- The trims and the pilot's status of cluster `k`, for the journal (R240, R242). -/
def State.trimData (s : State) (k : Nat) : List Nat :=
  (s.rdN (pilStat k) &&& 0x1F100) :: (List.range 9).map (fun j => s.rdN (MEA_TRIM (k / 4) (k % 4) j))

/-- The trims of cluster `k` are journaled. -/
def State.journalTrims (s : State) (k : Nat) : State := s.journal (.trims k (s.trimData k))

/-- SUBST of cluster `k`, with its summary in MEA_STAT; a cluster without a spare breaches a condition (R240, R249, R442). -/
def State.setSubst (s : State) (k : Nat) (on : Bool) : State :=
  let s1 := (s.flag (pilStat k) MEA_PIL_STAT.SUBST on).flag (MEA_STAT (k / 4)) ⟨16 + k % 4, 1⟩ on
  if on && !s.is (pilStat k) MEA_PIL_STAT.SUBST then s1.breach 3 else s1

/-- PILOT_FAIL of cluster `k`, with its summary; the NVM keeps it (R251), so that a change is journaled. -/
def State.setPilotFail (s : State) (k : Nat) (on : Bool) : State :=
  let s1 := (s.flag (pilStat k) MEA_PIL_STAT.PILOT_FAIL on).flag (MEA_STAT (k / 4)) ⟨20 + k % 4, 1⟩ on
  let s2 := if s.is (pilStat k) MEA_PIL_STAT.PILOT_FAIL = on then s1 else s1.journalTrims k
  if on && !s.is (pilStat k) MEA_PIL_STAT.PILOT_FAIL then s2.breach 3 else s2

/-- The pilot of cluster `k` has no spare to give (R240, R241). -/
def State.pilotOut (s : State) (k : Nat) : Bool := s.is (pilStat k) MEA_PIL_STAT.SUBST || s.is (pilStat k) MEA_PIL_STAT.PILOT_FAIL

/-- The pilot-only requests that wait are refused once the pilot is out of rotation (R244). -/
def State.refuseOnly (s : State) (k : Nat) : State :=
  if s.pilotOut k && (s.cluster k).onlyWait ≠ [] then (s.modCluster k (fun c => { c with onlyWait := [] })).reqResult (k / 4) 3 else s

/-- The handover of cluster `k` has ended: a self-test that waited for it starts, where its unit is still idle (R244, R246). -/
def State.handoverEnd (s : State) (k : Nat) : State :=
  let s1 := (s.modCluster k (fun c => { c with busy := false, only := false, restoring := false, testUnit := none })).refuseOnly k
  match (s.cluster k).testUnit with
  | none => s1
  | some p => if s1.idle p then s1.startProc p .selfTest else s1.reqResult (p / 16) 1

/-- The pilot becomes free; a pilot-only request that waited runs now (R244). -/
def State.pilotFree (s : State) (k : Nat) : State :=
  let s1 := (s.handoverEnd k).pilPhase k 6
  if (s.cluster k).retrim then (s1.modCluster k (fun c => { c with retrim := false })).trimAlone k none
  else
  match (s1.cluster k).onlyWait with
  | p :: rest => (s1.modCluster k (fun c => { c with onlyWait := rest })).trimAlone k (some p)
  | [] => s1

/-- The frozen run of the role of slice `j` of cluster `k` restarts (R238). -/
def State.restartRun (s : State) (k j : Nat) : State :=
  s.wrF (ENG_FRZ (4 * k + j / 2)) ⟨8 * (j % 2), 7⟩ 0

/-- The first loop boundary from now at which no SUSPECT interval of cluster `k` is open (R239). -/
def State.quietBoundary (s : State) (k : Nat) : Nat :=
  let b := s.boundary (k / 4)
  match (s.cluster k).suspUntil with
  | some u => max b (nextMultiple (s.period (k / 4)) (u + 1))
  | none => b

/-- The shadow phase `n` starts with no pair. -/
def State.shadowStart (s : State) (k n : Nat) : State :=
  (s.modCluster k (fun c => { c with pairs := 0, diffSum := 0, samples := 0, phaseAt := s.now })).pilPhase k n

/-- A permanent substitution of the slice of the present handover begins (R240). -/
def State.substitute (s : State) (k : Nat) : State :=
  let s1 := ((s.setSubst k true).wrF (pilStat k) MEA_PIL_STAT.SUB_SLICE (s.pilSlice k)).emitCluster k 2
  (s1.journalTrims k).raise .adcDisagree (k / 16) 1 k

/-! ### Commands -/

/-- The pilot of cluster `k` serves readings: free, and in rotation (R240, R241, R243). -/
def State.pilotServes (s : State) (k : Nat) : Bool :=
  !(s.cluster k).busy && !s.is (pilStat k) MEA_PIL_STAT.SUBST && !s.is (pilStat k) MEA_PIL_STAT.PILOT_FAIL

/-- A tap reading of unit `p` for the first foothold `f` of its region is being taken (R199, R200, R243). -/
def State.tapServed (s : State) (f : Foothold) (p : Nat) : Bool :=
  (s.lookAhead f p).isSome && !s.is (CH_STAT p) CH_STAT.RNG_BUSY && s.pilotServes (p / 4)

/-- A tap reading of cluster `k` is in progress: readings repeat from the moment the foothold is the first (R199, R243). -/
def State.tapRunning (s : State) (k : Nat) : Bool :=
  match (s.seq (k / 4)).foot with
  | [] => false
  | f :: _ => (clusterUnits k).any (fun p => s.tapServed f p)

/-- The four conversions of a tap reading, at 10 MS/s as those of phase 0 are (R199, R238): DESIGN CHOICE, R199 says only that the
reading completes within 1 µs. -/
def tapTicks : Nat := 320

/-- A conversion of the reading that completes now lay in a SUSPECT interval of cluster `k` (R200). -/
def State.tapSuspect (s : State) (k : Nat) : Bool :=
  match (s.cluster k).suspLast with
  | some u => decide (s.now ≤ u + tapTicks)
  | none => false

/-- The readings that a new one of unit `p` at the instant `now` leaves: of its own unit those that completed within the last four
ECLK cycles, and the latest before (R199). -/
def keepTaps (now p : Nat) (l : List TapReading) : List TapReading :=
  let old := (l.filter (fun x => x.unit = p && x.at' + leadTicks ≤ now)).getLast?.toList
  l.filter (fun x => x.unit ≠ p) ++ old ++ l.filter (fun x => x.unit = p && now < x.at' + leadTicks)

/-- PILOT_ROTATION_TICK (R238, R240, R241, R243): a tick with the pilot free starts the next handover, once a tap reading in progress
has completed. -/
def State.pilotTick (s : State) (k : Nat) : State :=
  let rot := msTicks * max 1 (s.rdF (MEA_PIL_CFG (k / 4) (k % 4)) MEA_PIL_CFG.ROT_MS)
  let s1 := s.advance (nextMultiple rot (max s.now ((s.cluster k).lastTick + 1)))
  let s2 := s1.modCluster k (fun c => { c with lastTick := s1.now })
  if !s.pilotServes k || s.is TMP_SHUT TMP_SHUT.SHUT then s2
  else if s.tapRunning k then s2.modCluster k (fun c => { c with tickWait := true })
  else s2.handoverStart k

def execPilotRotationTick (k : Fin 64) (s : State) : Out := .next (s.pilotTick k)

/-- The records of a pilot-only request (R244): one RAW record for each reference point. -/
def State.referenceRecs (s : State) (p : Nat) (refs : List Int) : State :=
  (refs.take 3).zipIdx.foldl (fun s x =>
    s.produceRec p { ts := s.dieTs (p / 64) s.now, value := unsigned 32 x.1 + 2 ^ 32 * (x.2 + 2 ^ 24 * 8), chan := p, site := 0xFFFF,
                     kind := 1 + 16 * 2 + 64, range := s.rangeByte p, flags := 0, seq := 0, step := noStep } none false) s

/-- A self-trim outside a handover ends: the pilot is free, or stays in the role of the slice that it substitutes (R240, R405). -/
def State.trimEnd (s : State) (k : Nat) : State :=
  if (s.cluster k).inRole then (s.handoverEnd k).pilPhase k 2 else s.pilotFree k

/-- PILOT_SELF_TRIM_DONE (R238, R241, R244): the trims found, and the readings of the reference points. -/
def State.selfTrimDone (s : State) (k : Nat) (off gain : Int) (refs : List Int) : State :=
  if s.inPhase k 0 then
    let c := s.cluster k
    let s1 := (s.advance (c.phaseAt + trimTicks)).modCluster k (fun c => c.dither [8] 768)
    let s2 := match c.only, c.onlyUnit with
      | true, some p => (s1.referenceRecs p refs).modCluster k (fun c => { c with onlyUnit := none })
      | _, _ => s1
    if trimBad off gain then
      let s3 := (s2.setPilotFail k true).raise .pilotFail (k / 16) 1 k
      if c.only then s3.trimEnd k else (s3.modCluster k (fun c => { c with failed := true })).pilPhase k 5
    else
      let s3 := s2.wrN (MEA_TRIM (k / 4) (k % 4) 8) (trimWord off gain)
      if c.only then s3.trimEnd k else s3.shadowStart k 1
  else s

/-- The mean difference of a finished shadow phase lies beyond DIS_LSB (R239, R240), with MEA_PIL_DIFF written. -/
def State.shadowMean (s : State) (k : Nat) : State × Bool :=
  let c := s.cluster k
  let dis := max 1 (s.rdF (MEA_PIL_CFG (k / 4) (k % 4)) MEA_PIL_CFG.DIS_LSB)
  (s.wr (MEA_PIL_DIFF (k / 4) (k % 4)) (s32 (c.diffSum * 16)), 1024 * dis < c.diffSum.natAbs)

/-- PILOT_SHADOW_IN_DONE (R239, R240). -/
def State.shadowInDone (s : State) (k : Nat) : State :=
  if s.inPhase k 1 && 1024 ≤ (s.cluster k).pairs then
    let m := s.shadowMean k
    (if m.2 then m.1.substitute k else m.1).pilPhase k 2
  else s

def execPilotShadowInDone (k : Fin 64) (s : State) : Out := .next (s.shadowInDone k)

/-- PILOT_SWAP (R238, R240). -/
def State.pilotSwap (s : State) (k : Nat) : State :=
  if s.inPhase k 2 then
    let s1 := ((s.advance (s.quietBoundary k)).restartRun k (s.pilSlice k)).emitCluster k 0
    let s2 := s1.modCluster k (fun c => { c with inRole := true, phaseAt := s1.now })
    if s.is (pilStat k) MEA_PIL_STAT.SUBST then s2.handoverEnd k
    else s2.pilPhase k 3
  else s

def execPilotSwap (k : Fin 64) (s : State) : Out := .next (s.pilotSwap k)

/-- The handover ends with the pilot staying in the role it holds (R240, R242). -/
def State.stayInRole (s : State) (k : Nat) : State := s.handoverEnd k

/-- SLICE_TRIM_DONE (R238, R240, R242): the trims found for the slice. -/
def State.sliceTrimDone (s : State) (k : Nat) (off gain : Int) : State :=
  if s.inPhase k 3 then
    let c := s.cluster k
    let a := MEA_TRIM (k / 4) (k % 4) (s.pilSlice k)
    let s1 := (s.advance (c.phaseAt + trimTicks)).modCluster k (fun c => c.dither [s.pilSlice k] 768)
    if trimBad off gain then (if c.restoring then s1 else s1.substitute k).stayInRole k
    else ((s1.modCluster k (fun c => { c with oldTrim := s.rdN a })).wrN a (trimWord off gain)).shadowStart k 4
  else s

def execSliceTrimDone (k : Fin 64) (off : Int) (gain : Int) (s : State) : Out := .next (s.sliceTrimDone k off gain)

/-- PILOT_SHADOW_OUT_DONE (R239, R240, R242). -/
def State.shadowOutDone (s : State) (k : Nat) : State :=
  if s.inPhase k 4 && 1024 ≤ (s.cluster k).pairs then
    let m := s.shadowMean k
    if m.2 then (if (s.cluster k).restoring then m.1 else m.1.substitute k).stayInRole k else m.1.pilPhase k 5
  else s

def execPilotShadowOutDone (k : Fin 64) (s : State) : Out := .next (s.shadowOutDone k)

/-- The slice resumes its role at the present boundary (R238). -/
def State.sliceResumes (s : State) (k : Nat) : State :=
  if (s.cluster k).inRole then
    ((s.modCluster k (fun c => { c with inRole := false })).restartRun k (s.pilSlice k)).emitCluster k 1
  else s

/-- PILOT_RETURN (R238, R241, R242). -/
def State.pilotReturn (s : State) (k : Nat) : State :=
  if s.inPhase k 5 then
    let c := s.cluster k
    let s1 := (s.advance (s.quietBoundary k)).sliceResumes k
    let s2 := if c.restoring then (s1.setSubst k false).journalTrims k else s1
    let s3 := if c.failed then s2
      else (s2.bump (MEA_PIL_CNT (k / 4) (k % 4)) 1).modCluster k (fun c => { c with next := (s.pilSlice k + 1) % 8 })
    s3.pilotFree k
  else s

def execPilotReturn (k : Fin 64) (s : State) : Out := .next (s.pilotReturn k)

/-- PILOT_ABANDON (R239, R242): 4,096 samples in a shadow phase without 1,024 accepted pairs. -/
def State.pilotAbandon (s : State) (k : Nat) : State :=
  let c := s.cluster k
  if (s.inPhase k 1 || s.inPhase k 4) && 4096 ≤ c.samples && c.pairs < 1024 then
    let s1 := (s.advance (s.boundary (k / 4))).bump (MEA_PIL_ABANDON (k / 4) (k % 4)) 1
    let s2 := if s.inPhase k 4 then s1.wrN (MEA_TRIM (k / 4) (k % 4) (s.pilSlice k)) c.oldTrim else s1
    if c.restoring then s2.stayInRole k
    else ((s2.sliceResumes k).modCluster k (fun c => { c with next := s.pilSlice k })).pilotFree k
  else s

def execPilotAbandon (k : Fin 64) (s : State) : Out := .next (s.pilotAbandon k)

/-- A write of 1 to MEA_PIL_CTRL.RESTORE (R242): without a substitution the pilot's self-trim is retried, after a handover in progress. -/
def State.pilotRestore (s : State) (k : Nat) : State :=
  let s1 := s.setPilotFail k false
  if s.is (pilStat k) MEA_PIL_STAT.SUBST then
    let j := s.rdF (pilStat k) MEA_PIL_STAT.SUB_SLICE
    if !s.idle (4 * k + j / 2) then s.reqResult (k / 4) 1
    else
      (((s1.reqResult (k / 4) 0).modCluster k (fun c =>
        { c with busy := true, only := false, restoring := true, inRole := true, phaseAt := s.now })).wrF (pilStat k)
          MEA_PIL_STAT.SLICE j).pilPhase k 3
  else if (s.cluster k).busy then (s1.modCluster k (fun c => { c with retrim := true })).reqResult (k / 4) 0
  else (s1.trimAlone k none).reqResult (k / 4) 0

def execRestore (f : Fin 8) (k : Fin 64) (s : State) : Out :=
  .next (s.hostWrite f (MEA_PIL_CTRL (k / 4) (k % 4)) 1#32 (fun s => s.pilotRestore k))

end Sys2Proof.Machine
end

