-- ==== Sys2Proof/Machine/Engine.lean ====
section
/-! DEFINITION. The control engine's commands (04_control_engine.md) but the loop period itself: coefficients, manual and
automatic, lost feedback, plausibility, ember flags, and the profile limits of R153 and R161. -/

namespace Sys2Proof.Machine

/-! ### Codes and ember flags -/

/-- The hard limits of unit `p`'s DAC code (R82, R101). -/
def State.hardLimits (s : State) (p : Nat) : Nat × Nat :=
  if !s.forcesI p && !s.isBoost p && s.rdF (CH_MODE p) CH_MODE.VRNG = 2 then (0x14000, 0xEC000) else (0x0CCCD, 0xF3333)

/-- A code clipped to the hard limits (R82). -/
def State.clipCode (s : State) (p : Nat) (c : Int) : Nat :=
  (clampI (s.hardLimits p).1 (s.hardLimits p).2 c).toNat

/-- The summary of the ember register at `a` reads 0, so that a flag set now raises it (R127): not where a host's clear of the same PCLK
cycle meets the setting, which wins (R9). -/
def State.emberClear (s : State) (a : Nat) : Bool := s.rd a = 0#32 && !(s.hostWrote a && s.rdCyc a ≠ 0#32)

/-- An ember flag of a unit is set, with EMBER where the unit's summary rises (R127). -/
def State.ember (s : State) (p : Nat) (f : Fld) : State :=
  let s1 := s.flag (ENG_EMBER p) f true
  if s.emberClear (ENG_EMBER p) then s1.emitRegion (p / 16) evEmber else s1

/-- An ember flag of supervisory slot `n` is set (R126, R127). -/
def State.supEmber (s : State) (t n k : Nat) : State :=
  let s1 := s.wrBit (ENG_SUP_EMBER t n) k true
  if s.emberClear (ENG_SUP_EMBER t n) then s1.emitRegion t evEmber else s1

/-- ENG_STAT (R127, R149): the summaries of the ember flags. -/
def State.engStat (s : State) (t : Nat) : Word :=
  let u := (List.range 16).foldl (fun m u => if s.rd (ENG_EMBER (16 * t + u)) = 0#32 then m else m + 2 ^ u) 0
  let n := (List.range 8).foldl (fun m n => if s.rd (ENG_SUP_EMBER t n) = 0#32 then m else m + 2 ^ n) 0
  w32 (u + 65536 * n)

/-! ### The loop rate and the coefficients -/

/-- RATE_WRITE (R135): the field takes the code (R9), which waits for a timestamp that is a multiple of 80,000; 7 is ignored for
the field (R113). -/
def State.rateWrite (s : State) (t : Nat) (v : Word) : State :=
  let code := getFld v ENG_CTRL.RATE
  if code = 7 then s
  else
    ((s.modRegion t (fun r => { r with ratePend := r.ratePend ++ [(s.now, s.rdF (ENG_CTRL t) ENG_CTRL.RATE)] })).wrF (ENG_CTRL t)
      ENG_CTRL.RATE code).flag (ENG_CTRL t) ENG_CTRL.RATE_PEND true

def execRateWrite (f : Fin 8) (t : Fin 16) (v : Word) (s : State) : Out :=
  .next (s.hostWrite f (ENG_CTRL t) v (fun s => s.rateWrite t v))

/-- Coefficient register `c` of unit `p`, ENG_KP_F to ENG_KA in the order of R150. -/
def coefReg (p c : Nat) : Nat := ENG_KP_F p + 4 * c

/-- The value of coefficient `c` that unit `p` uses in the period that begins at `b` (R132). -/
def State.coefIn (s : State) (p c b : Nat) : Word :=
  let t := p / 16
  match (s.unit p).eng.coefWr.find? (fun e =>
    e.idx = c && (match e.at' with | none => true | some a => b < s.eligible t a + s.period t)) with
  | some e => w32 e.old
  | none => s.rd (coefReg p c)

/-- A coefficient write (R132, R150): in force from period n + 1, or staged while HOLD_COEF = 1. -/
def State.coefWrite (s : State) (p c : Nat) (v : Word) : State :=
  if s.follower p then s
  else
    let hold := s.is (ENG_UCTRL p) ENG_UCTRL.HOLD_COEF
    let e : CoefWrite := { at' := if hold then none else some s.now, idx := c, old := s.rdN (coefReg p c) }
    let s1 := (s.modUnit p (fun u => { u with eng := { u.eng with coefWr := u.eng.coefWr ++ [e] } })).store (coefReg p c) v
    if hold then s1.flag (ENG_USTAT p) ENG_USTAT.COEF_PEND true else s1

def execCoefWrite (f : Fin 8) (p : Fin 256) (c : Fin 10) (v : Word) (s : State) : Out :=
  .next (s.hostWrite f (coefReg p c) v (fun s => s.coefWrite p c v))

/-- COEF_RELEASE (R132): every staged coefficient counts as written now. -/
def State.coefRelease (s : State) (p : Nat) : State :=
  if s.follower p || !s.is (ENG_UCTRL p) ENG_UCTRL.HOLD_COEF then s
  else
    (s.modUnit p (fun u =>
      { u with eng := { u.eng with coefWr := u.eng.coefWr.map (fun e =>
          if e.at' = none then { e with at' := some s.now } else e) } })).flag (ENG_UCTRL p) ENG_UCTRL.HOLD_COEF false

def execCoefRelease (f : Fin 8) (p : Fin 256) (s : State) : Out :=
  .next (s.hostWrite f (ENG_UCTRL p) (setFld (s.rd (ENG_UCTRL p)) ENG_UCTRL.HOLD_COEF 0) (fun s => s.coefRelease p))

/-- RC_CLR (R131, R150). -/
def State.rcClr (s : State) (p : Nat) : State := if s.follower p then s else s.clearLearn p

def execRcClr (f : Fin 8) (p : Fin 256) (s : State) : Out :=
  .next (s.hostWrite f (ENG_UCTRL p) (setFld (s.rd (ENG_UCTRL p)) ENG_UCTRL.RC_CLR 1) (fun s => s.rcClr p))

/-! ### Manual and automatic -/

/-- A lost-feedback reaction moves the unit's code, or runs as SAFE (R138). -/
def State.lofMoves (s : State) (p : Nat) : Bool :=
  s.is (ENG_USTAT p) ENG_USTAT.LOF_RAMP || (s.unit p).eng.lof = .safe

/-- A request to change between manual and automatic (R136, R137): a request that only takes back one not yet carried out
leaves nothing to do. -/
def State.autoWrite (s : State) (p : Nat) (on : Bool) : State :=
  if s.follower p || (on && (s.covered p || s.lofMoves p)) then s
  else
    (s.flag (ENG_UCTRL p) ENG_UCTRL.AUTO on).modUnit p (fun u =>
      { u with eng := { u.eng with autoReq := if s.is (ENG_USTAT p) ENG_USTAT.AUTO_ACT = on then none else some s.now } })

def execAutoClear (f : Fin 8) (p : Fin 256) (s : State) : Out :=
  .next (s.hostWrite f (ENG_UCTRL p) (setFld (s.rd (ENG_UCTRL p)) ENG_UCTRL.AUTO 0) (fun s => s.autoWrite p false))

def execAutoSet (f : Fin 8) (p : Fin 256) (s : State) : Out :=
  .next (s.hostWrite f (ENG_UCTRL p) (setFld (s.rd (ENG_UCTRL p)) ENG_UCTRL.AUTO 1) (fun s => s.autoWrite p true))

/-- MANUAL_TRANSFER (R136). -/
def State.manualTransfer (s : State) (p : Nat) : State :=
  match (s.unit p).eng.autoReq with
  | some at' =>
    if s.is (ENG_UCTRL p) ENG_UCTRL.AUTO then s else (s.advance (s.nextBoundary (p / 16) at')).toManual p
  | none => s

def execManualTransfer (p : Fin 256) (s : State) : Out := .next (s.manualTransfer p)

/-- The end of a hold under BELAY_HOLD (R146): the frozen runs and the plausibility count restart. -/
def State.endBelay (s : State) (p : Nat) : State :=
  if (s.unit p).eng.lof = .none then s
  else
    (((s.modUnit p (fun u =>
      { u with eng := { u.eng with lof := .none, frzV := false, frzI := false, plLive := false, plAge := 0 } })).flag
      (ENG_USTAT p) ENG_USTAT.BELAY false).wr (ENG_FRZ p) 0#32).wrF (ENG_PL_RES p) ⟨24, 8⟩ 0

/-- AUTO_TRANSFER (R137). None while an armed unit waits for its switch, whose closing puts AUTO into effect
(R77). A unit in the state of R75 keeps its code at mid-scale through it (R75: until the first force command no
register write moves the DAC); for the booster channel, to which R79 and R195 leave neither force command, the transfer is that
command and ends the state (DESIGN CHOICE). -/
def State.autoTransfer (s : State) (p : Nat) : State :=
  match (s.unit p).eng.autoReq with
  | some at' =>
    if !s.is (ENG_UCTRL p) ENG_UCTRL.AUTO || (s.unit p).swReq ≠ none then s
    else
      let s0 := (s.advance (s.nextBoundary (p / 16) at')).endBelay p
      let s1 := if s0.isBoost p then (s0.syncStress (p / 64)).flag (CH_STAT p) CH_STAT.SAFE false else s0
      ((s1.flag (ENG_USTAT p) ENG_USTAT.AUTO_ACT true).modUnit p (fun u =>
        { u with eng := { u.eng with autoReq := none, preset := .auto } })).genStart p (s1.measuredPos p)
  | none => s

def execAutoTransfer (p : Fin 256) (s : State) : Out := .next (s.autoTransfer p)

/-- Unit `p` takes its DAC code from ENG_MANUAL (R138): in manual, out of the state of R75, on no safe path, its code not moving
(R144), its switch not about to close (R77). -/
def State.inManual (s : State) (p : Nat) : Bool :=
  !s.is (ENG_USTAT p) ENG_USTAT.AUTO_ACT && !s.is (CH_STAT p) CH_STAT.SAFE && (s.unit p).safe = .none &&
    !s.is (ENG_USTAT p) ENG_USTAT.LOF_RAMP && (s.unit p).swReq = none

/-- The latched code of the present period is replaced. -/
def State.relatch (s : State) (p code : Nat) : State :=
  (s.wrN (CH_DAC p) code).modUnit p (fun u =>
    { u with eng := { u.eng with
        uSel := ((code : Int) - midCode) * 2 ^ 16
        codes := match u.eng.codes with
          | [] => []
          | c :: l => { c with code := code } :: l } })

/-- ENG_MANUAL_WRITE (R138): a write at or before ECLK cycle 24 of a period reaches that period's latch. -/
def State.manualWrite (s : State) (p : Nat) (v : Word) : State :=
  if s.follower p then s
  else
    let s1 := s.store (ENG_MANUAL p) v
    match (s.region (p / 16)).lastSample with
    | some b =>
      if s1.inManual p && s.now ≤ b + 48 then s1.relatch p (s1.clipCode p (s1.rdN (ENG_MANUAL p))) else s1
    | none => s1

def execEngManualWrite (f : Fin 8) (p : Fin 256) (v : Word) (s : State) : Out :=
  .next (s.hostWrite f (ENG_MANUAL p) v (fun s => s.manualWrite p v))

/-! ### Lost feedback -/

/-- The force mode and the forced range under which a code is latched now (R145). -/
def State.forcedKey (s : State) (p : Nat) : Nat × Nat :=
  if s.forcesI p then (1, s.irng p) else (0, s.rdF (CH_MODE p) CH_MODE.VRNG)

/-- FS of the forced range `r` under force mode `m`. -/
def forcedFs (m r : Nat) : Nat × Nat := if m = 1 then fsI r else fsV r

/-- A code under the present force mode, converted to the present range and rounded toward zero (R145). -/
def convCode (m r : Nat) (c : CodeRec) : Int :=
  if c.rng = r then c.code
  else
    let x := scaleRatio (forcedFs m c.rng) (forcedFs m r)
    midCode + truncDiv (((c.code : Int) - midCode) * x.1) (max 1 x.2)

/-- The last good code, `k` periods before the newest (R145). DEDUCED (R145 does not say it, R82 holds every code): a converted code is
held within the hard limits. -/
def State.goodCode (s : State) (p k : Nat) : Nat :=
  let l := (s.unit p).eng.codes
  let key := s.forcedKey p
  let pick := match l[k]? with
    | some c => some c
    | none => l.getLast?
  let pick := match pick with
    | some c => if c.fmode = key.1 then some c else (l.filter (fun c => c.fmode = key.1)).getLast?
    | none => none
  match pick with
  | some c => s.clipCode p (convCode key.1 key.2 c)
  | none => midCode

/-- The frozen runs of unit `p`: voltage, current (R140). -/
def State.frozenRuns (s : State) (p : Nat) : Nat × Nat := (s.rdF (ENG_FRZ p) ⟨0, 7⟩, s.rdF (ENG_FRZ p) ⟨8, 7⟩)

/-- A frozen run that has not been raised yet (R140). -/
def State.freshFrozen (s : State) (p : Nat) : Bool × Bool :=
  (64 ≤ (s.frozenRuns p).1 && !(s.unit p).eng.frzV, 64 ≤ (s.frozenRuns p).2 && !(s.unit p).eng.frzI)

/-- The out-of-envelope count reaches COUNT and has not been raised (R143). -/
def State.freshImplausible (s : State) (p : Nat) : Bool :=
  s.is (ENG_PL_CFG p) ENG_PL_CFG.EN && s.is (ENG_USTAT p) ENG_USTAT.PL_LEARNED &&
    max 1 (s.rdF (ENG_PL_CFG p) ENG_PL_CFG.COUNT) ≤ s.rdF (ENG_PL_RES p) ⟨24, 8⟩ && !(s.unit p).eng.plLive

/-- How many periods back the last good code lies, for the faults met now: the older of two (R145, R151). -/
def State.goodAge (s : State) (p : Nat) : Nat :=
  let z := s.freshFrozen p
  let r := s.frozenRuns p
  max (max (if z.1 then r.1 else 0) (if z.2 then r.2 else 0)) (if s.freshImplausible p then (s.unit p).eng.plAge else 0)

/-- A lost-feedback reaction may start on unit `p` (R144): its switch is closed, none runs or holds, and no wider reaction covers it. A
ramp that was merely commanded (R78) is no reaction. -/
def State.lofFree (s : State) (p : Nat) : Bool := s.closed p && (s.unit p).eng.lof = .none && !s.underReaction p

/-- The reaction that ENG_UCTRL.LOF selects (R144), with the last good code. DESIGN CHOICE (R78 and R144 do not meet): a unit that opens by
command does not hold under BELAY_HOLD and goes on to mid-scale as in SAFE. -/
def State.lofReact (s : State) (p good : Nat) : State :=
  match s.rdF (ENG_UCTRL p) ENG_UCTRL.LOF with
  | 1 =>
    if (s.unit p).safe ≠ .none then s.lofSafe p
    else
    (((((s.toManual p).modUnit p (fun u =>
      { u with eng := { u.eng with lof := .belay, lofFrom := s.now, lofTarget := good } })).flag (ENG_USTAT p)
      ENG_USTAT.LOF_RAMP true).flag (ENG_USTAT p) ENG_USTAT.BELAY false).emitUnit p evLofStart)
  | 2 => ((s.emitUnit p evLofStart).openNow p).senSettle
  | _ => s.lofSafe p

/-- The unit's own reaction to lost feedback at severity 1 (R144, R146): a reaction runs only while the switch is closed,
one at a time, and none under a wider one. -/
def State.lofStart (s : State) (k : FaultKind) (p good : Nat) : State :=
  if s.lofFree p && s.sevOf (srcNum k (p / 64)) ≤ 1 then (s.wrN (ENG_GOOD_DAC p) good).lofReact p good
  else s.blindRamp p

/-- FEEDBACK_FROZEN (R140, R144 to R146): one occurrence for each converter that froze. -/
def State.feedbackFrozen (s : State) (p : Nat) : State :=
  let z := s.freshFrozen p
  if z.1 || z.2 then
    let good := s.goodCode p (s.goodAge p)
    let s1 := s.modUnit p (fun u =>
      { u with eng := { u.eng with frzV := u.eng.frzV || z.1, frzI := u.eng.frzI || z.2 } })
    let s1 := if s.lofFree p then s1.wrN (ENG_GOOD_DAC p) good else s1
    let s2 := if z.1 then s1.raiseUnit .feedbackFrozen p 0 true else s1
    let s3 := if z.2 then s2.raiseUnit .feedbackFrozen p 0 true else s2
    s3.lofStart .feedbackFrozen p good
  else s

def execFeedbackFrozen (p : Fin 256) (s : State) : Out := .next (s.feedbackFrozen p)

/-- FEEDBACK_IMPLAUSIBLE (R143 to R146). -/
def State.feedbackImplausible (s : State) (p : Nat) : State :=
  if s.freshImplausible p then
    let good := s.goodCode p (s.goodAge p)
    let s1 := s.modUnit p (fun u => { u with eng := { u.eng with plLive := true } })
    let s1 := if s.lofFree p then s1.wrN (ENG_GOOD_DAC p) good else s1
    (s1.raiseUnit .feedbackImplausible p 0 true).lofStart .feedbackImplausible p good
  else s

def execFeedbackImplausible (p : Fin 256) (s : State) : Out := .next (s.feedbackImplausible p)

/-- LOF_HOLD (R144): the code has reached the last good code. -/
def State.lofHold (s : State) (p : Nat) : State :=
  if (s.unit p).eng.lof = .belay && s.is (ENG_USTAT p) ENG_USTAT.LOF_RAMP && s.rdN (CH_DAC p) = (s.unit p).eng.lofTarget
  then
    ((s.flag (ENG_USTAT p) ENG_USTAT.LOF_RAMP false).flag (ENG_USTAT p) ENG_USTAT.BELAY true).emitUnit p evLofHold
  else s

def execLofHold (p : Fin 256) (s : State) : Out := .next (s.lofHold p)

/-- LOF_SAFE_OPEN (R144): mid-scale, or 1 ms after the ramp began. -/
def State.lofSafeOpen (s : State) (p : Nat) : State :=
  if (s.unit p).eng.lof = .safe then
    let s1 := if s.rdN (CH_DAC p) = midCode then s else s.advance ((s.unit p).eng.lofFrom + msTicks)
    (s1.openNow p).senSettle
  else s

def execLofSafeOpen (p : Fin 256) (s : State) : Out := .next (s.lofSafeOpen p)

/-! ### Plausibility -/

/-- PL_LEARNED (R142). -/
def State.plLearned (s : State) (p : Nat) : State :=
  if s.is (ENG_PL_CFG p) ENG_PL_CFG.LEARN && 4096 ≤ (s.unit p).eng.plSeen then
    s.flag (ENG_USTAT p) ENG_USTAT.PL_LEARNED true
  else s

def execPlLearned (p : Fin 256) (s : State) : Out := .next (s.plLearned p)

/-- PL_LOAD_WRITE (R142): R, or C where `c` says so. -/
def State.plLoadWrite (s : State) (p : Nat) (c : Bool) (v : Word) : State :=
  if s.follower p then s
  else
    ((s.wr (if c then ENG_PL_C p else ENG_PL_R p) v).modUnit p (fun u =>
      { u with eng := if c then { u.eng with plWrC := v } else { u.eng with plWrR := v } })).plRestart p

def execPlLoadWrite (f : Fin 8) (p : Fin 256) (c : Bool) (v : Word) (s : State) : Out :=
  .next (s.hostWrite f (if c then ENG_PL_C p else ENG_PL_R p) v (fun s => s.plLoadWrite p c v))

/-- A write of ENG_PL_CFG: with LEARN = 0, R and C are the written values and PL_LEARNED reads 1 (R142); learning that begins anew
starts from the present values. -/
def State.plCfgWrite (s : State) (p : Nat) (v : Word) : State :=
  if s.follower p then s
  else
    let s1 := s.store (ENG_PL_CFG p) v
    let e := (s.unit p).eng
    if s.is (ENG_PL_CFG p) ENG_PL_CFG.LEARN = s1.is (ENG_PL_CFG p) ENG_PL_CFG.LEARN then s1
    else if s1.is (ENG_PL_CFG p) ENG_PL_CFG.LEARN then s1.plRestart p
    else ((s1.wr (ENG_PL_R p) e.plWrR).wr (ENG_PL_C p) e.plWrC).plRestart p

/-- A write of the whole ENG_UCTRL (R131, R132, R136, R137, R150). -/
def State.writeUctrl (s : State) (p : Nat) (v : Word) : State :=
  if s.follower p then s
  else
    let n := v.toNat
    let s1 := if bitOf n 5 then s else s.coefRelease p
    let s2 := (s1.store (ENG_UCTRL p) (setFld v ENG_UCTRL.AUTO (s.rdF (ENG_UCTRL p) ENG_UCTRL.AUTO))).flag (ENG_UCTRL p)
      ENG_UCTRL.RC_CLR false
    let s3 := if bitOf n 6 then s2.rcClr p else s2
    if bitOf n 0 = s.is (ENG_UCTRL p) ENG_UCTRL.AUTO then s3 else s3.autoWrite p (bitOf n 0)

/-! ### Profile limits -/

/-- Limit register `l` of unit `p`: VEL_V, ACC_V, JRK_V, VEL_I, ACC_I, JRK_I (R153). -/
def limReg (p l : Nat) : Nat := PRF_VEL_V p + 4 * l

/-- The six limit registers come into force (R153, R161), and nf with them (R154). -/
def State.takeLimits (s : State) (p : Nat) : State :=
  ((s.modUnit p (fun u =>
    { u with gen := { u.gen with lim := (List.range 6).map (fun l => s.rd (limReg p l)) } })).flag (PRF_USTAT p)
    PRF_USTAT.LIM_PEND false).refreshNf p

/-- PROFILE_LIMIT_WRITE (R153, R161, R188). -/
def State.profileLimitWrite (s : State) (p l : Nat) (v : Word) : State :=
  if s.follower p then s
  else if limOf v = none then s.flag (PRF_USTAT p) PRF_USTAT.LIM_ERR true
  else
    let s1 := s.wr (limReg p l) v
    if s.is (PRF_USTAT p) PRF_USTAT.MOVING then s1.flag (PRF_USTAT p) PRF_USTAT.LIM_PEND true else s1.takeLimits p

def execProfileLimitWrite (f : Fin 8) (p : Fin 256) (l : Fin 6) (v : Word) (s : State) : Out :=
  .next (s.hostWrite f (limReg p l) v (fun s => s.profileLimitWrite p l v))

/-- LIMITS_APPLY (R161): the first boundary at which MOVING reads 0. -/
def State.limitsApply (s : State) (p : Nat) : State :=
  if s.is (PRF_USTAT p) PRF_USTAT.LIM_PEND && !s.is (PRF_USTAT p) PRF_USTAT.MOVING then
    (s.advance (s.boundary (p / 16))).takeLimits p
  else s

def execLimitsApply (p : Fin 256) (s : State) : Out := .next (s.limitsApply p)

end Sys2Proof.Machine
end

