-- ==== Sys2Proof/Machine/Profile.lean ====
section
/-! DEFINITION. The waveform player of a region (R169 to R183 of 05_setpoints_sweeps_waveforms.md). -/

namespace Sys2Proof.Machine

/-- The player of region `t` runs. -/
def State.playing (s : State) (t : Nat) : Bool := s.is (PRF_STAT t) PRF_STAT.RUNNING

/-- The sample period of the player in ticks (R169). -/
def State.wfPeriod (s : State) (t : Nat) : Nat := (s.rdF (PRF_CTRL t) PRF_CTRL.WF_DIV + 1) * s.period t

/-- Slots of the stream ring (R186). -/
def State.ringSlots (s : State) (t : Nat) : Nat := max 2 (s.rdN (PRF_STR_RING t) % 2 ^ 13)

/-- Bytes of a granule (R169). -/
def State.granBytes (s : State) (t : Nat) : Nat := 128 * s.tracks t

/-- A field of the descriptor of the present segment. -/
def PlayerState.seg (x : PlayerState) (f : Fld) : Nat := getFld (w32 x.ctrl) f

/-- Samples of a pass (R171). -/
def PlayerState.total (x : PlayerState) : Nat := 32 * (x.lenW % 2 ^ 16)

/-- LOOP of the present segment. -/
def PlayerState.loops (x : PlayerState) : Nat := x.lenW / 2 ^ 16

/-- The present segment is a stream segment. -/
def PlayerState.stream (x : PlayerState) : Bool := x.seg PRF_SEG_CTRL.STREAM == 1

/-- A register of a descriptor as its read sees it: without a host write of the same PCLK cycle (R178). -/
def State.rdDesc (s : State) (a : Nat) : Nat := (if s.hostWrote a then s.rdCyc a else s.rd a).toNat

/-- The descriptor of segment `g` is valid (R171). -/
def State.descOk (s : State) (t g : Nat) : Bool :=
  let size := s.rdN (PRF_WF_SIZE t)
  let len := s.rdDesc (PRF_SEG_LEN t g) % 2 ^ 16
  let strBase := s.rdN (PRF_STR_BASE t) % 2 ^ 24
  2 ≤ len &&
    (if getFld (w32 (s.rdDesc (PRF_SEG_CTRL t g))) PRF_SEG_CTRL.STREAM = 1 then
      strBase + s.ringSlots t * s.granBytes t ≤ size && strBase % 128 == 0
    else s.rdDesc (PRF_SEG_ADDR t g) % 2 ^ 24 + len * s.granBytes t ≤ size)

/-- Segment `g` is chosen, its sample 0 to enter at `at'` (R172, R173, R175). DESIGN CHOICE (R175 says that an event held in the pending
slot ends the wait at once): that event reaches the player at the instant at which the wait begins. -/
def State.chooseSeg (s : State) (t g at' lin : Nat) : State :=
  if s.descOk t g then
    let ctrl := s.rdDesc (PRF_SEG_CTRL t g)
    let wait := getFld (w32 ctrl) PRF_SEG_CTRL.WAIT_TRIG = 1
    let i := 0x100 * (t % 4) + 8
    let slot := wait && s.is (EVT_IN_STAT (t / 4) i) EVT_IN_STAT.PEND
    let s1 := ((s.wrF (PRF_STAT t) PRF_STAT.CUR_SEG g).wr (PRF_PASS t) 0#32).flag (PRF_STAT t) PRF_STAT.WAITING wait
    let s2 := s1.modPlayer t (fun x =>
      { x with
        addr := s.rdDesc (PRF_SEG_ADDR t g) % 2 ^ 24, lenW := s.rdDesc (PRF_SEG_LEN t g), ctrl := ctrl, next := 0,
        nextAt := at', segLin := lin, firstPass := true,
        trigAt := if slot then some s.now else none,
        trigLin := if slot then s.causedLin (t / 4) i (s.rdF (EVT_IN_STAT (t / 4) i) EVT_IN_STAT.LIN) else 0 })
    if slot then s2.flag (EVT_IN_STAT (t / 4) i) EVT_IN_STAT.PEND false else s2
  else
    ((s.flag (PRF_STAT t) PRF_STAT.DESC_BAD true).playerStop t).raiseRegion .wfDescBad t

/-- START (R172); ignored in a thermal shutdown (R404). -/
def State.wfStart (s : State) (t : Nat) : State :=
  if s.playing t || s.is TMP_SHUT TMP_SHUT.SHUT then s.flag (PRF_STAT t) PRF_STAT.START_IGN true
  else
    (s.flag (PRF_STAT t) PRF_STAT.RUNNING true).chooseSeg t (s.rdF (PRF_CTRL t) PRF_CTRL.START_SEG)
      (s.eligible t s.now) 0

def execWfStart (f : Fin 8) (t : Fin 16) (s : State) : Out :=
  .next (s.hostWrite f (PRF_CTRL t) (setFld (s.rd (PRF_CTRL t)) PRF_CTRL.START 1) (fun s => s.wfStart t))

/-- ABORT, by the host or by an event (R173, R183): at the next sample boundary, which while HOLD persists is one of a skipped granule;
ABORT reads 1 until then (R9). A stall ends with it. DESIGN CHOICE (R173 names the next sample boundary, and none follows in a wait of
R175): in a wait the player stops at once. -/
def State.wfAbort (s : State) (t : Nat) : State :=
  if !s.playing t then s
  else if s.is (PRF_STAT t) PRF_STAT.STALLED || s.is (PRF_STAT t) PRF_STAT.WAITING then s.playerStop t
  else
    let hold := s.is (PRF_STAT t) PRF_STAT.HOLDING
    let w := s.wfPeriod t
    (s.flag (PRF_CTRL t) PRF_CTRL.ABORT true).modPlayer t (fun x =>
      { x with abort := true, nextAt := if hold then x.nextAt - (x.nextAt - s.now - 1) / w * w else x.nextAt })

def execWfAbort (f : Fin 8) (t : Fin 16) (s : State) : Out :=
  .next (s.hostWrite f (PRF_CTRL t) (setFld (s.rd (PRF_CTRL t)) PRF_CTRL.ABORT 1) (fun s => s.wfAbort t))

/-- A write of the whole PRF_CTRL (R169): WF_DIV and WF_TRACKS keep their values while the player runs. -/
def State.writePrfCtrl (s : State) (t : Nat) (v : Word) : State :=
  let old := s.rd (PRF_CTRL t)
  let v1 := setFld (setFld v PRF_CTRL.START 0) PRF_CTRL.ABORT 0
  let v2 := if s.playing t then
      setFld (setFld v1 PRF_CTRL.WF_DIV (getFld old PRF_CTRL.WF_DIV)) PRF_CTRL.WF_TRACKS (getFld old PRF_CTRL.WF_TRACKS)
    else v1
  let s1 := s.store (PRF_CTRL t) v2
  let s2 := if bitOf v.toNat 0 then s1.wfStart t else s1
  if bitOf v.toNat 1 then s2.wfAbort t else s2

/-! ### Jumps -/

/-- The boundary at which the last sample of the present pass enters its generators, or entered, or would have (R176, R181). -/
def State.lastSampleAt (s : State) (t : Nat) : Int :=
  let x := s.player t
  (x.nextAt : Int) + ((x.total : Int) - 1 - x.next) * s.wfPeriod t

/-- A jump request of the present instant comes after the decision point of the present pass (R176, R183), 8 CCLK cycles before its
last sample: the decision point lies in sequence time. -/
def State.jumpLate (s : State) (t : Nat) : Bool :=
  let r := if s.is (PRF_STAT t) PRF_STAT.STALLED then min s.now (s.player t).stallFrom else s.now
  s.lastSampleAt t < (r + 32 : Nat)

/-- A jump request (R176 to R178), by the register or by an event of lineage `lin`. In a wait it is late for the pass before, and is
taken at the end of the segment waited for (R183). DESIGN CHOICE (R176 does not say it): a request that reaches a player which does not
run is dropped, and sets no flag. -/
def State.wfJump (s : State) (t lin : Nat) : State :=
  if !s.playing t then s
  else
    let wait := s.is (PRF_STAT t) PRF_STAT.WAITING
    let late := !wait && s.jumpLate t
    let s1 := if (s.player t).jump ≠ none then s.flag (PRF_STAT t) PRF_STAT.JUMP_REPL true else s
    let s2 := if wait || late then s1.flag (PRF_STAT t) PRF_STAT.JUMP_LATE true else s1
    ((s2.modPlayer t (fun x =>
      { x with jump := some (s.rdF (PRF_WF_JUMP t) PRF_WF_JUMP.TARGET, late, lin) })).flag (PRF_STAT t) PRF_STAT.JUMP_PEND true).flag
        (PRF_WF_JUMP t) PRF_WF_JUMP.REQ true

def execWfJumpReq (f : Fin 8) (t : Fin 16) (s : State) : Out :=
  .next (s.hostWrite f (PRF_WF_JUMP t) (setFld (s.rd (PRF_WF_JUMP t)) PRF_WF_JUMP.REQ 1) (fun s => s.wfJump t 0))

/-- A write of the whole PRF_WF_JUMP. -/
def State.writeWfJump (s : State) (t : Nat) (v : Word) : State :=
  let s1 := s.wrF (PRF_WF_JUMP t) PRF_WF_JUMP.TARGET (getFld v PRF_WF_JUMP.TARGET)
  if bitOf v.toNat 31 then s1.wfJump t 0 else s1

/-! ### The stream ring -/

/-- A granule is in time for its sample 0 at `at'` (R180). -/
def State.granuleReady (s : State) (t at' : Nat) : Bool :=
  match (s.player t).posts with
  | (i, _) :: _ => i + 32 ≤ at'
  | [] => false

/-- One posted granule leaves the list of posts. -/
def takePost : List (Nat × Nat) → List (Nat × Nat)
  | (i, n) :: l => if n ≤ 1 then l else (i, n - 1) :: l
  | [] => []

/-- NEXT_SLOT moves on, wrapping at the ring's size (R179). -/
def State.nextSlot (s : State) (t : Nat) : State :=
  s.wrF (PRF_STR_STAT t) PRF_STR_STAT.NEXT_SLOT ((s.rdF (PRF_STR_STAT t) PRF_STR_STAT.NEXT_SLOT + 1) % s.ringSlots t)

/-- FILLED less one, with its post. -/
def State.unfill (s : State) (t : Nat) : State :=
  (s.wrF (PRF_STR_STAT t) PRF_STR_STAT.FILLED (s.rdF (PRF_STR_STAT t) PRF_STR_STAT.FILLED - 1)).modPlayer t (fun x =>
    { x with posts := takePost x.posts })

/-- The next granule in time is consumed and begins to play (R179, R181): an episode ends with it. -/
def State.takeGranule (s : State) (t : Nat) : State :=
  (((s.modPlayer t (fun x => { x with slot := s.rdF (PRF_STR_STAT t) PRF_STR_STAT.NEXT_SLOT })).unfill t).nextSlot t)

/-- STR_POST (R179, R181): the debt is paid first, the excess refused. -/
def State.strPost (s : State) (t n : Nat) : State :=
  let debt := s.rdN (PRF_STR_DEBT t)
  let paid := min n debt
  let filled := s.rdF (PRF_STR_STAT t) PRF_STR_STAT.FILLED
  let room := s.ringSlots t - filled
  let acc := min (n - paid) room
  let s1 := (s.wrN (PRF_STR_DEBT t) (debt - paid)).wrF (PRF_STR_STAT t) PRF_STR_STAT.FILLED (filled + acc)
  let s2 := if acc = 0 then s1 else s1.modPlayer t (fun x => { x with posts := x.posts ++ [(s.now, acc)] })
  if room < n - paid then s2.flag (PRF_STAT t) PRF_STAT.OVERPOST true else s2

def execStrPost (f : Fin 8) (t : Fin 16) (v : Word) (s : State) : Out :=
  .next (s.hostWrite f (PRF_STR_POST t) v (fun s => s.strPost t (v.toNat % 2 ^ 13)))

/-- An underrun episode begins (R181): raised, counted and emitted once. -/
def State.episodeStart (s : State) (t : Nat) : State :=
  if (s.player t).episode then s
  else
    ((((s.modPlayer t (fun x => { x with episode := true })).flag (PRF_STAT t) PRF_STAT.UNDERRUN true).bump (PRF_UNDER_CNT t)
      1).emitRegion t evUnderrun).raiseRegion .underrun t

/-- A granule whose time passes unposted is skipped in HOLD (R181). A post that came too late for it pays for it. -/
def State.skipGranule (s : State) (t : Nat) : State :=
  let s1 := if s.rdF (PRF_STR_STAT t) PRF_STR_STAT.FILLED = 0 then s.wrN (PRF_STR_DEBT t) ((s.rdN (PRF_STR_DEBT t) + 1) % 2 ^ 13)
    else s.unfill t
  (((s1.bump (PRF_SKIP_CNT t) 1).nextSlot t).flag (PRF_STAT t) PRF_STAT.HOLDING true).modPlayer t (fun x =>
    { x with next := x.next + 32, nextAt := x.nextAt + 32 * s.wfPeriod t })

/-- The granule due at the present boundary is not in time (R181). -/
def State.underrunNow (s : State) (t : Nat) : State :=
  let s1 := s.episodeStart t
  if s.is (PRF_CTRL t) PRF_CTRL.UNDERRUN_MODE then
    (s1.flag (PRF_STAT t) PRF_STAT.STALLED true).modPlayer t (fun x => { x with stallFrom := s.now })
  else s1.skipGranule t

/-- Sample 0 of a granule of a stream segment is due, and the granule is not in time (R180). -/
def State.granuleMissing (s : State) (t at' : Nat) : Bool :=
  let x := s.player t
  x.stream && x.next % 32 = 0 && x.next < x.total && !s.granuleReady t at'

/-! ### Samples -/

/-- The BAR2 offset of the words of sample `k` of the present pass (R169, R171, R179). -/
def State.sampleAddr (s : State) (t k : Nat) : Nat :=
  let x := s.player t
  let blk := dieMem (t / 4) (s.rdN (PRF_WF_BASE t))
  if x.stream then
    blk + s.rdN (PRF_STR_BASE t) % 2 ^ 24 + x.slot * s.granBytes t + k % 32 * 4 * s.tracks t
  else blk + x.addr + k * 4 * s.tracks t

/-- The trigger of a segment's start (R174). -/
def State.segTrigger (s : State) (t : Nat) : State :=
  let x := s.player t
  if x.seg PRF_SEG_CTRL.TRIG_OUT = 1 && (x.firstPass || x.seg PRF_SEG_CTRL.TRIG_EVERY = 1) then
    let at' := if s.is (PRF_CTRL t) PRF_CTRL.TRIG_AT_LATCH then s.now + s.period t + 64 else s.now
    s.emitCaused (t / 4) (regionProd t (evWfTrig + x.seg PRF_SEG_CTRL.TRIG_SEL)) at' x.segLin
  else s

/-- The track values of one sample from byte offset `a` on (R169). -/
def State.readTracks (s : State) (a : Nat) : Nat → State × List Int
  | 0 => (s, [])
  | n + 1 =>
    let m := s.memGet a 4
    let r := State.readTracks m.1 (a + 4) n
    (r.1, signed 32 m.2.1 :: r.2)

/-- The next sample enters the generators of the units that follow it (R169, R172), at the present boundary. DESIGN CHOICE (R172: a host
write to a granule that plays or is read next may or may not be seen by that pass): it is seen, the words being read as the sample
enters. -/
def State.enterSample (s : State) (t : Nat) : State :=
  let x := s.player t
  let s1 := if x.stream && x.next % 32 = 0 then s.takeGranule t else s
  let s2 := (if x.next = 0 then s1.segTrigger t else s1).flag (PRF_STAT t) PRF_STAT.HOLDING false
  let s3 := s2.modPlayer t (fun y =>
    { y with episode := false, next := y.next + 1, nextAt := s.now + s.wfPeriod t })
  let m := s3.readTracks (s2.sampleAddr t x.next) (s.tracks t)
  (m.1.modPlayer t (fun y => { y with sample := m.2 })).each (unitsOf t) (fun s p =>
    s.modUnit p (fun u => { u with gen := { u.gen with keep := none } }))

/-- The boundary of the next sample, reached now: a stop, an underrun, or the sample. -/
def State.sampleNow (s : State) (t : Nat) : State :=
  if (s.player t).abort then s.playerStop t
  else if s.granuleMissing t s.now then s.underrunNow t
  else s.enterSample t

/-- The player is at a sample of a pass, neither waiting nor stalled. -/
def State.sampleDue (s : State) (t : Nat) : Bool :=
  s.playing t && !s.is (PRF_STAT t) PRF_STAT.WAITING && !s.is (PRF_STAT t) PRF_STAT.STALLED &&
    (s.player t).next < (s.player t).total

/-- WF_SAMPLE (R172). -/
def State.wfSample (s : State) (t : Nat) : State :=
  if s.sampleDue t then (s.advance (s.player t).nextAt).sampleNow t else s

def execWfSample (t : Fin 16) (s : State) : Out := .next (s.wfSample t)

/-- UNDERRUN (R181): only where the granule due next is not in time. -/
def State.underrunRow (s : State) (t : Nat) : State :=
  if s.sampleDue t && s.granuleMissing t (max s.now (s.player t).nextAt) then
    (s.advance (s.player t).nextAt).underrunNow t
  else s

def execUnderrun (t : Fin 16) (s : State) : Out := .next (s.underrunRow t)

/-- STALL_RESUME (R181): the first loop boundary at least 8 CCLK cycles after the missing granule's post. -/
def State.stallResume (s : State) (t : Nat) : State :=
  match (s.player t).posts with
  | [] => s
  | (i, _) :: _ =>
    if s.playing t && s.is (PRF_STAT t) PRF_STAT.STALLED then
      let s1 := s.advance (nextMultiple (s.period t) (max (i + 32) s.now))
      (((s1.wr64 (PRF_STALL_LO t) (s1.stalled t)).flag (PRF_STAT t) PRF_STAT.STALLED false).modPlayer t (fun x =>
        { x with resumedAt := s1.now })).enterSample t
    else s

def execStallResume (t : Fin 16) (s : State) : Out := .next (s.stallResume t)

/-- WF_WAIT_END (R175): the first loop boundary at least four ECLK cycles after the trigger, and not before the wait. -/
def State.wfWaitEnd (s : State) (t : Nat) : State :=
  match (s.player t).trigAt with
  | none => s
  | some a =>
    if s.playing t && s.is (PRF_STAT t) PRF_STAT.WAITING then
      let s1 := s.advance (max (s.effectAt t a) (s.player t).nextAt)
      ((s1.flag (PRF_STAT t) PRF_STAT.WAITING false).modPlayer t (fun x =>
        { x with trigAt := none, nextAt := s1.now, segLin := max x.segLin x.trigLin })).sampleNow t
    else s

def execWfWaitEnd (t : Fin 16) (s : State) : Out := .next (s.wfWaitEnd t)

/-- An event of lineage `lin` reaches a waiting player's trigger input (R175); whether it is consumed. -/
def State.wfTrigger (s : State) (t lin : Nat) : State × Bool :=
  if s.playing t && s.is (PRF_STAT t) PRF_STAT.WAITING && (s.player t).trigAt = none then
    (s.modPlayer t (fun x => { x with trigAt := some s.now, trigLin := s.causedLin (t / 4) (0x100 * (t % 4) + 8) lin }), true)
  else (s, false)

/-! ### The end of a pass -/

/-- The segment that follows by the normal order begins, or its next pass; none where the player would stop (R171, R173). -/
def State.normalNext (s : State) (t : Nat) : Option State :=
  let x := s.player t
  if x.loops = 0xFFFF || s.rdN (PRF_PASS t) ≤ x.loops then
    some (s.modPlayer t (fun x => { x with next := 0, firstPass := false }))
  else if x.seg PRF_SEG_CTRL.END = 1 then none
  else some (s.chooseSeg t (x.seg PRF_SEG_CTRL.NEXT) x.nextAt 0)

/-- The jump to `g` is taken (R176); a request that the host repeats in that cycle is a new one (R9). -/
def State.takeJump (s : State) (t g lin : Nat) : State :=
  let s1 := (((s.modPlayer t (fun x => { x with jump := none })).flag (PRF_STAT t) PRF_STAT.JUMP_PEND false).flag (PRF_WF_JUMP t)
    PRF_WF_JUMP.REQ false).chooseSeg t g (s.player t).nextAt lin
  if s.askedAgain (PRF_WF_JUMP t) PRF_WF_JUMP.REQ then s1.wfJump t 0 else s1

/-- WF_PASS_END (R173, R176, R177): at the end of the last sample's period. The descriptor of what follows is read there, the spec
giving no other instant after the decision point (DESIGN CHOICE). DESIGN CHOICE (R177's end of the segment that follows can be read as
the end of its first pass or of all its passes): a late request is taken after the first pass of NEXT, or of the segment waited for. An
abort of the last sample's period stops the player here, and no successor is chosen (R173). -/
def State.wfPassEnd (s0 : State) (t : Nat) : State :=
  let x := s0.player t
  if s0.playing t && x.total ≤ x.next && !s0.is (PRF_STAT t) PRF_STAT.STALLED then
    let s := s0.advance x.nextAt
    let s1 := s.wrF (PRF_PASS t) ⟨0, 16⟩ (s.rdN (PRF_PASS t) + 1)
    if x.abort then s1.playerStop t else
    match x.jump with
    | some (g, false, lin) => s1.takeJump t g lin
    | some (g, true, lin) =>
      match s1.normalNext t with
      | some s2 => s2.modPlayer t (fun y => { y with jump := y.jump.map (fun j => (j.1, false, j.2.2)) })
      | none => s1.takeJump t g lin
    | none =>
      match s1.normalNext t with
      | some s2 => s2
      | none => (s1.playerStop t).emitRegion t evWfEnd
  else s0

def execWfPassEnd (t : Fin 16) (s : State) : Out := .next (s.wfPassEnd t)

end Sys2Proof.Machine
end

