-- ==== Sys2Proof/Machine/Sites.lean ====
section
/-! DEFINITION. Sites (09_sites_and_site_walker.md): accumulation and folding, the site-select port, the site walker,
relay wear, the site records of the journal. -/

namespace Sys2Proof.Machine

/-! ### Accumulators -/

/-- The 96-bit charge saturated at its bounds (R283). -/
def satCharge (i : Int) : Int × Bool := satS 96 i

/-- `i` put into a rising list without repeats. -/
def insertRising (i : Nat) : List Nat → List Nat
  | [] => [i]
  | j :: l => if i < j then i :: j :: l else if i = j then j :: l else j :: insertRising i l

/-- Increments folded into context `i` of die `d` (R283, R286): charge `q`, whether a saturated code is in it, `n` ticks of
stress. An uncorrectable word feeds no arithmetic (R427). -/
def State.addCtx (s : State) (d i : Nat) (q : Int) (ovr : Bool) (n : Nat) : State :=
  if q = 0 && !ovr && n = 0 then s
  else
    let a := s.ctxAt d i
    let st := s.memGet (a + 0x10) 8
    let ch := st.1.memGet (a + 0x18) 12
    let fl := ch.1.memGet (a + 4) 2
    if st.2.2 || ch.2.2 || fl.2.2 then fl.1
    else
      let c := satCharge (signed 96 ch.2.1 + q)
      let f := fl.2.1 ||| (if ovr then 8 else 0) ||| (if c.2 then 16 else 0)
      (((fl.1.memPut (a + 0x10) 8 ((st.2.1 + n) % 2 ^ 64)).memPut (a + 0x18) 12 (unsigned 96 c.1)).memPut (a + 4) 2 f).modDie d
        (fun x => { x with changed := insertRising i x.changed })

/-- The pending increments of unit `p`, and the stress of the site it holds, are folded (R286). -/
def State.foldUnit (s : State) (p : Nat) : State :=
  match s.siteOf p with
  | none => s
  | some i =>
    let d := p / 64
    let s1 := s.syncStress d
    let u := s1.unit p
    let n := mapGet 0 i (s1.die d).stress
    ((s1.addCtx d i u.accQ u.accOvr n).modUnit p (fun u => { u with accQ := 0, accOvr := false })).modDie d (fun x =>
      { x with stress := mapPut 0 i 0 x.stress })

/-- Every unit of die `d` folds. -/
def State.foldDie (s : State) (d : Nat) : State := s.each ((List.range 64).map (fun u => 64 * d + u)) State.foldUnit

/-- ACC_FOLD (R286), at a timestamp that is a multiple of 800,000. -/
def State.accFold (s : State) : State := (s.advance (nextMultiple msTicks s.now)).each (List.range 4) State.foldDie

def execAccFold (s : State) : Out := .next s.accFold

/-- The units whose site in force is `i` fold (R287). -/
def State.foldSite (s : State) (d i : Nat) : State :=
  s.each (((List.range 64).map (fun u => 64 * d + u)).filter (fun p => s.siteOf p = some i)) State.foldUnit

/-- The snapshot of R287. -/
def State.accSnap (s : State) (d : Nat) : State :=
  let i := s.rdN (SITE_ACC_SEL d) % 2 ^ 14
  let s1 := s.foldSite d i
  let st := s1.memGet (s1.ctxAt d i + 0x10) 8
  let ch := st.1.memGet (st.1.ctxAt d i + 0x18) 12
  (((ch.1.wr64 (SITE_ACC_STRESS_LO d) st.2.1).wrN (SITE_ACC_CHG_0 d) ch.2.1).wrN (SITE_ACC_CHG_1 d) (ch.2.1 / 2 ^ 32)).wrN
    (SITE_ACC_CHG_2 d) (ch.2.1 / 2 ^ 64)

/-- The clear of R287. -/
def State.accClr (s : State) (d : Nat) : State :=
  let i := s.rdN (SITE_ACC_SEL d) % 2 ^ 14
  let s1 := s.foldSite d i
  let a := s1.ctxAt d i
  let fl := s1.memGet (a + 4) 2
  (((fl.1.memPut (a + 0x10) 8 0).memPut (a + 0x18) 12 0).memPut (a + 4) 2 (fl.2.1 &&& 0xFFE7)).modDie d (fun x =>
    { x with changed := insertRising i x.changed })

/-- A write of SITE_ACC_CTRL (R287): both bits together snapshot, then clear. -/
def State.writeAccCtrl (s : State) (d : Nat) (v : Word) : State :=
  let s1 := if bitOf v.toNat 0 then s.accSnap d else s
  if bitOf v.toNat 1 then s1.accClr d else s1

def execSnap (f : Fin 8) (d : Fin 4) (s : State) : Out :=
  .next (s.hostWrite f (SITE_ACC_CTRL d) 1#32 (fun s => s.writeAccCtrl d 1#32))

def execClr (f : Fin 8) (d : Fin 4) (s : State) : Out :=
  .next (s.hostWrite f (SITE_ACC_CTRL d) 2#32 (fun s => s.writeAccCtrl d 2#32))

/-! ### Site records -/

/-- A journal record of context `i` of die `d`, a snapshot or a full one (R279, R288). -/
def State.siteRecord (s : State) (d i : Nat) (full : Bool) : State :=
  let a := s.ctxAt d i
  let q := s.memGet (a + 0xC) 4
  let s1 := q.1.memPut (a + 0xC) 4 ((q.2.1 + 1) % 2 ^ 32)
  let r := if full then s1.memRead a 256 else s1.memRead (a + 0xC) 24
  (r.1.journal (.site d i full r.2.bytes)).modDie d (fun x => { x with changed := x.changed.filter (· ≠ i) })

/-- The next instant of snapshots (R288): one interval, of at least 600 s, after the last one. -/
def State.snapNext (s : State) (d : Nat) : Nat :=
  (s.die d).snapAt + secTicks * max 600 (s.rdF (SITE_JCFG d) SITE_JCFG.INTERVAL_S)

/-- SITE_SNAPSHOT (R288). -/
def State.siteSnapshot (s : State) (d : Nat) : State :=
  if s.is (SITE_JCFG d) SITE_JCFG.EN then
    let s1 := (s.advance (s.snapNext d)).foldDie d
    (s1.each (s1.die d).changed (fun s i => s.siteRecord d i false)).modDie d (fun x => { x with snapAt := s1.now })
  else s

def execSiteSnapshot (d : Fin 4) (s : State) : Out := .next (s.siteSnapshot d)

/-- GO of SITE_JCTRL (R288). -/
def State.siteGo (s : State) (d : Nat) : State :=
  if s.is (SITE_JSTAT d) SITE_JSTAT.BUSY then s
  else
    let i0 := s.rdN (SITE_JFIRST d) % 2 ^ 14
    let n := max 1 (s.rdN (SITE_JCOUNT d) % 2 ^ 14)
    let idx := (List.range n).map (fun j => i0 + j)
    let ok := idx.filter (· < 10240)
    ((s.foldDie d).each ok (fun s i => s.siteRecord d i true)).flag (SITE_JSTAT d) SITE_JSTAT.BUSY (ok ≠ [])

def execSiteJournalGo (f : Fin 8) (d : Fin 4) (s : State) : Out :=
  .next (s.hostWrite f (SITE_JCTRL d) 1#32 (fun s => s.siteGo d))

/-! ### The site-select port -/

/-- BREAK_US in ticks (R309). -/
def State.breakTicks (s : State) (d : Nat) : Nat := usTicks * max 1 (s.rdF (SITE_PORT_TBRK d) SITE_PORT_TBRK.BREAK_US)

/-- The strobe in ticks, in 10 ns units (R309). -/
def State.strobeTicks (s : State) (d : Nat) : Nat := 8 * max 1 (s.rdF (SITE_PORT_TBRK d) SITE_PORT_TBRK.STB)

/-- SETTLE_US in ticks, at least BREAK_US + 1 µs (R295). -/
def State.settleTicks (s : State) (d : Nat) : Nat :=
  max (usTicks * s.rdF (SITE_PORT_TSET d) SITE_PORT_TSET.SETTLE_US) (s.breakTicks d + usTicks)

/-- PHASE of SITE_PORT_STAT, bits 30:29 (R309). -/
def portPhase : Fld := ⟨29, 2⟩

/-- PHASE from the switches of die `d`: break, settle or idle. -/
def State.refreshPort (s : State) (d : Nat) : State :=
  let l := (s.die d).switches
  s.wrF (SITE_PORT_STAT d) portPhase
    (if l.any (fun w => w.start ≠ none && w.made = none) then 1 else if l.any (fun w => w.made ≠ none) then 2 else 0)

/-- SA and SD of the port, bits 23:0 of SITE_PORT_STAT (R309). -/
def portPattern : Fld := ⟨0, 24⟩

/-- The level of SSTB now (R290). -/
def State.sstb (s : State) (d : Nat) : Bool :=
  match (s.die d).strobe with
  | some (rise, fall) => rise ≤ s.now && s.now < fall
  | none => false

/-- Switch `w` of die `d` starts at `t` (R293, R294): SBRK goes high; in EXCLUSIVE mode SEN goes low, in SHARED mode a break write
strobes the region's previous address with SD = 0, with the setup and the strobe of R293. -/
def State.beginSwitch (s : State) (d t : Nat) (w : PortSwitch) : State :=
  let was := s.rdF (SITE_PORT_STAT d) portPattern
  let shared := s.is (SITE_PORT_CFG d) SITE_PORT_CFG.MODE
  let s1 := s.modDie d (fun x =>
    { x with
      sbrk := true, sen := if shared then x.sen else false, strobe := none
      switches := x.switches.map (fun v => if v = w then { v with start := some t, was := was } else v) })
  match shared, ((s.die d).lastPat.getD w.region none) with
  | true, some (p, _) =>
    ((s1.wrF (SITE_PORT_STAT d) SITE_PORT_STAT.SA p).wrF (SITE_PORT_STAT d) SITE_PORT_STAT.SD 0).modDie d (fun x =>
      { x with strobe := some (t + 16, t + 16 + s.strobeTicks d) })
  | _, _ => s1

/-- The switch that waits first starts at `t` where the port is free (R294). -/
def State.startSwitch (s : State) (d t : Nat) : State :=
  let l := (s.die d).switches
  if l.any (fun w => w.start ≠ none && w.made = none) then s
  else
    match l.find? (fun w => w.start = none) with
    | none => s
    | some w => s.beginSwitch d t w

/-- The switch that waits for the port to have been free for 10 ns starts, where its instant has come (R294). -/
def State.portCatch (s : State) (d : Nat) : State :=
  match (s.die d).portFree with
  | some t => if t ≤ s.now then ((s.modDie d (fun x => { x with portFree := none })).startSwitch d t).refreshPort d else s
  | none => s

/-- Switch `w` put before the first one of its boundary that belongs to a higher region and has not been made (R294). -/
def insertSwitch (w : PortSwitch) : List PortSwitch → List PortSwitch
  | [] => [w]
  | v :: l => if v.made = none && v.commitAt = w.commitAt && w.region < v.region then w :: v :: l else v :: insertSwitch w l

/-- The switch that started at this very boundary gives way to one of a lower region (R294): the port shows what it showed. -/
def State.giveWay (s : State) (d g : Nat) : State :=
  match (s.die d).switches.find? (fun v => v.start = some s.now && v.commitAt = s.now && v.made = none && g < v.region) with
  | none => s
  | some v =>
    (s.wrF (SITE_PORT_STAT d) portPattern v.was).modDie d (fun x =>
      { x with strobe := none, switches := x.switches.map (fun y => if y = v then { v with start := none } else y) })

/-- The commit of a pattern by region `t` at the present boundary (R292, R294, R296, R297), for the units of `mask`: a switch of the
region in its break is replaced where it stands on the port, and one that waits gives its place up. -/
def State.portCommit (s0 : State) (t sa sd site mask : Nat) : State :=
  let d := t / 4
  let s := s0.portCatch d
  let g := t % 4
  let pat := sa + 0x10000 * sd
  if (s.die d).lastPat.getD g none = some (pat, true) then s
  else if !bitOf (s.rdF (SITE_PORT_CFG d) SITE_PORT_CFG.REGIONS) g then
    (s.flag (SITE_PORT_FLAG d) SITE_PORT_FLAG.REFUSED true).each (indices 16 (fun u => bitOf mask u)) (fun s u =>
      s.modUnit (16 * t + u) (fun x => { x with mea := { x.mea with siteUntil := s.now + s.settleTicks d } }))
  else
    let mine (w : PortSwitch) : Bool := w.region = g && w.made = none
    let w : PortSwitch := { region := g, commitAt := s.now, start := none, sa := sa, sd := sd, site := site, mask := mask }
    let s1 := if (s.die d).switches.any mine then s.flag (SITE_PORT_FLAG d) SITE_PORT_FLAG.RESTARTED true else s
    let s2 :=
      if (s.die d).switches.any (fun v => mine v && v.start ≠ none) then
        (s1.modDie d (fun x => { x with switches := x.switches.map (fun v => if mine v then w else v) })).beginSwitch d s.now w
      else
        let s2 := (s1.giveWay d g).modDie d (fun x => { x with switches := insertSwitch w (x.switches.filter (fun v => !mine v)) })
        if (s.die d).portFree = none then s2.startSwitch d s.now else s2
    s2.refreshPort d

/-- A switch of unit `p`'s region marks its samples SETTLE now (R231, R295, R297). -/
def State.siteSettling (s : State) (p : Nat) : Bool :=
  s.now < (s.unit p).mea.siteUntil ||
    (s.die (p / 64)).switches.any (fun w => w.region = p / 16 % 4 && bitOf w.mask (p % 16))

/-- The switch in its break. -/
def State.breaking (s : State) (d : Nat) : Option PortSwitch :=
  (s.die d).switches.find? (fun w => w.start ≠ none && w.made = none)

/-- The state with switch `w` of die `d` replaced. -/
def State.setSwitch (s : State) (d : Nat) (w w' : PortSwitch) : State :=
  s.modDie d (fun x => { x with switches := x.switches.map (fun v => if v = w then w' else v) })

/-- SITE_PATTERN_DRIVE (R293, R294): SA and SD take the pattern, and SSTB rises 20 ns later for STB. -/
def State.sitePatternDrive (s0 : State) (d : Nat) : State :=
  let s := match (s0.die d).portFree with
    | some t => (s0.advance t).portCatch d
    | none => s0
  match s.breaking d with
  | none => s
  | some w =>
    if w.driven then s
    else
      let b := (w.start.getD 0) + s.breakTicks d
      let s1 := (s.advance b).modDie d (fun x => { x with strobe := some (b + 16, b + 16 + s.strobeTicks d) })
      ((s1.setSwitch d w { w with driven := true }).wrF (SITE_PORT_STAT d) SITE_PORT_STAT.SA w.sa).wrF (SITE_PORT_STAT d)
        SITE_PORT_STAT.SD w.sd

def execSitePatternDrive (d : Fin 4) (s : State) : Out := .next (s.sitePatternDrive d)

/-- One closure of relay `r` (R304, R305). -/
def State.relayClose (s : State) (r : Nat) : State :=
  let n := min (2 ^ 32 - 1) (mapGet 0 r s.hub.relayCnt + 1)
  let s1 := s.modHub (fun h => { h with relayCnt := mapPut 0 r n h.relayCnt })
  if s.rdN (LIFE_RW_THR (mapGet 0 r s.hub.relayClass)) ≤ n && mapGet 0 r s.hub.relayWarned = 0 then
    (((s1.modHub (fun h => { h with relayWarned := mapPut 0 r 1 h.relayWarned })).bumpSat LIFE_RW_WARN ⟨0, 17⟩ 1).wrN
      LIFE_RW_LAST (2 ^ 31 + r)).raisePkg .relayWear
  else s1

/-- The relays of context `i` of die `d` close once (R304). -/
def State.relaysClose (s : State) (d i : Nat) : State :=
  let r := s.memRead (s.ctxAt d i + 4) 8
  let b := r.2.bytes
  if r.2.bad || !bitOf (ofLeBytes b) 0 then r.1
  else
    let n := min 16 (ofLeBytes (b.drop 5) % 256)
    let base := ofLeBytes ((b.drop 6).take 2)
    r.1.each ((List.range n).map (fun j => (base + j) % 65536)) State.relayClose

/-- SITE_MAKE (R293, R294, R304), after which the next switch of the port waits 10 ns; under a reaction of severity 5 or 6 that has made the die safe, SEN goes low again (R298). -/
def State.siteMake (s : State) (d : Nat) : State :=
  match s.breaking d with
  | none => s
  | some w =>
    if !w.driven then s
    else
      let s1 := (s.advance ((w.start.getD 0) + s.breakTicks d + 16 + s.strobeTicks d)).syncStress d
      let s2 := (s1.setSwitch d w { w with made := some s1.now }).modDie d (fun x =>
        { x with sen := true, sbrk := false, lastPat := x.lastPat.set w.region (some (w.sa + 0x10000 * w.sd, true)) })
      let s3 := ((s2.bump (SITE_PORT_CNT d) 1).relaysClose d w.site).emit d 0xC10 s1.now
      let wait := (s3.die d).switches.any (fun v => v.start = none)
      ((s3.modDie d (fun x => { x with portFree := if wait then some (s1.now + 8) else none })).refreshPort d).senSettle

def execSiteMake (d : Fin 4) (s : State) : Out := .next (s.siteMake d)

/-- The end of settle of a switch, and whether it is a timeout (R295): `srdy` is the first instant at or after the make at
which SRDY is seen high. -/
def State.settleEnd (s : State) (d start made : Nat) (srdy : Option Nat) : Nat × Bool :=
  let t := start + s.settleTicks d
  if !s.is (SITE_PORT_CFG d) SITE_PORT_CFG.SRDY_EN then (t, false)
  else
    let tmo := max (made + usTicks * s.rdF (SITE_PORT_TSET d) SITE_PORT_TSET.SRDY_TMO_US) t
    match srdy with
    | some r => if max t (max r made) ≤ tmo then (max t (max r made), false) else (tmo, true)
    | none => (tmo, true)

/-- The levels of the input balls in SITE_PORT_STAT (R290, R309): SST2 to SST0, SRDY, SERR_N low. -/
def State.portInputs (s : State) (d : Nat) (sst : Nat) (srdy serr : Bool) : State :=
  ((s.wrF (SITE_PORT_STAT d) SITE_PORT_STAT.SST2 sst).flag (SITE_PORT_STAT d) SITE_PORT_STAT.SRDY srdy).flag (SITE_PORT_STAT d)
    SITE_PORT_STAT.SERR_N serr

/-- SITE_SETTLED (R295), of the switch that was made first. `pins` gives the levels of SST2 to SST0 then, and in bit 3 whether
SERR_N is low. -/
def State.siteSettled (s0 : State) (d : Nat) (srdy : Option Nat) (pins : Nat) : State :=
  let s := s0.portCatch d
  match (s.die d).switches.find? (fun w => w.made ≠ none) with
  | none => s
  | some w =>
    let e := s.settleEnd d (w.start.getD 0) (w.made.getD 0) srdy
    let s1 := (((s.advance e.1).modDie d (fun x => { x with switches := x.switches.erase w })).portCatch d).emit d 0xC11 (max s.now e.1)
    let s2 := (s1.portInputs d (pins % 8) (match srdy with | some r => decide (r ≤ s1.now) | none => false) (bitOf pins 3)).refreshPort d
    if e.2 then (s2.flag (SITE_PORT_FLAG d) SITE_PORT_FLAG.TMO true).raise .sitePortTmo d 3 d else s2

def execSiteSettled (d : Fin 4) (srdy : Option Nat × Fin 16) (s : State) : Out := .next (s.siteSettled d srdy.1 srdy.2)

/-- SITE_PORT_ERR (R297): SERR_N has been low for more than 1 µs. -/
def State.sitePortErr (s : State) (d : Nat) : State :=
  let s1 := s.flag (SITE_PORT_STAT d) SITE_PORT_STAT.SERR_N true
  if s.is (SITE_PORT_CFG d) SITE_PORT_CFG.SERR_EN then
    (s1.flag (SITE_PORT_FLAG d) SITE_PORT_FLAG.ERR true).raise .sitePortErr d 3 d
  else s1

def execSitePortErr (d : Fin 4) (s : State) : Out := .next (s.sitePortErr d)

/-! ### The site walker -/

/-- LO, and the number of addresses N (R300, R311). -/
def State.wsRange (s : State) (d k : Nat) : Nat × Nat :=
  let lo := s.rdF (SITE_WS_RANGE d k) SITE_WS_RANGE.LO
  (lo, max lo (s.rdF (SITE_WS_RANGE d k) SITE_WS_RANGE.HI) - lo + 1)

/-- WIDTH (R311). -/
def State.wsWidth (s : State) (d k : Nat) : Nat :=
  let w := s.rdF (SITE_WS_GEOM d k) SITE_WS_GEOM.WIDTH
  if 1 ≤ w && w ≤ 16 then w else 16

/-- The `w` low bits of `c` reversed (R300). -/
def bitRev : Nat → Nat → Nat
  | 0, _ => 0
  | w + 1, c => c % 2 * 2 ^ w + bitRev w (c / 2)

/-- One step of the walker's LFSR (R300). -/
def lfsrStep (taps x : Nat) : Nat := if x % 2 = 1 then (x / 2) ^^^ taps else x / 2

/-- The LFSR's values from `x` on until one equals the first (R300), at most `n` of them. -/
def lfsrRun (taps first : Nat) : Nat → Nat → List Nat
  | 0, _ => []
  | n + 1, x => x :: (if lfsrStep taps x = first then [] else lfsrRun taps first n (lfsrStep taps x))

/-- The LFSR part of stream `k`'s list (R300). -/
def State.wsLfsr (s : State) (d k : Nat) : List Nat :=
  let w := s.wsWidth d k
  let x := s.rdF (SITE_WS_LFSR d k) SITE_WS_LFSR.SEED % 2 ^ w
  let x := if x = 0 then 1 else x
  lfsrRun (s.rdF (SITE_WS_LFSR d k) SITE_WS_LFSR.TAPS % 2 ^ w) x (2 ^ w) x

/-- The list of offsets in ascending order, entries out of range included (R300). -/
def State.wsList (s : State) (d k : Nat) : List Nat :=
  let w := s.wsWidth d k
  match s.rdF (SITE_WS_CFG d k) SITE_WS_CFG.SCR with
  | 0 => List.range (s.wsRange d k).2
  | 1 => (List.range (2 ^ w)).map (fun c => c ^^^ (c / 2))
  | 2 => (List.range (2 ^ w)).map (bitRev w)
  | _ => s.wsLfsr d k ++ [0]

/-- The positions of the list that give outputs, in the order of element `e` (R300). -/
def State.wsOrder (s : State) (d k e : Nat) : List Nat :=
  let n := (s.wsRange d k).2
  let l := ((s.wsList d k).zipIdx.filter (fun x => x.1 < n)).map Prod.snd
  if s.is (SITE_WS_ELEM d k e) SITE_WS_ELEM.ORDER then l.reverse else l

/-- A position in the layout of SITE_WS_POS, bit 24 set where its next output is the first after a wrap. -/
def wsPos (e op c : Nat) (wrap : Bool) : Nat := e % 16 + 16 * (op % 4) + 256 * c + 2 ^ 24 * b2n wrap

/-- The position of the first output of element `e`. -/
def State.wsFirst (s : State) (d k e : Nat) (wrap : Bool) : Nat := wsPos e 0 ((s.wsOrder d k e).headD 0) wrap

/-- An output of the walker (R299). -/
structure WsOut where
  offset : Nat
  addr : Nat
  data : Nat
  level : Nat
  wrap : Bool
  deriving DecidableEq, Repr

/-- The background bit bg(o) of element `e` (R301). -/
def State.wsBg (s : State) (d k e o : Nat) : Nat :=
  let b := s.rdF (SITE_WS_GEOM d k) SITE_WS_GEOM.COLBITS
  let col := o % 2 ^ b
  let row := o / 2 ^ b
  match s.rdF (SITE_WS_ELEM d k e) SITE_WS_ELEM.BG with
  | 0 => 0
  | 1 => (row ^^^ col) % 2
  | 2 => row % 2
  | _ => col % 2

/-- The output at position `pos` of stream `k` and the position after it (R299 to R303). The level is the number of the
op's level register. -/
def State.wsDraw (s : State) (d k pos : Nat) : WsOut × Nat :=
  let e := pos % 16
  let op := pos / 16 % 4
  let elem := SITE_WS_ELEM d k e
  let order := s.wsOrder d k e
  let desc := s.is elem SITE_WS_ELEM.ORDER
  let here := order.dropWhile (fun x => if desc then pos / 256 % 65536 < x else x < pos / 256 % 65536)
  let c := here.headD (order.headD 0)
  let o := (s.wsList d k).getD c 0
  let bits := s.rdF elem SITE_WS_ELEM.OPS / 16 ^ op
  let inv := (s.wsBg d k e o + bits / 4) % 2
  let data := s.rdF elem SITE_WS_ELEM.DATA
  let out : WsOut :=
    { offset := o, addr := ((s.wsRange d k).1 + o) % 65536, data := if inv = 1 then data ^^^ 0xFF else data,
      level := bits % 4, wrap := bitOf pos 24 }
  let next :=
    if op < s.rdF elem SITE_WS_ELEM.NOPS then wsPos e (op + 1) c false
    else
      match here.drop 1 with
      | c' :: _ => wsPos e 0 c' false
      | [] => if s.is elem SITE_WS_ELEM.LAST || e = 15 then s.wsFirst d k 0 true else s.wsFirst d k (e + 1) false
  (out, next)

/-- The confirmed position of stream `k` (R303). -/
def State.wsConfirmed (s : State) (d k : Nat) : Nat :=
  s.rdN (SITE_WS_POS d k) % 2 ^ 24 + 2 ^ 24 * b2n (bitOf (s.die d).walkWrap k)

/-- Position `pos` becomes confirmed; `wrapped` says that the first output after a wrap is among those confirmed (R303). -/
def State.wsConfirm (s : State) (d k pos : Nat) (wrapped : Bool) : State :=
  let s1 := (s.wrN (SITE_WS_POS d k) (pos % 2 ^ 24)).modDie d (fun x =>
    { x with walkWrap := if bitOf pos 24 then withBit x.walkWrap k else withoutBit x.walkWrap k })
  if wrapped then (s1.flag (SITE_WS_STAT d k) SITE_WS_STAT.WRAPPED true).emit d (0xC14 + k) s.now else s1

/-- LFSR_SHORT, where the LFSR returns too early (R300). -/
def State.wsShort (s : State) (d k : Nat) : State :=
  if s.rdF (SITE_WS_CFG d k) SITE_WS_CFG.SCR = 3 && (s.wsLfsr d k).length < 2 ^ s.wsWidth d k - 1 then
    s.flag (SITE_WS_STAT d k) SITE_WS_STAT.LFSR_SHORT true
  else s

/-- Outputs of elements `e` to the last one (R301), at most `n` elements. -/
def State.wsTotalFrom (s : State) (d k : Nat) : Nat → Nat → Nat
  | 0, _ => 0
  | n + 1, e =>
    (s.rdF (SITE_WS_ELEM d k e) SITE_WS_ELEM.NOPS + 1) * (s.wsOrder d k e).length +
      (if s.is (SITE_WS_ELEM d k e) SITE_WS_ELEM.LAST then 0 else State.wsTotalFrom s d k n (e + 1))

/-- SITE_WS_TOTAL (R301, R311): 0 for a stream that is not assigned, which has no run. -/
def State.wsTotal (s : State) (d k : Nat) : Word :=
  if s.is (SITE_WS_CFG d k) SITE_WS_CFG.EN then w32 (s.wsTotalFrom d k 16 0 % 2 ^ 23) else 0#32

/-- A host write to a stream squashes the footholds of the stream's region (R303). -/
def State.wsSquash (s : State) (d k : Nat) : State :=
  if s.is (SITE_WS_CFG d k) SITE_WS_CFG.EN then
    let t := 4 * d + s.rdF (SITE_WS_CFG d k) SITE_WS_CFG.REGION
    s.seqCause t .host
  else s

/-- Stream `k` is assigned to region `t` of its die (R299). -/
def State.wsOf (s : State) (t k : Nat) : Bool :=
  s.is (SITE_WS_CFG (t / 4) k) SITE_WS_CFG.EN && s.rdF (SITE_WS_CFG (t / 4) k) SITE_WS_CFG.REGION = t % 4

/-- The stream returns to its first position (R303). -/
def State.wsRewind (s : State) (d k : Nat) : State := s.wsConfirm d k (s.wsFirst d k 0 false) false

/-- RESTART (R303). -/
def execRestart (f : Fin 8) (d : Fin 4) (k : Fin 4) (s : State) : Out :=
  .next (s.hostWrite f (SITE_WS_CTRL d k) 1#32 (fun s => (s.wsSquash d k).wsRewind d k))

/-! ### Relay wear -/

/-- CLR_CNT (R305): the selected relay's count, its warning, and a record of the replacement. -/
def State.clrCnt (s : State) : State :=
  let r := s.rdN LIFE_RW_SEL % 65536
  let warned := mapGet 0 r s.hub.relayWarned ≠ 0
  let s1 := s.modHub (fun h =>
    { h with relayCnt := mapPut 0 r 0 h.relayCnt, relayWarned := mapPut 0 r 0 h.relayWarned })
  let s2 := if warned then s1.wrF LIFE_RW_WARN ⟨0, 17⟩ (s.rdF LIFE_RW_WARN ⟨0, 17⟩ - 1) else s1
  s2.journal (.relays s2.hub.relayCnt s2.hub.relayClass s2.hub.relayWarned)

def execClrCnt (f : Fin 8) (s : State) : Out := .next (s.hostWrite f LIFE_RW_CTRL 1#32 State.clrCnt)

/-! ### The commit of a site -/

/-- The region-local units whose site a commit for `mask` changes: those of the mask, and the followers of a gang whose master is
among them (R282). -/
def State.siteUnits (s : State) (t mask : Nat) : List Nat :=
  indices 16 (fun u => bitOf mask u || (s.follower (16 * t + u) && bitOf mask (s.masterOf (16 * t + u) % 16)))

/-- The site of a committing step (R203 item 7): the units of `mask` in region `t` and their gang followers fold, then hold the new
site, and the port takes the staged pattern. -/
def State.siteCommit (s : State) (t mask : Nat) (x : SiteStage) : State :=
  let units := s.siteUnits t mask
  let s1 := (s.syncStress (t / 4)).each units (fun s u => s.foldUnit (16 * t + u))
  let s2 := s1.each units (fun s u => s.modUnit (16 * t + u) (fun y => { y with mea := { y.mea with site := some x.site } }))
  if x.sel then s2.portCommit t x.sa x.sd x.site (units.foldl withBit 0) else s2

end Sys2Proof.Machine
end

