-- ==== Sys2Proof/Machine/Sequencer.lean ====
section
/-! DEFINITION. The step sequencer and its footholds (06_step_sequencer_and_foothold.md). A row of the table that is a
sequencer instruction builds: it executes the word at the address that the foothold under construction has reached, where
that word is the row's instruction, and changes nothing elsewhere. -/

namespace Sys2Proof.Machine

/-! ### Building -/

/-- The foothold in construction, or the last one. -/
def State.lastFoot (s : State) (t : Nat) : Option Foothold := (s.seq t).foot.getLast?

/-- The state with the last foothold changed. -/
def State.modLast (s : State) (t : Nat) (g : Foothold → Foothold) : State :=
  s.modSeq t (fun q => { q with foot := q.foot.dropLast ++ (q.foot.getLast?.map g).toList })

/-- Whether building can go on (R196, R205, R207, R210). -/
def State.canBuild (s : State) (t : Nat) : Bool :=
  s.seqRunning t && !(s.seq t).hold && !(s.seq t).stopReq && !(s.seq t).forceStop &&
    (match s.lastFoot t with
      | none => true
      | some f => f.err = 0 && (!f.ready || (!f.halt && (s.seq t).foot.length < 4)))

/-- The confirmed program state as a new foothold starts from it (R189, R196). -/
def State.confProg (s : State) (t : Nat) : ProgState :=
  { pc := (s.seq t).buildAt.getD (s.rdN (SEQ_PC t) % 2 ^ 14)
    umask := s.rdN (SEQ_UMASK t) % 2 ^ 16
    site := if s.is (SEQ_SITE t) SEQ_SITE.VALID then some (s.rdN (SEQ_SITE t) % 2 ^ 14) else none
    stack := (s.seq t).stack, e := (s.seq t).e }

/-- The program state of the foothold that builds now: the one in construction, or a new one's. -/
def State.buildProg (s : State) (t : Nat) : ProgState :=
  match s.lastFoot t with
  | none => s.confProg t
  | some f => if f.ready then { f.prog with cnt := [], swp := none } else f.prog

/-- A register of a sequencer block. -/
def isSeqReg (a : Nat) : Bool :=
  match blockOf a with
  | some (.seq, _, _) => true
  | _ => false

/-- A foothold is in construction: a new one where the last is ready (R196). Its read set starts with what the older footholds
fetched, and the SEQ_ registers they read (R198). -/
def State.openFoot (s : State) (t : Nat) : State :=
  let new := match s.lastFoot t with
    | none => true
    | some f => f.ready
  if new then s.modSeq t (fun q => { q with foot := q.foot ++ [{ prog := s.buildProg t, oldMem := q.foot.flatMap Foothold.mem, oldRegs := (q.foot.flatMap Foothold.regs).filter isSeqReg }] }) else s

/-- The BAR2 offset of program word `a` of region `t` (R189). -/
def State.progAddr (s : State) (t a : Nat) : Nat := dieMem (t / 4) (s.rdN (SEQ_PS_BASE t) + 4 * (a % 2 ^ 14))

/-- `n` bytes at `a` join the read set of the foothold in construction (R198). -/
def State.readSet (s : State) (t a n : Nat) : State := s.modLast t (fun f => { f with mem := f.mem ++ [(a, n)] })

/-- Register `a` joins the read set of the foothold in construction (R198). -/
def State.readReg (s : State) (t a : Nat) : State := s.modLast t (fun f => { f with regs := f.regs ++ [a] })

/-- The operand bits of each opcode (R194); none for an unassigned one. -/
def seqBits : List Nat :=
  [0, 0, 0xFFFFFF, 1, 0xFFFF, 0xF, 3, 0x1F, 0x3F, 0x7FFF, 0x4003, 3, 0xFFFFFF, 0x1FF, 0x7FFFFF, 0x7FFFFF, 0x703FFF, 0x3FFF,
   0x703FFF, 0x3E03FFF, 0x3FFFF, 0x3FFF, 0x3FFF, 0, 3, 0x3FFFF]

/-- Bits `lo` to `lo + len − 1` of an instruction word. -/
def bitsOf (w lo len : Nat) : Nat := w / 2 ^ lo % 2 ^ len

/-- The error in word `w` for the foothold that would execute it (R193, R210, R299): 0 where there is none. -/
def State.wordErr (s : State) (t w : Nat) : SeqErr :=
  let op := w / 2 ^ 26
  match seqBits[op]? with
  | none => 1
  | some m =>
    let x := w % 2 ^ 26
    let depth := (s.buildProg t).stack.length
    if x &&& m ≠ x then 1
    else
      match op with
      | 0x05 => if 6 ≤ x then 1 else 0
      | 0x06 => if x = 3 then 1 else 0
      | 0x08 => if bitsOf x 3 3 < bitsOf x 0 3 then 1 else 0
      | 0x0A =>
        let c := SITE_WS_CFG (t / 4) (x % 4)
        if s.is c SITE_WS_CFG.EN && s.rdF c SITE_WS_CFG.REGION = t % 4 then 0 else 1
      | 0x16 => if 8 ≤ depth then 2 else 0
      | 0x17 => if depth = 0 then 2 else 0
      | _ => 0

/-- The look-ahead to the next word: an error there ends building (R196, R210, R427). -/
def State.seqLook (s : State) (t : Nat) : State :=
  if !s.canBuild t then s
  else
    let a := s.progAddr t (s.buildProg t).pc
    let r := s.memGet a 4
    let full := match s.lastFoot t with
      | some f => !f.ready && 4096 ≤ f.count
      | none => false
    let e := if full then 3 else if r.2.2 then 6 else s.wordErr t r.2.1
    if e = 0 then s
    else
      let s1 := (if full then s else r.1).openFoot t
      let s2 := (if full then s1 else s1.readSet t a 4).modLast t (fun f => { f with err := e, readyAt := s.now, wait := 0 })
      if !full && s.hostWroteMem a 4 then s2.seqCause t .host else s2

/-- What the foothold in construction has read between `s0` and `s` meets a host write of the same PCLK cycle, which counts as later than
the read: every foothold is squashed (R198, R211). -/
def State.meetHost (s0 s : State) (t : Nat) : State :=
  let old := (s0.lastFoot t).map (fun f => if f.ready then ([], []) else (f.mem, f.regs))
  let seen := old.getD ([], [])
  match s.lastFoot t with
  | none => s
  | some f =>
    if f.mem.any (fun m => !seen.1.contains m && s.hostWroteMem m.1 m.2) || f.regs.any (fun a => !seen.2.contains a && s.hostWrote a) then
      s.seqCause t .host
    else s

/-- An earlier step has not closed yet, seen from the foothold in construction (R196, R207). -/
def State.earlierOpen (s : State) (t : Nat) : Bool := (s.seq t).conf ≠ none || 1 < (s.seq t).foot.length

/-- Building waits at word `w`: 1 for the outcome or the verdict (R196), 2 at a barrier (R207, R209), 0 for no wait. -/
def State.seqWait (s : State) (t w : Nat) : Nat :=
  match w / 2 ^ 26 with
  | 0x13 => if s.earlierOpen t || (s.seq t).verdWait then 1 else 0
  | 0x14 => if s.earlierOpen t then 1 else 0
  | 0x18 =>
    if s.earlierOpen t || (bitOf w 1 && !s.is (SEQ_CTRL t) SEQ_CTRL.CONT) || (bitOf w 0 && s.is (SEQ_STAT t) SEQ_STAT.RECONF)
    then 2 else 0
  | _ => 0

/-- The confirmed step has closed, and the first foothold waits on a commit gate (R202, R214): WAITT, WAITTM or WAIT_TRIG, not the idle
dwell of enforcement. -/
def State.gateWaits (s : State) (t : Nat) : Bool :=
  let q := s.seq t
  match q.conf, q.foot with
  | none, f :: _ => f.ready && (f.slots.any (fun n => !s.strig t n) || s.seqTime t < q.closeSeq + usTicks * f.waittm.getD 0)
  | _, _ => false

/-- WAIT_BAR, WAIT_HOST, WAIT_GATE and QP follow the flow (R207, R214). -/
def State.refreshSeq (s : State) (t : Nat) : State :=
  if !s.seqRunning t then s
  else
    let q := s.seq t
    let bar := (q.foot.getLast?.map (fun f => f.wait == 2)).getD false
    let host := (q.foot.getLast?.map Foothold.host).getD false
    let qp := (q.foot.getLast?.map Foothold.qp).getD false
    let arrived := bar && qp && !s.earlierOpen t && !s.is (SEQ_STAT t) SEQ_STAT.QP
    let s := if arrived then s.modSeq t (fun q => { q with qpAt := s.now }) else s
    (((s.flag (SEQ_STAT t) SEQ_STAT.WAIT_BAR bar).flag (SEQ_STAT t) SEQ_STAT.WAIT_HOST
      (bar && host && !s.earlierOpen t && !s.is (SEQ_CTRL t) SEQ_CTRL.CONT)).flag (SEQ_STAT t)
      SEQ_STAT.QP (bar && qp && !s.earlierOpen t)).flag (SEQ_STAT t) SEQ_STAT.WAIT_GATE (s.gateWaits t)

/-- The flow has arrived at a HOST barrier at address `a`, every earlier step closed: SEQ_HOST_WAIT, once for the arrival (R197, R207,
R212). -/
def State.hostArrive (s : State) (t a : Nat) : State :=
  if s.earlierOpen t || (s.seq t).told = some a then s
  else (s.modSeq t (fun q => { q with told := some a })).emitRegion t evSeqHostWait

/-- The close of the last earlier step brings the flow to the HOST barrier at which building waits (R207, R212). -/
def State.hostReached (s : State) (t : Nat) : State :=
  match s.lastFoot t with
  | some f => if f.wait = 2 && f.host then s.hostArrive t f.prog.pc else s
  | none => s

/-- Building waits at word `w` (R196, R207). -/
def State.waitAt (s : State) (t w k : Nat) : State :=
  ((s.modLast t (fun f =>
    { f with wait := k, qp := k = 2 && bitOf w 0, host := k = 2 && bitOf w 1 })).hostReached t).refreshSeq t

/-- The instruction of opcode `op` at the address that building has reached: `k` gives its effect on the foothold in
construction, whose PC already stands at the next word (R193, R194, R196). -/
def State.seqRow (s : State) (t op : Nat) (k : State → Nat → State) : State :=
  let s1 := s.seqLook t
  if !s1.canBuild t then s1
  else
    let pc := (s1.buildProg t).pc
    let a := s1.progAddr t pc
    let r := s1.memGet a 4
    let w := r.2.1
    if w / 2 ^ 26 ≠ op then s1
    else
      let s2 := (r.1.openFoot t).readSet t a 4
      let x := s2.seqWait t w
      if x ≠ 0 then s1.meetHost (s2.waitAt t w x) t
      else
        let s3 := s2.modLast t (fun f =>
          { f with wait := 0, qp := false, host := false, count := f.count + 1, prog := { f.prog with pc := (pc + 1) % 2 ^ 14 } })
        ((s1.meetHost (k s3 (w % 2 ^ 26)) t).seqLook t).refreshSeq t

/-- A change of the program state of the foothold in construction. -/
def State.modProg (s : State) (t : Nat) (g : ProgState → ProgState) : State :=
  s.modLast t (fun f => { f with prog := g f.prog })

/-- Counter `n` as the foothold in construction reads it (R198): the youngest foothold's write, else the register, which
joins the read set. -/
def State.readCnt (s : State) (t n : Nat) : State × Nat :=
  match ((s.seq t).foot.reverse.filterMap (fun f => (f.prog.cnt.find? (fun x => x.1 = n)).map Prod.snd)).head? with
  | some v => (s, v)
  | none => (s.readReg t (SEQ_CNT t n), s.rdN (SEQ_CNT t n))

/-- SWP as the foothold in construction reads it. -/
def State.readSwp (s : State) (t : Nat) : State × Nat :=
  match ((s.seq t).foot.reverse.filterMap (fun f => f.prog.swp)).head? with
  | some v => (s, v)
  | none => (s.readReg t (SEQ_SWP t), s.rdN (SEQ_SWP t) % 2 ^ 18)

/-- The foothold in construction writes counter `n`. -/
def State.writeCnt (s : State) (t n v : Nat) : State :=
  s.modProg t (fun g => { g with cnt := g.cnt.filter (fun x => x.1 ≠ n) ++ [(n, v % 2 ^ 32)] })

/-- A branch to `a` where `c` holds. -/
def State.branchIf (s : State) (t : Nat) (c : Bool) (a : Nat) : State :=
  if c then s.modProg t (fun g => { g with pc := a % 2 ^ 14 }) else s

/-- The UMASK of the foothold in construction. -/
def State.footMask (s : State) (t : Nat) : Nat := ((s.lastFoot t).map (fun f => f.prog.umask)).getD 0

/-- The terminator of the foothold in construction has executed. -/
def State.footReady (s : State) (t dwell : Nat) (halt : Bool) : State :=
  s.modLast t (fun f => { f with ready := true, readyAt := s.now, dwell := dwell, halt := halt })

/-! ### Closes that are not clean, and stops -/

/-- A window of the step numbered `n` that feeds a kernel is open, or a close job of its has not completed (R268). -/
def State.verdictOpen (s : State) (t n : Nat) : Bool :=
  let r := s.red t
  let of (j : Job) : Bool := match j with
    | .close _ st _ _ _ => st == n
    | .value .. => false
  r.queue.any of || r.closeWait.any of || (r.run.map (fun x => x.close && x.step == n)).getD false ||
    (unitsOf t).any (fun p => (s.unit p).mea.wins.any (fun w => w.step = n && w.gen ≠ none))

/-- The sequencer copies the verdict of the last closed step into SEQ_VERD once it is known (R189, R268). -/
def State.verdictCopy (s : State) (t : Nat) : State :=
  let q := s.seq t
  if q.verdWait && !s.verdictOpen t q.verdStep then
    (s.modSeq t (fun q => { q with verdWait := false })).wrN (SEQ_VERD t) (q.verdAcc % 2 ^ 16)
  else s

/-- The number of the next step of region `t` to commit, SEQ_STEPNUM (R192), above it the number of starts: START clears SEQ_STEPNUM
(R207), and windows of a HALT step can outlive it, so that a number alone would name two steps (R268). Records hold the low 32 bits. -/
def State.stepKey (s : State) (t : Nat) : Nat := s.rdN (SEQ_STEPNUM t) + 2 ^ 32 * (s.seq t).epoch

/-- The step numbered `n` has closed: its verdict is known now, or once its close jobs complete (R189, R268). -/
def State.closeVerdict (s : State) (t n : Nat) : State :=
  (s.modSeq t (fun q => { q with verdStep := n, verdAcc := q.verdOpen, verdOpen := 0, verdWait := true })).verdictCopy t

/-- The vector register of an outcome (R204). -/
def vecReg (t o : Nat) : Nat := if o = 1 then SEQ_VEC_CMPL t else if o = 2 then SEQ_VEC_ABORT t else SEQ_VEC_FAULT t

/-- The sequencer of region `t` stops by an event of the lineage `lin` that its SEQ_STOP would take (R207, R329). -/
def State.stopCaused (s : State) (t lin : Nat) : State :=
  if lin < 8 || !s.seqRunning t then s.seqStop t lin
  else (s.seqStop t 0 false).eventLoop (t / 4) (regionProd t evSeqStop)

/-- The flow after a close with outcome `o` other than CLEAN, at the present instant (R204, R207); `close` says that a step
was open, `swap` that an image swap follows, which takes no vector and stops nothing but what a STOP asked for (R209). -/
def State.nonClean (s : State) (t o : Nat) (close : Bool) (swap : Bool := false) : State :=
  let lin := if o = 2 then (s.seq t).abortLin.getD 0 else 0
  let stop := (s.seq t).stopReq || (s.seq t).forceStop
  let s1 := (s.modSeq t (fun q =>
    { q with foot := [], conf := none, hold := false, siteFault := false, abortLin := none, late := [], told := none,
             closeSeq := s.seqTime t, closedAt := s.now })).wrN (SEQ_OUTCOME t) (4 + o)
  let s2 := (if close then (s1.bump (SEQ_NC_CNT t) 1).emitCaused (t / 4) (regionProd t evSeqCloseNc) s.now lin else s1).tapsEnd t
  let v := vecReg t o
  if stop then s2.stopCaused t lin
  else if swap then s2
  else if s2.is v SEQ_VEC_CMPL.EN then
    (s2.modSeq t (fun q => { q with buildAt := some (s2.rdF v SEQ_VEC_CMPL.ADDR) })).refreshSeq t
  else if o = 1 then (s2.modSeq t (fun q => { q with buildAt := none })).refreshSeq t
  else s2.stopCaused t lin

/-- A site reference outside the region's block (R27, R205): raised at once, every foothold squashed, the fault vector at
the close. -/
def State.siteRange (s : State) (t : Nat) : State :=
  let s2 := (s.seqCause t .site).raiseRegion .seqSiteRange t
  if (s2.seq t).conf = none && (s2.seq t).siteFault && s2.seqRunning t then s2.nonClean t 3 false else s2

/-! ### Sites -/

/-- The foothold in construction takes site `i`: the context is fetched, its pattern staged where `sel` says so, or the
given one (R194, R299). -/
def State.footSite (s : State) (t i : Nat) (sel : Bool) (pat : Option (Nat × Nat)) : State :=
  let b := s.siteBlk t
  if i < b.1 || b.1 + b.2 ≤ i then s.siteRange t
  else
    let a := s.ctxAt (t / 4) i
    let r := (s.readSet t a 256).memRead a 256
    if r.2.bad then r.1.modLast t (fun f => { f with err := 6, readyAt := s.now })
    else
      let own := (ofLeBytes ((r.2.bytes.drop 6).take 2), ofLeBytes ((r.2.bytes.drop 8).take 1))
      let p := pat.getD own
      r.1.modLast t (fun f =>
        { f with
          prog := { f.prog with site := some i }
          site := some { site := i, sel := sel, sa := p.1, sd := p.2 } })

/-- The position of walker stream `k` for the foothold in construction (R303). -/
def State.footWalk (s : State) (t k : Nat) : Nat :=
  ((((s.seq t).foot.reverse.filterMap (fun f => (f.walk.find? (fun x => x.1 = k)).map Prod.snd)).head?).getD
    (s.wsConfirmed (t / 4) k))

/-- The level of an output of stream `k` (R302): from the level register, or the word in the waveform block, which joins
the read set; an entry outside the block is not read (R33). -/
def State.walkLevel (s : State) (t k : Nat) (o : WsOut) : State × Nat × Bool :=
  let d := t / 4
  if s.is (SITE_WS_CFG d k) SITE_WS_CFG.LSRC then
    let i := s.rdN (SITE_WS_LVLTAB d k) + 4 * o.offset
    let a := dieMem d (s.rdN (PRF_WF_BASE t) + i)
    if i + 4 ≤ s.rdN (PRF_WF_SIZE t) then (s.readSet t a 4).memGet a 4
    else (s, (Config.levelOutside i).toNat, false)
  else (s, s.rdN (SITE_WS_LVL d k o.level), false)

/-- A value staged for parameter `pm` of the units of UMASK: a later one replaces an earlier one of the same unit (R195). -/
def Foothold.stage (f : Foothold) (pm v : Nat) : Foothold :=
  let keep (x : Nat × Nat × Nat) : Nat × Nat × Nat := if x.1 = pm then (pm, x.2.1 &&& (0xFFFF ^^^ f.prog.umask), x.2.2) else x
  { f with sets := f.sets.map keep ++ [(pm, f.prog.umask, v)] }

/-- SITEW (R299 to R303). -/
def State.footWalkDraw (s : State) (t x : Nat) : State :=
  let d := t / 4
  let k := x % 4
  let r := (s.wsShort d k).wsDraw d k (s.footWalk t k)
  let o := r.1
  let s1 := (s.wsShort d k).modLast t (fun f =>
    { f with
      walk := f.walk.filter (fun y => y.1 ≠ k) ++ [(k, r.2)]
      wraps := if o.wrap && !f.wraps.contains k then f.wraps ++ [k] else f.wraps })
  let l := s1.walkLevel t k o
  let s2 := if !s.is (SITE_WS_CFG d k) SITE_WS_CFG.LVL_EN then l.1
    else if l.2.2 then l.1.modLast t (fun f => { f with err := 6, readyAt := s.now })
    else l.1.modLast t (fun f => f.stage 0 l.2.1)
  s2.footSite t (s.rdF (SITE_WS_GEOM d k) SITE_WS_GEOM.SITEBASE + o.offset) (bitOf x 14) (some (o.addr, o.data))

/-! ### Sweep entries -/

/-- A sweep entry from its 16 bytes (R165). -/
def entryOf (b : List (BitVec 8)) : SweepEntry :=
  let f (o n : Nat) : Nat := ofLeBytes ((b.drop o).take n)
  { setpt := f 0 4, cmpl := f 4 2, mode := f 6 1, win := f 7 1, dwell := f 8 3, site := f 12 2, flags := f 14 2 }

/-- An entry is invalid (R167): `rsv` is its byte 11. -/
def SweepEntry.bad (e : SweepEntry) (rsv : Nat) : Bool :=
  e.mode / 2 % 4 = 3 || bitOf e.mode 7 || rsv ≠ 0 || 64 ≤ e.flags || (16 ≤ e.win && e.win ≠ 0xFF)

/-- SWEEP (R164 to R168, R194, R210). -/
def State.footSweep (s : State) (t x : Nat) : State :=
  let r := s.readSwp t
  let i := r.2
  if s.rdN (PRF_SWP_LEN t) ≤ i then r.1.modLast t (fun f => { f with err := 4, readyAt := s.now })
  else
    let a := s.part (t / 4) 0 + 16 * (s.rdN (PRF_SWP_BASE t) + i)
    let m := (r.1.readSet t a 16).memRead a 16
    let e := entryOf m.2.bytes
    if m.2.bad then m.1.modLast t (fun f => { f with err := 6, readyAt := s.now })
    else if e.bad (ofLeBytes ((m.2.bytes.drop 11).take 1)) then m.1.modLast t (fun f => { f with err := 4, readyAt := s.now })
    else
      let s1 := m.1.modLast t (fun f =>
        { f with
          entry := some e
          prog := { f.prog with e := bitOf e.flags 0, swp := if bitOf x 0 then some ((i + 1) % 2 ^ 18) else f.prog.swp } })
      let s2 := if e.site = 0xFFFF then s1 else s1.footSite t e.site true none
      match s2.lastFoot t with
      | some f => if f.err = 0 then s2.footReady t e.dwell false else s2
      | none => s2

/-! ### Instructions -/

def execSeqNop (t : Fin 16) (s : State) : Out := .next (s.seqRow t 0x00 (fun s _ => s))

def execSeqHalt (t : Fin 16) (s : State) : Out := .next (s.seqRow t 0x01 (fun s _ => s.footReady t 0 true))

def execSeqGo (t : Fin 16) (s : State) : Out := .next (s.seqRow t 0x02 (fun s x => s.footReady t (x % 2 ^ 24) false))

def execSeqSweep (t : Fin 16) (s : State) : Out := .next (s.seqRow t 0x03 (fun s x => s.footSweep t x))

def execSeqUmask (t : Fin 16) (s : State) : Out :=
  .next (s.seqRow t 0x04 (fun s x => s.modProg t (fun g => { g with umask := x % 2 ^ 16 })))

/-- The second word of SET (R193, R195). -/
def State.footSet (s : State) (t pm : Nat) : State :=
  let pc := (s.buildProg t).pc
  let a := s.progAddr t pc
  let r := (s.readSet t a 4).memGet a 4
  if r.2.2 then r.1.modLast t (fun f => { f with err := 6, readyAt := s.now })
  else
    (r.1.modLast t (fun f => f.stage pm r.2.1)).modProg t (fun g => { g with pc := (pc + 1) % 2 ^ 14 })

def execSeqSet (t : Fin 16) (s : State) : Out := .next (s.seqRow t 0x05 (fun s x => s.footSet t (x % 16)))

def execSeqForce (t : Fin 16) (s : State) : Out :=
  .next (s.seqRow t 0x06 (fun s x => s.modLast t (fun f => { f with forces := f.forces ++ [(x % 4, f.prog.umask)] })))

def execSeqMeas (t : Fin 16) (s : State) : Out :=
  .next (s.seqRow t 0x07 (fun s x => s.modLast t (fun f => { f with meas := f.meas ++ [(x % 16, bitOf x 4, f.prog.umask)] })))

/-- RNGA (R198, R199). -/
def State.footRnga (s : State) (t x : Nat) : State :=
  let m := s.footMask t
  (s.modLast t (fun f => { f with rnga := f.rnga ++ [(m, bitsOf x 0 3, bitsOf x 3 3)] })).each (indices 16 (fun u => bitOf m u))
    (fun s u => s.readReg t (CH_MODE (16 * t + u)))

def execSeqRnga (t : Fin 16) (s : State) : Out := .next (s.seqRow t 0x08 (fun s x => s.footRnga t x))

def execSeqSite (t : Fin 16) (s : State) : Out :=
  .next (s.seqRow t 0x09 (fun s x => s.footSite t (x % 2 ^ 14) (bitOf x 14) none))

def execSeqSitew (t : Fin 16) (s : State) : Out := .next (s.seqRow t 0x0A (fun s x => s.footWalkDraw t x))

def execSeqWaitt (t : Fin 16) (s : State) : Out :=
  .next (s.seqRow t 0x0B (fun s x => s.modLast t (fun f => { f with waitt := withBit f.waitt (x % 4) })))

def execSeqWaittm (t : Fin 16) (s : State) : Out :=
  .next (s.seqRow t 0x0C (fun s x => s.modLast t (fun f => { f with waittm := some (max (f.waittm.getD 0) (x % 2 ^ 24)) })))

def execSeqFire (t : Fin 16) (s : State) : Out :=
  .next (s.seqRow t 0x0D (fun s x => s.modLast t (fun f => { f with fires := f.fires ++ [x % 512] })))

def execSeqLdc (t : Fin 16) (s : State) : Out :=
  .next (s.seqRow t 0x0E (fun s x => s.writeCnt t (bitsOf x 20 3) (x % 2 ^ 20)))

/-- ADDC (R194). -/
def State.footAddc (s : State) (t x : Nat) : State :=
  let r := s.readCnt t (bitsOf x 20 3)
  r.1.writeCnt t (bitsOf x 20 3) (unsigned 32 (r.2 + signed 20 (x % 2 ^ 20)))

def execSeqAddc (t : Fin 16) (s : State) : Out := .next (s.seqRow t 0x0F (fun s x => s.footAddc t x))

/-- LOOP (R194). -/
def State.footLoop (s : State) (t x : Nat) : State :=
  let n := bitsOf x 20 3
  let r := s.readCnt t n
  if r.2 = 0 then r.1 else (r.1.writeCnt t n (r.2 - 1)).branchIf t (r.2 - 1 ≠ 0) (x % 2 ^ 14)

def execSeqLoop (t : Fin 16) (s : State) : Out := .next (s.seqRow t 0x10 (fun s x => s.footLoop t x))

def execSeqJmp (t : Fin 16) (s : State) : Out := .next (s.seqRow t 0x11 (fun s x => s.branchIf t true x))

/-- BRZ (R194). -/
def State.footBrz (s : State) (t x : Nat) : State :=
  let r := s.readCnt t (bitsOf x 20 3)
  r.1.branchIf t (r.2 = 0) x

def execSeqBrz (t : Fin 16) (s : State) : Out := .next (s.seqRow t 0x12 (fun s x => s.footBrz t x))

def execSeqBrv (t : Fin 16) (s : State) : Out :=
  .next (s.seqRow t 0x13 (fun s x => s.branchIf t (bitOf (s.rdN (SEQ_VERD t)) (bitsOf x 22 4) = bitOf x 21) x))

def execSeqBro (t : Fin 16) (s : State) : Out :=
  .next (s.seqRow t 0x14 (fun s x => s.branchIf t (bitOf (bitsOf x 14 4) (s.rdN (SEQ_OUTCOME t) % 4)) x))

def execSeqBre (t : Fin 16) (s : State) : Out := .next (s.seqRow t 0x15 (fun s x => s.branchIf t (s.buildProg t).e x))

def execSeqCall (t : Fin 16) (s : State) : Out :=
  .next (s.seqRow t 0x16 (fun s x => s.modProg t (fun g => { g with stack := g.pc :: g.stack, pc := x % 2 ^ 14 })))

def execSeqRet (t : Fin 16) (s : State) : Out :=
  .next (s.seqRow t 0x17 (fun s _ => s.modProg t (fun g => { g with pc := g.stack.headD 0, stack := g.stack.drop 1 })))

/-- A barrier is passed, the PC already behind it: a HOST barrier has been reached and consumes CONT (R207, R212), but for one written
anew in this cycle (R9). -/
def State.passBarrier (s : State) (t x : Nat) : State :=
  if bitOf x 1 then
    ((s.hostArrive t (((s.buildProg t).pc + 2 ^ 14 - 1) % 2 ^ 14)).modSeq t (fun q => { q with told := none })).flag (SEQ_CTRL t)
      SEQ_CTRL.CONT (s.askedAgain (SEQ_CTRL t) SEQ_CTRL.CONT)
  else s

def execSeqBarrier (t : Fin 16) (s : State) : Out := .next (s.seqRow t 0x18 (fun s x => s.passBarrier t x))

def execSeqLds (t : Fin 16) (s : State) : Out :=
  .next (s.seqRow t 0x19 (fun s x => s.modProg t (fun g => { g with swp := some (x % 2 ^ 18) })))

/-! ### Start, stop, abort, continue -/

/-- START (R207): the region without an image has no program to start (R384). DESIGN CHOICE: in a thermal shutdown, where sequencers
and players stop (R404), START is ignored with START_IGN. -/
def State.seqStart (s : State) (t : Nat) : State :=
  if s.seqRunning t then s.flag (SEQ_STAT t) SEQ_STAT.START_IGN true
  else if s.nightlight t || s.is TMP_SHUT TMP_SHUT.SHUT then s.flag (SEQ_STAT t) SEQ_STAT.START_IGN true
  else if s.restarting t then s
  else
    let s1 := ((s.wr (SEQ_STAT t) (setFld (setFld (s.rd (SEQ_STAT t)) SEQ_STAT.RUNNING 1) SEQ_STAT.QP 0)).wr (SEQ_STACK t)
      0#32).wr (SEQ_STEPNUM t) 0#32
    (s1.modSeq t (fun q =>
      { q with stack := [], foot := [], conf := none, hold := false, stopReq := false, forceStop := false, siteFault := false,
               late := [], gone := [], told := none, epoch := q.epoch + 1, verdOpen := 0,
               buildAt := some (s.rdN (SEQ_START_PC t) % 2 ^ 14), closeSeq := s.seqTime t, closedAt := s.now })).seqLook t

/-- STOP (R207): no squash is counted. -/
def State.seqStopReq (s : State) (t : Nat) : State :=
  if !s.seqRunning t then s
  else if (s.seq t).conf = none then s.seqStop t
  else ((s.tapsEnd t).modSeq t (fun q => { q with foot := [], stopReq := true })).refreshSeq t

/-- An abort, by the register or by an event of lineage `lin` (R205, R211). -/
def State.seqAbort (s : State) (t lin : Nat) : State :=
  if !s.seqRunning t then s
  else
    let s1 := s.seqCause t (.abort lin)
    if (s.seq t).conf = none && !s.commitDecided t then s1.nonClean t 2 false else s1

/-- CONT stays pending until a HOST barrier consumes it, and ends the wait for it (R207, R214). -/
def State.seqCont (s : State) (t : Nat) : State := (s.flag (SEQ_CTRL t) SEQ_CTRL.CONT true).refreshSeq t

/-- A write of SEQ_CTRL (R214). -/
def State.writeSeqCtrl (s : State) (t : Nat) (v : Word) : State :=
  let n := v.toNat
  let s1 := if bitOf n 3 then s.seqAbort t 0 else s
  let s2 := if bitOf n 2 then s1.seqStopReq t else s1
  let s3 := if bitOf n 4 then s2.seqCont t else s2
  if bitOf n 0 then s3.seqStart t else s3

def execSeqStart (f : Fin 8) (t : Fin 16) (s : State) : Out :=
  .next (s.hostWrite f (SEQ_CTRL t) 1#32 (fun s => s.writeSeqCtrl t 1#32))

def execSeqStopReq (f : Fin 8) (t : Fin 16) (s : State) : Out :=
  .next (s.hostWrite f (SEQ_CTRL t) 4#32 (fun s => s.writeSeqCtrl t 4#32))

def execSeqAbort (f : Fin 8) (t : Fin 16) (s : State) : Out :=
  .next (s.hostWrite f (SEQ_CTRL t) 8#32 (fun s => s.writeSeqCtrl t 8#32))

def execCont (f : Fin 8) (t : Fin 16) (s : State) : Out :=
  .next (s.hostWrite f (SEQ_CTRL t) 16#32 (fun s => s.writeSeqCtrl t 16#32))

/-! ### Range look-ahead -/

/-- TAP_READING (R199, R200, R243): a reading of `mag` in 2^−32 A completes, for a unit on which the first foothold looks ahead. One with
a conversion in a SUSPECT interval is discarded. A rotation tick that it held back starts its handover now. -/
def State.tapReading (s : State) (p mag : Nat) : State :=
  let t := p / 16
  let k := p / 4
  match (s.seq t).foot with
  | [] => s
  | f :: rest =>
    if s.tapServed f p then
      let s1 := if s.tapSuspect k then s
        else s.modSeq t (fun q => { q with foot := { f with taps := keepTaps s.now p f.taps ++ [{ unit := p, mag := mag, at' := s.now }] } :: rest })
      let s2 := s1.modCluster k (fun c => c.dither [8] 4)
      if (s2.cluster k).tickWait then s2.handoverStart k else s2
    else s

def execTapReading (p : Fin 256) (mag : Nat) (s : State) : Out := .next (s.tapReading p mag)

/-- UP or DN times the full scale of range `r`, over 10^9 · 2^15, against a magnitude in 2^−32 A (R199). -/
def rngBound (f r : Nat) : Nat := f * 10 ^ r * 2 ^ 32

/-- A magnitude on the scale of `rngBound`. -/
def rngMag (m : Nat) : Nat := m * 10 ^ 9 * 2 ^ 15

/-- The range that a reading of magnitude `m` chooses instead of `r` (R199). -/
def State.chooseRange (s : State) (t r lo hi m : Nat) : Nat :=
  let up := s.rdF (SEQ_RNGLA t) SEQ_RNGLA.UP
  let dn := s.rdF (SEQ_RNGLA t) SEQ_RNGLA.DN
  if lo ≤ r && r ≤ hi && rngBound dn r ≤ rngMag m && rngMag m ≤ rngBound up r then r
  else ((indices (hi + 1) (fun x => lo ≤ x && rngMag m ≤ rngBound up x)).head?).getD hi

/-! ### Commit -/

/-- A unit that a step addresses for staged values: in the mask, and no gang follower (R195). -/
def State.addressed (s : State) (p mask : Nat) : Bool := bitOf mask (p % 16) && !s.follower p

/-- The CH_MODE value that commits on unit `p` at the present boundary, look-ahead included, and whether a reading was missing: the
latest reading completed before the decision point counts (R199, R200). -/
def State.commitMode (s : State) (f : Foothold) (p : Nat) : Option Nat × Bool :=
  let m := s.stepMode f p
  let x := m.getD (s.rdN (CH_MODE p))
  match s.lookAhead f p with
  | none => (m, false)
  | some (lo, hi) =>
    let r := x / 16 % 8
    let c := match (f.taps.filter (fun y => y.unit = p && y.at' + leadTicks ≤ s.now)).getLast? with
      | some y => (s.chooseRange (p / 16) r lo hi y.mag, false)
      | none => (max lo (min hi r), true)
    (some (x % 16 + 16 * c.1), c.2)

/-- FORCE 2 (R76, R194): OUT_REQ clears and the switch opens by the immediate path. -/
def State.forceOpen (s : State) (p : Nat) : State :=
  if (s.unit p).swCmd || (s.unit p).swReq ≠ none then
    (s.each (s.members p) (fun s q => s.flag (CH_CTRL q) CH_CTRL.OUT_REQ false)).openNow p
  else s

/-- The FORCE actions of a step (R203 item 3). -/
def State.commitForces (s : State) (t : Nat) (f : Foothold) : State :=
  s.each f.forces (fun s x =>
    s.each ((unitsOf t).filter (fun p => s.addressed p x.2 && !s.isBoost p)) (fun s p =>
      match x.1 with
      | 0 => s.unlessHost (CH_CTRL p) (fun s => s.outReqClear p)
      | 1 => s.unlessHost (CH_CTRL p) (fun s => s.outReqSet p)
      | _ => s.forceOpen p))

/-- The CH_MODE values of a step, at the present boundary (R203 item 4, R91). -/
def State.commitModes (s : State) (t : Nat) (f : Foothold) : State :=
  s.each ((unitsOf t).filter (fun p => !s.follower p)) (fun s p =>
    let c := s.commitMode f p
    let s1 := if c.2 then s.flag (SEQ_STAT t) SEQ_STAT.RNGLA_MISS true else s
    match c.1 with
    | some v => s1.unlessHost (CH_MODE p) (fun s => s.applyMode p v)
    | none => s1)

/-- CH_SETPT of a committing step (R152, R166): it reaches the generator at this boundary, or after the rescaling of a range
change that begins here. -/
def State.commitSetpt (s : State) (p v : Nat) : State :=
  if s.follower p then s
  else s.unlessHost (CH_SETPT p) (fun s => s.putSetptAt p (if (s.unit p).rngHold then s.now else s.now - leadTicks) (w32 v))

/-- One parameter of the SET values of a step, but those that its entry overrides (R195, R203 item 5). -/
def State.commitSet (s : State) (t : Nat) (f : Foothold) (pm : Nat) : State :=
  s.each ((unitsOf t).filter (fun p => !s.follower p)) (fun s p =>
    let given := match f.entryFor p with
      | some e => (pm = 0 && !bitOf e.flags 4) || (pm = 1 && !bitOf e.flags 1)
      | none => false
    match f.staged p pm with
    | none => s
    | some v =>
      if given then s
      else
        match pm with
        | 0 => s.commitSetpt p v
        | 1 => s.unlessHost (CH_CMPL p) (fun s => s.cmplWrite p (w32 (v % 2 ^ 16)))
        | 3 => s.unlessHost (ENG_MANUAL p) (fun s => s.manualWrite p (w32 (v % 2 ^ 20)))
        | 4 => s.unlessHost (ENG_UCTRL p) (fun s => s.autoWrite p (bitOf v 0))
        | _ => s.unlessHost (CH_NCO_AMP p) (fun s => s.putAmp p v))

/-- The fields of a sweep entry (R166, R203 item 6). -/
def State.commitEntry (s : State) (t lin : Nat) (f : Foothold) : State :=
  match f.entry with
  | none => s
  | some e =>
    let s1 := s.each ((unitsOf t).filter (fun p => s.addressed p f.prog.umask)) (fun s p =>
      let s1 := if bitOf e.flags 1 then s else s.unlessHost (CH_CMPL p) (fun s => s.cmplWrite p (w32 e.cmpl))
      if bitOf e.flags 4 then s1 else s1.commitSetpt p e.setpt)
    if bitOf e.flags 2 then s1.emitCaused (t / 4) (regionProd t evSweepStep) s.now lin else s1

/-- The site of a step and the walker positions it confirms (R203 item 7, R303). -/
def State.commitSite (s : State) (t : Nat) (f : Foothold) : State :=
  let s1 := match f.site with
    | some x => s.siteCommit t f.prog.umask x
    | none => s
  s1.each f.walk (fun s x => s.wsConfirm (t / 4) x.1 x.2 (f.wraps.contains x.1))

/-- The windows of a step (R203 item 8); RAW of its entry makes every record of the step RAW (R166). -/
def State.commitWindows (s : State) (t n : Nat) (f : Foothold) : State :=
  let raw := (f.entry.map (fun e => bitOf e.flags 5)).getD false
  let s1 := s.each f.meas (fun s m => s.openWindow t m.1 m.2.2 s.now n (m.2.1 || raw))
  match f.entry with
  | some e => if e.win = 0xFF then s1 else s1.openWindow t e.win f.prog.umask s.now n raw
  | none => s1

/-- The FIRE channels of a step (R203 item 9): without effect on a channel that the region's owner does not own. DESIGN CHOICE: a FIRE
that R329 stops shows as the producer SEQ_COMMIT of its region in EVT_LOOP_LAST, for a FIRE has no number of its own. -/
def State.commitFires (s : State) (t lin : Nat) (f : Foothold) : State :=
  s.each f.fires (fun s n =>
    if s.rdF (EVT_CH (t / 4) n) ⟨12, 3⟩ = s.ownerOf t then
      (if lin < 8 then s.fire (t / 4) n (s.now + 3) lin else s.eventLoop (t / 4) (regionProd t evSeqCommit))
    else s.flag (SEQ_STAT t) SEQ_STAT.FIRE_REF true)

/-- The program state of a committing step becomes the confirmed one (R197, R203 item 1). -/
def State.commitProg (s : State) (t : Nat) (g : ProgState) : State :=
  let s1 := s.each g.cnt (fun s x => s.unlessHost (SEQ_CNT t x.1) (fun s => s.wrN (SEQ_CNT t x.1) x.2))
  let s2 := match g.swp with
    | some v => s1.unlessHost (SEQ_SWP t) (fun s => s.wrN (SEQ_SWP t) v)
    | none => s1
  let s3 := ((s2.wrN (SEQ_PC t) g.pc).wrN (SEQ_UMASK t) g.umask).wrN (SEQ_STACK t) g.stack.length
  let s4 := match g.site with
    | some i => s3.wrN (SEQ_SITE t) (i % 2 ^ 14 + 2 ^ 15)
    | none => s3
  s4.modSeq t (fun q => { q with stack := g.stack, e := g.e, buildAt := none, told := none })

/-- The lineage that a commit takes from the trigger slots it consumes (R329), and the slots cleared (R208). -/
def State.consumeSlots (s : State) (t : Nat) (l : List Nat) : State × Nat :=
  l.foldl (fun r n =>
    let i := 0x100 * (t % 4) + n
    let a := EVT_IN_STAT (t / 4) i
    (r.1.flag a EVT_IN_STAT.PEND false, max r.2 (s.causedLin (t / 4) i (s.rdF a EVT_IN_STAT.LIN)))) (s, 0)

/-- The fault source of an error met by a foothold, raised at its commit (R210). -/
def State.raiseSeqErr (s : State) (t : Nat) (e : SeqErr) : State :=
  match e with
  | 1 => s.raiseRegion .seqIllegal t
  | 2 => s.raiseRegion .seqStack t
  | 3 => s.raiseRegion .seqRunaway t
  | 4 => s.raiseRegion .sweepEntryBad t
  | _ => s

/-- The commit of a step in error, the foothold `f` (R208, R210): a number, its trigger slots consumed, none of its values, and a close
with outcome FAULT. -/
def State.commitErr (s : State) (t n : Nat) (f : Foothold) : State :=
  let c := (((s.tapsEnd t).wrN (SEQ_STEPNUM t) ((n + 1) % 2 ^ 32)).modSeq t (fun q => { q with foot := [] })).consumeSlots t f.slots
  let s2 := ((c.1.emitCaused (t / 4) (regionProd t evSeqCommit) s.now c.2).raiseSeqErr t f.err).closeVerdict t n
  if s2.seqRunning t then s2.nonClean t 3 true else s2

/-- The stop that a HALT step's commit makes, with its close at the same boundary (R201, R207). -/
def State.haltStep (s : State) (t n : Nat) : State :=
  let s1 := s.each (indices 16 (fun w => (s.winUnits t w n).any (fun p =>
      (s.unit p).mea.wins.any (fun v => v.win = w && v.len = 0)))) (fun s w => s.closeWindow t w s.now (s.winUnits t w n) false)
  (((s1.closeVerdict t n).wrN (SEQ_OUTCOME t) 4).modSeq t (fun q => { q with closeSeq := s.seqTime t, closedAt := s.now })).seqStop t

/-- The set-point of the entry of a committing step first acts one period after its boundary: MODE changes a range of a unit that the
entry gives a set-point (R166). DESIGN CHOICE: one such unit decides for the step. -/
def State.setptLater (s : State) (t : Nat) (f : Foothold) : Bool :=
  (unitsOf t).any (fun p => s.addressed p f.prog.umask && (s.unit p).rngHold && (s.unit p).rngAt = s.now &&
    ((f.entryFor p).map (fun e => !bitOf e.flags 4)).getD false)

/-- The commit of a ready step at the present boundary (R203); causes that came after its decision point apply to it then (R206). -/
def State.commitStep (s0 : State) (t : Nat) (f : Foothold) : State :=
  let s := s0.tapsEnd t
  let n := s.stepKey t
  let s1 := ((s.modSeq t (fun q => { q with foot := q.foot.drop 1 })).wrN (SEQ_STEPNUM t) ((n + 1) % 2 ^ 32)).commitProg t
    f.prog
  let c := s1.consumeSlots t f.slots
  let s2 := (c.1.commitForces t f).commitModes t f
  let s3 := [1, 0, 5, 4, 3].foldl (fun s pm => s.commitSet t f pm) s2
  let s4 := (((s3.commitEntry t c.2 f).commitSite t f).commitWindows t n f).commitFires t c.2 f
  let s5 := s4.emitCaused (t / 4) (regionProd t evSeqCommit) s.now c.2
  if f.halt then s5.haltStep t n
  else
    (((s5.modSeq t (fun q =>
      { q with conf := some { at' := s.now, seqAt := s.seqTime t + (if s3.setptLater t f then s.period t else 0),
                              dwell := if f.dwell = 0 then s.period t else usTicks * f.dwell, umask := f.prog.umask,
                              num := n } })).lateCauses t).seqLook t).refreshSeq t

/-- STEP_COMMIT (R202, R203, R210): at the first boundary whose decision point finds every condition met; a step in error commits under
the same gates. -/
def State.stepCommit (s : State) (t : Nat) : State :=
  let s := s.seqLook t
  match (s.seq t).conf, (s.seq t).foot with
  | none, f :: _ =>
    if !s.seqRunning t then s
    else if !s.commitReady t f then s.refreshSeq t
    else
      let s1 := s.advance (s.commitAt t f)
      if f.err ≠ 0 then s1.commitErr t (s.stepKey t) f else s1.commitStep t f
  | _, _ => s

def execStepCommit (t : Fin 16) (s : State) : Out := .next (s.stepCommit t)

/-! ### Close -/

/-- Windows of the step numbered `n` that are open. -/
def State.stepWindows (s : State) (t n : Nat) : List Nat :=
  indices 16 (fun w => (unitsOf t).any (fun p => (s.unit p).mea.wins.any (fun v => v.win = w && v.step = n)))

/-- The windows of the confirmed step `c` close with it at boundary `b` and its verdict forms (R201, R226, R227). -/
def State.closeAt (s : State) (t b : Nat) (c : ConfStep) : State :=
  let s1 := s.advance (b - leadTicks)
  (((s1.stepWindows t c.num).foldl (fun s w => s.closeWindow t w b (s.winUnits t w c.num) (c.closing ≠ none)) s1).advance b).closeVerdict
    t c.num

/-- STEP_CLOSE (R201, R204, R226, R227). -/
def State.stepClose (s : State) (t : Nat) : State :=
  match (s.seq t).conf with
  | none => s
  | some c =>
    if c.closing = none && (s.windowPending t c.num || s.dwellStalled t c) then s
    else
      let b := s.closeBoundary t c
      let o := match c.closing with
        | some (o, _) => o
        | none => if c.cmpl then 1 else 0
      let s3 := s.closeAt t b c
      if (s.seq t).siteFault then s3.nonClean t 3 true
      else if o ≠ 0 then s3.nonClean t o true
      else
        let stop := (s.seq t).stopReq || (s.seq t).forceStop
        let s4 := (s3.wrN (SEQ_OUTCOME t) 4).modSeq t (fun q =>
          { q with conf := none, hold := false, closeSeq := s3.seqTime t, closedAt := b })
        if stop then s4.seqStop t else ((s4.seqLook t).hostReached t).refreshSeq t

def execStepClose (t : Fin 16) (s : State) : Out := .next (s.stepClose t)

/-- A COMPLIANCE event of unit `p` (R205): every foothold is squashed; a unit of the confirmed UMASK holds building until
the close. -/
def State.seqCompliance (s : State) (p : Nat) : State := s.seqCause (p / 16) (.cmpl p)

end Sys2Proof.Machine
end

