-- ==== Sys2Proof/Machine/EventRows.lean ====
section
/-! DEFINITION. The event fabric (10_event_fabric.md): routing on a die (R321, R327), consumer inputs (R319, R328), levels
and gates (R317, R324), package and system channels (R322, R323), software fires (R325, R326), EVIO pins (R332). -/

namespace Sys2Proof.Machine

/-! ### Levels -/

/-- The level of producer `k` of unit `p` (R317); none for a pulse. -/
def State.unitLevel (s : State) (p k : Nat) : Option Bool :=
  let st (f : Fld) : Bool := s.is (CH_STAT p) f
  match k with
  | 0x00 => some (st CH_STAT.IN_CMPL)
  | 0x01 => some (!st CH_STAT.IN_CMPL)
  | 0x02 => some (st CH_STAT.CLAMP)
  | 0x03 => some (st CH_STAT.OPEN_LOAD)
  | 0x04 => some (!st CH_STAT.RNG_BUSY)
  | 0x06 => some (st CH_STAT.OUT_CLOSED)
  | 0x07 => some (!st CH_STAT.OUT_CLOSED)
  | 0x08 => some (s.is (ENG_USTAT p) ENG_USTAT.LOF_RAMP || s.is (ENG_USTAT p) ENG_USTAT.BELAY)
  | 0x09 => some (s.is (ENG_USTAT p) ENG_USTAT.BELAY)
  | 0x0A => some (s.is (MEA_U_STAT p) MEA_U_STAT.OVR_V || s.is (MEA_U_STAT p) MEA_U_STAT.OVR_I)
  | _ => none

/-- The level of producer `k` of region `t` (R317); none for a pulse. -/
def State.regionLevel (s : State) (t k : Nat) : Option Bool :=
  match k with
  | 0x06 => some (!s.playing t)
  | 0x07 => some (s.is (PRF_STAT t) PRF_STAT.HOLDING || s.is (PRF_STAT t) PRF_STAT.STALLED)
  | 0x0A => some (!s.seqRunning t)
  | 0x0B => some (s.is (SEQ_STAT t) SEQ_STAT.WAIT_HOST)
  | _ => none

/-- EVIO input `k` of die `d` after inversion (R317). -/
def State.evioIn (s : State) (d k : Nat) : Bool :=
  s.is (EVT_EVIO d k) EVT_EVIO.PIN != s.is (EVT_EVIO d k) EVT_EVIO.INV

/-- A firing of channel `n` of die `d` routes at tick `c`. -/
def State.routesAt (s : State) (d n c : Nat) : Bool :=
  (s.die d).fires.any (fun x => x.ch = n && x.tick = c) || mapGet 0 n (s.die d).routed = c + 1

/-- VALUE of event counter `m` of die `d` at tick `c`: in the tick in which it matched, AUTO_CLR has not subtracted CMP yet (R328). -/
def State.cntAt (s : State) (d m c : Nat) : Nat :=
  let x : Nat × Nat × Nat := mapGet (0, 0, 0) m (s.die d).cntMatch
  if x.1 = c + 1 then x.2.1 else (s.asOf c).rdN (EVT_CNT_VALUE d m)

/-- Producer number `prod` of a die is one that R316 and R317 name: a channel with a reserved one has no producer. -/
def prodNamed (prod : Nat) : Bool :=
  if prod < 0xC00 then
    let o := prod % 0x300
    if o < 0x200 then o % 0x20 ≤ 0x0C else if o < 0x240 then o % 0x10 < 3 else o - 0x240 ≤ 0x11
  else
    prod < 0xC08 || prod = 0xC10 || prod = 0xC11 || (0xC14 ≤ prod && prod < 0xC18) || (0xC20 ≤ prod && prod < 0xC50) ||
      (0xD00 ≤ prod && prod < 0xE40)

/-- A channel of one of the three scopes (R315): of a die, of the package, of the system. -/
inductive ChanRef where
  | die (d n : Nat)
  | pkg (n : Nat)
  | sys (j : Nat)
  deriving DecidableEq, Repr

/-- A transfer of package channel `n` routes in the hub at tick `c`. -/
def State.pkgRoutesAt (s : State) (n c : Nat) : Bool :=
  s.hub.pkg.any (fun x => x.ch = n && x.tick = c) || mapGet 0 n s.hub.routed = c + 1

/-- A transfer of system channel `j` is delivered here at tick `c`. -/
def State.sysActsAt (s : State) (j c : Nat) : Bool :=
  s.hub.sys.any (fun x => x.ch = j && x.due = c) || mapGet 0 (256 + j) s.hub.routed = c + 1

/-- The level of a channel at tick `c` (R317, R324), through at most `fuel` channels: that of its producer, for a die channel with its
software level. The producer of a die channel is taken as its edge was registered three ticks before (R321). A hub producer, and a
system channel of another package, are pulses here. -/
def State.chanLevel (s : State) (c : Nat) : Nat → ChanRef → Bool
  | 0, _ => false
  | fuel + 1, .die d n =>
    let prod := s.rdF (EVT_CH d n) EVT_CH.SRC
    let x := s.asOf (c - 3)
    let pulse := prodNamed prod && s.routesAt d n c
    let own : Bool :=
      if prod < 0xC00 then
        let t := 4 * d + prod / 0x300
        let o := prod % 0x300
        if o < 0x200 then (x.unitLevel (16 * t + o / 0x20) (o % 0x20)).getD pulse
        else if 0x240 ≤ o then (x.regionLevel t (o - 0x240)).getD pulse
        else pulse
      else if prod < 0xC08 then x.evioIn d (prod - 0xC00)
      else if 0xC40 ≤ prod && prod < 0xC50 then
        x.rdN (EVT_CNT_CMP d (prod - 0xC40)) ≤ s.cntAt d (prod - 0xC40) (c - 3)
      else if 0xD00 ≤ prod && prod < 0xE00 then State.chanLevel s (c - 3) fuel (.pkg (prod - 0xD00))
      else if 0xE00 ≤ prod && prod < 0xE40 then State.chanLevel s (c - 3) fuel (.sys (prod - 0xE00))
      else pulse
    (s.asOf c).bit (EVT_SLVL d (n / 32)) (n % 32) || own
  | fuel + 1, .pkg n =>
    let a := EVT_PCH n
    match s.rdF a ⟨0, 2⟩ with
    | 0 => State.chanLevel s c fuel (.die (s.rdF a EVT_PCH.DIE) (s.rdF a EVT_PCH.INDEX))
    | 1 => s.pkgRoutesAt n c
    | 2 => State.chanLevel s c fuel (.sys (s.rdF a EVT_PCH.INDEX))
    | _ => false
  | fuel + 1, .sys j =>
    if s.is (EVT_SCH j) EVT_SCH.VALID && s.rdF (EVT_SCH j) ⟨0, 4⟩ = s.pkgNum then
      State.chanLevel s c fuel (.pkg (s.rdF (EVT_SCH j) ⟨4, 8⟩))
    else s.sysActsAt j c

/-- More channels than the package has, so that no chain of imports is longer (R331). -/
def chanFuel : Nat := 2400

/-- The level of a die channel now: what EVT_LVL shows and what a gate sees (R324). -/
def State.level (s : State) (d n : Nat) : Bool := s.chanLevel s.now chanFuel (.die d n)

/-- The level at tick `c` of the channel that selector `sel` selects on die `d` (R320). -/
def State.selLevel (s : State) (d sel c : Nat) : Bool :=
  if sel < 512 then s.chanLevel c chanFuel (.die d sel)
  else if sel < 768 then s.chanLevel c chanFuel (.pkg (sel - 512))
  else if sel < 832 then s.chanLevel c chanFuel (.sys (sel - 768))
  else false

/-- A word of levels of the channels 32·k to 32·k + 31 (R336). -/
def State.levelWord (s : State) (d k : Nat) : Nat :=
  (List.range 32).foldl (fun m j => if s.level d (32 * k + j) then m + 2 ^ j else m) 0

/-! ### Consumers -/

/-- The region of consumer input `i` of die `d`, for an input of a region (R319). -/
def inputRegion (d i : Nat) : Option Nat := if i < 0x400 then some (4 * d + i / 0x100) else none

/-- The gate of input `i` blocks an event now (R324). -/
def State.gateBlocks (s : State) (d i : Nat) : Bool :=
  let a := EVT_IN_CFG d i
  let period := i < 0x400 && 0x10 ≤ i % 0x100 && i % 0x100 < 0x20
  !period && s.is a EVT_IN_CFG.GATE_EN && (s.level d (s.rdF a EVT_IN_CFG.GATE) == s.is a EVT_IN_CFG.GINV)

/-- TAKEN of input `i`, with the lineage (R328, R337). -/
def State.taken (s : State) (d i n lin : Nat) : State :=
  (s.bump (EVT_IN_TAKEN d i) n).wrF (EVT_IN_STAT d i) EVT_IN_STAT.LIN lin

/-- OVF of input `i` (R328). -/
def State.overflow (s : State) (d i n : Nat) : State := if n = 0 then s else s.bump (EVT_IN_OVF d i) n

/-- The task slot of input `i` empties. -/
def State.freeSlot (s : State) (d i : Nat) : State := s.flag (EVT_IN_STAT d i) EVT_IN_STAT.PEND false

/-- VALUE of event counter `m` of die `d` becomes `v` in this tick (R328): where it first reaches or passes CMP, CNT_MATCH follows in the
next tick with lineage `lin`, and AUTO_CLR subtracts CMP. -/
def State.cntValue (s : State) (d m v lin : Nat) : State :=
  let cmp := s.rdN (EVT_CNT_CMP d m)
  if cmp ≤ v && !bitOf (s.die d).cntOver m then
    let v' := if s.is (EVT_CNT_CTRL d m) EVT_CNT_CTRL.AUTO_CLR then v - cmp else v
    ((s.wrN (EVT_CNT_VALUE d m) v').modDie d (fun y =>
      { y with
        cntOver := if cmp ≤ v' then withBit y.cntOver m else y.cntOver
        cntLin := mapDel m y.cntLin
        cntMatch := mapPut (0, 0, 0) m (s.now + 1, v, lin) y.cntMatch })).emitCaused d (0xC40 + m) (s.now + 1) lin
  else
    (s.wrN (EVT_CNT_VALUE d m) v).modDie d (fun y =>
      { y with cntOver := if cmp ≤ v then y.cntOver else withoutBit y.cntOver m })

/-- The weight that event counter `m` of die `d` has counted in this tick, and its lineage. -/
def State.countedNow (s : State) (d m : Nat) : Nat × Nat :=
  let x : Nat × Nat × Nat := mapGet (0, 0, 0) m (s.die d).counted
  if x.1 = s.now then x.2 else (0, 0)

/-- Event counter `m` of die `d` adds `w` (R328); a match it makes carries the greatest lineage counted for it (R329). A host write of VALUE
in the same PCLK cycle stays (R9). -/
def State.countEvent (s : State) (d m w lin : Nat) : State :=
  let x := s.countedNow d m
  let l := max lin (mapGet 0 m (s.die d).cntLin)
  let s1 := s.modDie d (fun y =>
    { y with
      counted := mapPut (0, 0, 0) m (s.now, x.1 + w, max lin x.2) y.counted
      cntLin := mapPut 0 m l y.cntLin })
  s1.unlessHost (EVT_CNT_VALUE d m) (fun s => s.cntValue d m ((s.cntAt d m s.now + w) % 2 ^ 32) (s.causedLin d (0x410 + m) l))

/-- The match that event counter `m` of die `d` made in this tick has not happened: a clear of the same tick acts before the count
(R328). -/
def State.unmatch (s : State) (d m : Nat) : State :=
  let x : Nat × Nat × Nat := mapGet (0, 0, 0) m (s.die d).cntMatch
  if x.1 = s.now + 1 then
    (s.each (s.channelsOf d (0xC40 + m)) (fun s n => s.modDie d (fun y =>
      { y with fires := y.fires.erase { ch := n, tick := s.now + 4, lin := x.2.2, weight := 1 } }))).modDie d (fun y =>
        { y with cntMatch := mapDel m y.cntMatch })
  else s

/-- The clear input of event counter `m` of die `d` (R328): the count of the same tick comes after it. -/
def State.cntClear (s : State) (d m : Nat) : State :=
  let x := s.countedNow d m
  let s1 := (s.unmatch d m).modDie d (fun y => { y with cntLin := if x.1 = 0 then mapDel m y.cntLin else mapPut 0 m x.2 y.cntLin })
  s1.unlessHost (EVT_CNT_VALUE d m) (fun s =>
    if x.1 = 0 then
      (s.wrN (EVT_CNT_VALUE d m) 0).modDie d (fun y =>
        { y with cntOver := if s.rdN (EVT_CNT_CMP d m) = 0 then y.cntOver else withoutBit y.cntOver m })
    else
      (s.modDie d (fun y => { y with cntOver := withoutBit y.cntOver m })).cntValue d m x.1 (s.causedLin d (0x410 + m) x.2))

/-- A task input's owner acts on the slot just set (R319, R328). -/
def State.taskAct (s : State) (d i lin : Nat) : State :=
  if i < 0x400 then
    let t := 4 * d + i / 0x100
    let l := s.causedLin d i lin
    match i % 0x100 with
    | 0x04 => (s.freeSlot d i).seqAbort t l
    | 0x08 =>
      let x := s.wfTrigger t lin
      if x.2 then x.1.freeSlot d i else x.1
    | 0x09 => (s.freeSlot d i).wfJump t l
    | 0x0A => (s.freeSlot d i).wfAbort t
    | n => (if n < 4 then s.modSeq t (fun q => { q with gateAt := mapPut 0 n s.now q.gateAt }) else s).refreshSeq t
  else if 0x420 ≤ i && i < 0x430 then (s.freeSlot d i).cntClear d (i - 0x420)
  else s.freeSlot d i

/-- EVIO output `k` of die `d` takes an event of weight `w` (R328, R332). -/
def State.evioPulse (s : State) (d k w lin : Nat) : State :=
  let i := 0x400 + k
  let a := EVT_EVIO d k
  if s.is a EVT_EVIO.LVL || !s.is a EVT_EVIO.DIR then s
  else if s.is (EVT_IN_STAT d i) EVT_IN_STAT.PEND then s.overflow d i w
  else
    (((s.taken d i 1 lin).overflow d i (w - 1)).flag (EVT_IN_STAT d i) EVT_IN_STAT.PEND true).modDie d
      (fun y => { y with pulses := y.pulses ++ [(k, s.now + 1, s.now + 1 + max 1 (s.rdF a EVT_EVIO.PW))] })

/-- Timestamp capture `m` of die `d` (R328). -/
def State.capture (s : State) (d m w lin : Nat) : State :=
  let i := 0x430 + m
  let s1 := if bitOf (s.die d).capUnread m then s.overflow d i 1 else s
  (((s1.taken d i w lin).wr64 (EVT_CAP_LO d m) (s.dieTs d s.now)).bump (EVT_CAP_COUNT d m) w).modDie d (fun y =>
    { y with capUnread := withBit y.capUnread m })

/-- An event of weight `w` and lineage `lin` reaches consumer input `i` of die `d` now (R324, R328, R333). -/
def State.consume (s : State) (d w lin i : Nat) : State :=
  let restarting := match inputRegion d i with
    | some t => s.restarting t
    | none => false
  if s.gateBlocks d i then s.bumpSat (EVT_IN_STAT d i) EVT_IN_STAT.BLK 1
  else if restarting then s.overflow d i w
  else if i < 0x400 && 0x10 ≤ i % 0x100 && i % 0x100 < 0x20 then
    (s.taken d i w lin).modUnit (64 * d + 16 * (i / 0x100) + i % 0x10) (fun u => { u with eng := { u.eng with rcReset := true } })
  else if 0x400 ≤ i && i < 0x408 then s.evioPulse d (i - 0x400) w lin
  else if 0x410 ≤ i && i < 0x420 then (s.taken d i w lin).countEvent d (i - 0x410) w lin
  else if 0x430 ≤ i && i < 0x438 then s.capture d (i - 0x430) w lin
  else if i < 0x438 then
    if s.is (EVT_IN_STAT d i) EVT_IN_STAT.PEND then s.overflow d i w
    else
      (((s.taken d i 1 lin).overflow d i (w - 1)).flag (EVT_IN_STAT d i) EVT_IN_STAT.PEND true).taskAct d i lin
  else s

/-- The consumer inputs of die `d` whose selector is `sel` (R318, R320): clear inputs of counters before the others (R328). -/
def State.inputsOf (s : State) (d sel : Nat) : List Nat :=
  let listed := s.regs.filterMap (fun r =>
    if EVT_IN_CFG d 0 ≤ r.1 && r.1 < EVT_IN_CFG d 2048 && (r.1 - EVT_IN_CFG d 0) % 16 = 0 && getFld r.2 EVT_IN_CFG.SEL = sel
    then some ((r.1 - EVT_IN_CFG d 0) / 16) else none)
  let plain := listed.filter (fun i => !(i < 0x400 && 0x10 ≤ i % 0x100 && i % 0x100 < 0x20))
  let periods := ((List.range 64).filter (fun u => s.rdF (ENG_RC_CFG (64 * d + u)) ENG_RC_CFG.SRC_CH = sel)).map (fun u =>
    0x100 * (u / 16) + 0x10 + u % 16)
  plain.filter (fun i => 0x420 ≤ i && i < 0x430) ++ plain.filter (fun i => !(0x420 ≤ i && i < 0x430)) ++
    (if sel < 512 then periods else [])

/-- An event reaches every consumer of selector `sel` on die `d` now. -/
def State.consumers (s : State) (d sel w lin : Nat) : State := s.each (s.inputsOf d sel) (fun s i => s.consume d w lin i)

/-! ### Package channels -/

/-- The key of a hop of the package channel `n` (R322): `h` 0 to 3 from die to hub, 4 to 7 from hub to die; of system channel
`n − 256`: 8 UP, 9 DOWN. -/
def hopKey (n h : Nat) : Nat := 64 * n + h

/-- What a transfer does when it leaves hop `h`: ticks until it arrives, and until its credit returns (R322). -/
def hopTicks (h : Nat) : Nat × Nat := if h < 8 then (6, 8) else (48, 48)

/-- Two transfers of a channel merge at a hop (R322, R327, R329). -/
def mergeXfer (a b : PkgXfer) : PkgXfer :=
  { a with weight := min 7 (a.weight + b.weight), lin := max a.lin b.lin, bad := a.bad || b.bad }

/-- An event of a package or system channel gets the summed weight `sum` by a merge (R327): EVT_PSTAT.COINCIDENT from 2 on; WSAT of the
die whose spine carries it where the weight saturates. DESIGN CHOICE: a saturation in the hub or at a ROPE port, which has no
EVT_STAT of its own, sets WSAT of all four dies. -/
def State.hubMerged (s : State) (d : Option Nat) (sum : Nat) : State :=
  let s1 := if 2 ≤ sum then s.flag EVT_PSTAT EVT_PSTAT.COINCIDENT true else s
  if 7 < sum then s1.each (d.elim (List.range 4) (fun d => [d])) (fun s d => s.flag (EVT_STAT d) EVT_STAT.WSAT true) else s1

/-- A transfer of a package channel, or of a system channel (256 plus its number), arrives at the hub or at a die's consumers, `a` being
its arrival tick; one that fails its parity there is discarded (R333). -/
def State.pkgArrive (s : State) (h a : Nat) (x : PkgXfer) : State :=
  if h < 4 then (s.spineXfer h 0).modHub (fun y => { y with pkg := y.pkg ++ [{ x with tick := a }] })
  else
    let d := h - 4
    let s1 := (s.spineXfer d 1).advance a
    if x.bad then s1.raise .eventParity d 3 d
    else (s1.consumers d (512 + x.ch) x.weight x.lin).emit d (0xD00 + x.ch) a x.lin x.weight

/-- A transfer of a system channel leaves on ROPE port `h − 8` (R322, R353): `tick` is its issue instant. At a link that is
down it is not delivered beyond it (R355). -/
def State.sysLeave (s : State) (h : Nat) (x : PkgXfer) : State :=
  if s.is (ROPE_STAT (h - 8)) ROPE_STAT.LINK_UP then
    s.ropeSend (h - 8) (.event (x.ch - 256) x.tick x.hops x.src x.weight x.lin)
  else s

/-- The hop `h` of channel `n`. -/
def State.hop (s : State) (n h : Nat) : HopState := mapGet {} (hopKey n h) s.hub.hops

/-- The state with a hop changed. -/
def State.modHop (s : State) (n h : Nat) (g : HopState → HopState) : State :=
  s.modHub (fun y => { y with hops := mapPut {} (hopKey n h) (g (s.hop n h)) y.hops })

/-- The link of hop `h` carries transfers: none crosses a spine in an outage (R350). -/
def State.hopUp (s : State) (h : Nat) : Bool := 8 ≤ h || !s.spineOut (h % 4)

/-- A transfer leaves hop `h` at tick `c`: it spends the channel's credit there (R322). -/
def State.hopLeave (s : State) (h c : Nat) (x : PkgXfer) : State :=
  let s1 := s.modHop x.ch h (fun _ => { free := c + (hopTicks h).2, wait := none })
  if h < 8 then s1.pkgArrive h (c + (hopTicks h).1) x else s1.sysLeave h x

/-- A transfer reaches hop `h` at tick `c`: it leaves, waits for the channel's credit, or merges (R322). One that waits leaves in
the tick in which its credit returns, before a later one. -/
def State.hopSend (s : State) (h c : Nat) (x : PkgXfer) : State :=
  let y := s.hop x.ch h
  match y.wait with
  | none => if y.free ≤ c && s.hopUp h then s.hopLeave h c x else s.modHop x.ch h (fun y => { y with wait := some x })
  | some z =>
    if y.free < c && s.hopUp h then
      let s1 := s.hopLeave h y.free z
      if (s1.hop x.ch h).free ≤ c then s1.hopLeave h c x else s1.modHop x.ch h (fun y => { y with wait := some x })
    else
      ((s.modHop x.ch h (fun y => { y with wait := some (mergeXfer z x) })).flag EVT_PSTAT EVT_PSTAT.MERGED true).hubMerged
        (if h < 8 then some (h % 4) else none) (z.weight + x.weight)

/-- Package channels of the kind `kind` whose DIE and INDEX are `d` and `n` (R338). -/
def State.packageOf (s : State) (kind d n : Nat) : List Nat :=
  s.regs.filterMap (fun r =>
    if EVT_PCH 0 ≤ r.1 && r.1 < EVT_PCH 256 && (r.1 - EVT_PCH 0) % 8 = 0 && getFld r.2 ⟨0, 2⟩ = kind
        && (kind ≠ 0 || getFld r.2 EVT_PCH.DIE = d) && getFld r.2 EVT_PCH.INDEX = n
    then some ((r.1 - EVT_PCH 0) / 8) else none)

/-! ### Routing on a die -/

/-- The greatest lineage of some firings. -/
def maxLin (l : List Firing) : Nat := l.foldl (fun m x => max m x.lin) 0

/-- The event of weight `w` and lineage `lin` on channel `n` of die `d`, routed at tick `c` (R321, R322, R327). -/
def State.routeEvent (s : State) (d n c sum lin : Nat) : State :=
  let w := min 7 sum
  let s1 := if 7 < sum then s.flag (EVT_STAT d) EVT_STAT.WSAT true else s
  let s2 := (if 2 ≤ w then s1.flag (EVT_STAT d) EVT_STAT.COINCIDENT true else s1).bump (EVT_ISSUE d n) w
  let s3 := s2.each (s2.packageOf 0 d n) (fun s m => s.hopSend d c { ch := m, tick := c, lin := lin, weight := w })
  (s3.advance (c + 1)).consumers d n w lin

/-- The armed parity inversion is for the transfer of channel `n` of die `d` (R431). -/
def State.parityArmed (s : State) (d n : Nat) : Bool :=
  match s.hub.inject with
  | some j => j.checker = 5 && j.die = d && j.target % 512 = n
  | none => false

/-- EVENT_ROUTE (R321, R327, R333): the firings of channel `n` of die `d` with the earliest route tick; `bad`: their transfer fails its
parity. -/
def State.eventRoute (s : State) (d n : Nat) (bad : Bool := false) : State :=
  let l := (s.die d).fires.filter (fun x => x.ch = n)
  match l with
  | [] => s
  | x :: _ =>
    let c := l.foldl (fun m y => min m y.tick) x.tick
    let now := l.filter (fun y => y.tick = c)
    let s1 := s.modDie d (fun y =>
      { y with fires := y.fires.filter (fun z => !(z.ch = n && z.tick = c)), routed := mapPut 0 n (c + 1) y.routed })
    if bad then (s1.advance c).raise .eventParity d 3 d
    else if s.parityArmed d n then
      (s1.injectDone.modHub (fun h => { h with injected := true })).raise .eventParity d 3 d
    else s1.routeEvent d n c ((now.map Firing.weight).sum) (maxLin now)

def execEventRoute (d : Fin 4) (n : Fin 512 × Bool) (s : State) : Out := .next (s.eventRoute d n.1 n.2)

/-! ### System channels -/

/-- The valid system channels whose source is package channel `n` of this package (R338). -/
def State.systemOf (s : State) (n : Nat) : List Nat :=
  (List.range 64).filter (fun j =>
    s.is (EVT_SCH j) EVT_SCH.VALID && s.rdF (EVT_SCH j) ⟨0, 4⟩ = s.pkgNum && s.rdF (EVT_SCH j) ⟨4, 8⟩ = n)

/-- The tick at which the consumers of a system channel act, `h` hops from its source (R322, R323). -/
def State.sysDue (s : State) (issue h : Nat) : Nat :=
  issue + 64 + 48 * (if s.is EVT_SYS_CFG EVT_SYS_CFG.ALIGN then s.rdF EVT_SYS_CFG EVT_SYS_CFG.HOPS else h)

/-- A transfer of system channel `j` is held for its consumers here. -/
def State.sysHold (s : State) (j issue h lin w : Nat) : State :=
  s.modHub (fun y => { y with sys := y.sys ++ [{ ch := j, issue := issue, due := s.sysDue issue h, lin := lin, weight := w }] })

/-- A transfer of a system channel reaches ROPE port `port` at tick `c` (R322). -/
def State.sysSend (s : State) (port c : Nat) (x : PkgXfer) : State :=
  if port = 1 && !s.sendsDown then s else s.hopSend (8 + port) c x

/-- A slot on ROPE that carries the event of system channel `j` issued here at tick `issue`: with the weight and lineage of the event after
another firing of that tick has joined it. -/
def RopeSlot.join (j issue w lin : Nat) : RopeSlot → RopeSlot
  | .event ch i hops src v l => if ch = j && i = issue then .event ch i hops src (min 7 (v + w)) (max l lin) else .event ch i hops src v l
  | x => x

/-- System channel `j` issues at its source package at tick `issue` (R322): a firing of the tick of another forms one event with it
(R327). -/
def State.sysIssue (s : State) (j issue lin w : Nat) : State :=
  match s.hub.sys.find? (fun x => x.ch = j && x.issue = issue) with
  | some y =>
    let z : PkgXfer := { ch := 256 + j, tick := issue, lin := lin, weight := w, src := s.pkgNum }
    let s1 := ((s.hubMerged none (y.weight + w)).bump (EVT_SISSUE j) (min 7 (y.weight + w) - y.weight)).modHub (fun h =>
      { h with sys := h.sys.map (fun x => if x = y then { x with weight := min 7 (x.weight + w), lin := max x.lin lin } else x) })
    (s1.each [8, 9] (fun s h => match (s.hop (256 + j) h).wait with
      | some x => if x.tick = issue then s.modHop (256 + j) h (fun y => { y with wait := some (mergeXfer x z) }) else s
      | none => s)).modOut (fun o => { o with rope := o.rope.map (fun x => (x.1, x.2.join j issue w lin)) })
  | none =>
    let s1 := (s.hubMerged none w).bump (EVT_SISSUE j) w
    let x : PkgXfer := { ch := 256 + j, tick := issue, lin := lin, weight := w, src := s.pkgNum }
    ((s1.sysHold j issue 0 lin w).sysSend 0 issue x).sysSend 1 issue x

/-- The die whose parity source a transfer into the hub on package channel `n` belongs to: its producer's. -/
def State.pkgDie (s : State) (n : Nat) : Option Nat :=
  if s.rdF (EVT_PCH n) ⟨0, 2⟩ = 0 then some (s.rdF (EVT_PCH n) EVT_PCH.DIE) else none

/-- A transfer that fails its parity on its way to the hub is discarded (R333). DESIGN CHOICE: EVENT_PARITY, a source of the dies, is that of
die 0 at the package for a transfer that no die has sent. -/
def State.hubParity (s : State) (d : Option Nat) : State :=
  match d with
  | some d => s.raise .eventParity d 3 d
  | none => s.raise .eventParity 0 4 0

/-- PACKAGE_EVENT_ROUTE (R322, R327, R333): the transfers of channel `n` that reach the hub first, together; `bad` names the transfers that
fail their parity, 4 that into the hub, 0 to 3 that to the die. -/
def State.packageRoute (s : State) (n : Nat) (bad : List (Fin 5) := []) : State :=
  let l := s.hub.pkg.filter (fun x => x.ch = n)
  match l with
  | [] => s
  | x :: _ =>
    let c := l.foldl (fun m y => min m y.tick) x.tick
    let now := l.filter (fun y => y.tick = c)
    let sum := (now.map PkgXfer.weight).sum
    let w := min 7 sum
    let lin := now.foldl (fun m y => max m y.lin) 0
    let s1 := (s.advance c).modHub (fun h =>
      { h with pkg := h.pkg.filter (fun y => !(y.ch = n && y.tick = c)), routed := mapPut 0 n (c + 1) h.routed })
    if bad.contains 4 then s1.hubParity (s.pkgDie n)
    else
      let s2 := (s1.hubMerged none sum).bump (EVT_PISSUE n) w
      let s3 := s2.each (s2.systemOf n) (fun s j => s.sysIssue j c lin w)
      s3.each (List.range 4) (fun s d =>
        s.hopSend (4 + d) c { ch := n, tick := c, lin := lin, weight := w, bad := bad.any (fun x => x.val = d) })

def execPackageEventRoute (n : Fin 256 × List (Fin 5)) (s : State) : Out := .next (s.packageRoute n.1 n.2)

/-- A credit of class `k` goes back on port `port`, whose link is up (R356). -/
def State.ropeReturn (s : State) (port k : Nat) : State :=
  if s.is (ROPE_STAT port) ROPE_STAT.LINK_UP then s.ropeSend port (.credit k) else s

/-- SYSTEM_EVENT_RX (R322, R323, R354, R356): a slot of the package `src` arrives on `port` with `hops` hops behind it. -/
def State.systemRx (s : State) (port j issue hops src w lin : Nat) : State :=
  let x : PkgXfer := { ch := 256 + j, tick := issue, lin := lin, weight := w, hops := hops + 1, src := src }
  let s1 := (s.sysSend (1 - port) s.now x).ropeReturn port 2
  if s1.now ≤ s1.sysDue issue hops then s1.sysHold j issue hops lin w
  else
    let s2 := if s1.is EVT_SYS_CFG EVT_SYS_CFG.ALIGN then s1.flag EVT_PSTAT EVT_PSTAT.SYS_LATE true else s1
    s2.modHub (fun y => { y with sys := y.sys ++ [{ ch := j, issue := issue, due := s2.now, lin := lin, weight := w }] })

def execSystemEventRx (port : Fin 2) (j : Fin 64) (issue : Nat) (hops : Fin 16 × Fin 16) (w : Fin 8 × Bool) (lin : Fin 8) (s : State) :
    Out :=
  .next (if s.slotDiscarded port then s else if w.2 then s.hubParity none else s.systemRx port j issue hops.1 hops.2 w.1 lin)

/-- SYSTEM_EVENT_DELIVER (R322, R323): the earliest held transfers of channel `j` cross each spine, on the channel's class 2 credit there, to
the consumers and the imports of the die, whose tick is the due one where the credit is free; and they reach the package channels that
select the system channel. `bad` names the dies whose transfer fails its parity. -/
def State.systemDeliver (s : State) (j : Nat) (bad : List (Fin 4) := []) : State :=
  let l := s.hub.sys.filter (fun x => x.ch = j)
  match l with
  | [] => s
  | x :: _ =>
    let c := l.foldl (fun m y => min m y.due) x.due
    let now := l.filter (fun y => y.due = c)
    let w := min 7 ((now.map SysXfer.weight).sum)
    let lin := now.foldl (fun m y => max m y.lin) 0
    let s1 := (s.advance c).modHub (fun h =>
      { h with sys := h.sys.filter (fun y => !(y.ch = j && y.due = c)), routed := mapPut 0 (256 + j) (c + 1) h.routed })
    let s2 := s1.hubMerged none (now.map SysXfer.weight).sum
    let s3 := s2.each (s2.packageOf 2 0 j) (fun s n =>
      s.modHub (fun h => { h with pkg := h.pkg ++ [{ ch := n, tick := c, lin := lin, weight := w }] }))
    s3.each (List.range 4) (fun s d => s.hopSend (4 + d) (c - (hopTicks 4).1)
      { ch := 256 + j, tick := c, lin := lin, weight := w, bad := bad.any (fun x => x.val = d) })

def execSystemEventDeliver (j : Fin 64 × List (Fin 4)) (s : State) : Out := .next (s.systemDeliver j.1 j.2)

/-- CLASS2_CREDIT_RETURN (R322): the credit of channel `n` (system channel n − 256 above 255) at hop `h` returns, and the
transfer that waits there leaves. -/
def State.creditReturn (s : State) (n h : Nat) : State :=
  let y := s.hop n h
  match y.wait with
  | none => s
  | some x =>
    if !s.hopUp h then s
    else
      let c := max s.now y.free
      (s.advance c).hopLeave h c x

def execClass2CreditReturn (n : Fin 320) (h : Fin 10) (s : State) : Out := .next (s.creditReturn n h)

/-! ### Software fires -/

/-- The first FCLK tick of the next PCLK cycle (R325). -/
def State.nextPclk (s : State) : Nat := (s.now / 8 + 1) * 8

def execEvtFire (f : Fin 8) (d : Fin 4) (v : Word) (s : State) : Out :=
  .next (s.hostWrite f (EVT_FIRE d) v (fun s => s.fire d (v.toNat % 512) s.nextPclk 0))

/-- Bits of a 32-channel write that the function may not write; `c` says which it asks for (R326). -/
def State.refusedBits (s : State) (f d k : Nat) (c : Nat → Bool) : List Nat :=
  (List.range 32).filter (fun j => c j && s.chanRight f d (32 * k + j) ≠ none)

/-- The one refusal that counts for a 32-channel write to `a` (R326). -/
def State.refuseBits (s : State) (f d k a : Nat) (l : List Nat) : State :=
  if l = [] then s
  else s.refuse f a true false (if l.any (fun j => s.is (EVT_CH d (32 * k + j)) EVT_CH.SECURE) then rsnSecure else rsnOwner)

/-- EVT_FIRE_SET (R326). -/
def State.fireSet (s : State) (f d k : Nat) (v : Word) : State :=
  let l := s.refusedBits f d k (fun j => bitOf v.toNat j)
  let tick := s.nextPclk
  (s.each ((List.range 32).filter (fun j => bitOf v.toNat j && !l.contains j)) (fun s j => s.fire d (32 * k + j) tick 0)).refuseBits
    f d k (EVT_FIRE_SET d k) l

def execEvtFireSet (f : Fin 8) (d : Fin 4) (k : Fin 16) (v : Word) (s : State) : Out :=
  .next (s.hostWrite f (EVT_FIRE_SET d k) v (fun s => s.fireSet f d k v))

/-- EVT_SLVL (R326). -/
def State.slvlWrite (s : State) (f d k : Nat) (v : Word) : State :=
  let a := EVT_SLVL d k
  let l := s.refusedBits f d k (fun j => bitOf v.toNat j != s.bit a j)
  (((List.range 32).filter (fun j => s.chanRight f d (32 * k + j) = none)).foldl (fun s j =>
    s.wrBit a j (bitOf v.toNat j)) s).refuseBits f d k a l

def execEvtSlvlWrite (f : Fin 8) (d : Fin 4) (k : Fin 16) (v : Word) (s : State) : Out :=
  .next (s.hostWrite f (EVT_SLVL d k) v (fun s => s.slvlWrite f d k v))

/-- EVT_PFIRE (R325). -/
def State.pfire (s : State) (n : Nat) : State :=
  s.modHub (fun h => { h with pkg := h.pkg ++ [{ ch := n, tick := s.nextPclk, lin := 0, weight := 1 }] })

def execEvtPfire (f : Fin 8) (v : Word) (s : State) : Out :=
  .next (s.hostWrite f EVT_PFIRE v (fun s => s.pfire (v.toNat % 256)))

/-- EVT_SFIRE (R325): only at the channel's source package. -/
def State.sfire (s : State) (f j : Nat) : State :=
  if s.is (EVT_SCH j) EVT_SCH.VALID && s.rdF (EVT_SCH j) ⟨0, 4⟩ = s.pkgNum then s.sysIssue j s.nextPclk 0 1
  else s.refuse f EVT_SFIRE true false rsnOwner

def execEvtSfire (f : Fin 8) (v : Word) (s : State) : Out :=
  .next (s.hostWrite f EVT_SFIRE v (fun s => s.sfire f (v.toNat % 64)))

/-! ### EVIO pins -/

/-- EVIO_INPUT_EDGE (R321, R332, R487): an input ball takes a new level; the active edge fires, once in a tick. The command's instant is the tick in
which the edge is registered. -/
def State.evioEdge (s : State) (d k : Nat) (high : Bool) : State :=
  let a := EVT_EVIO d k
  let s1 := s.flag a EVT_EVIO.PIN high
  if s.is a EVT_EVIO.PIN = high || s.is a EVT_EVIO.DIR then s
  else if high = s.is a EVT_EVIO.INV || mapGet 0 k (s.die d).evioAt = s.now + 1 then s1
  else (s1.modDie d (fun x => { x with evioAt := mapPut 0 k (s.now + 1) x.evioAt })).emit d (0xC00 + k) s.now

def execEvioInputEdge (d : Fin 4) (k : Fin 8) (high : Bool) (s : State) : Out := .next (s.evioEdge d k high)

/-- EVIO_PULSE_END (R332). -/
def State.evioPulseEnd (s : State) (d k : Nat) : State :=
  match (s.die d).pulses.find? (fun x => x.1 = k) with
  | none => s
  | some x =>
    ((s.advance x.2.2).modDie d (fun y => { y with pulses := y.pulses.filter (fun z => z.1 ≠ k) })).freeSlot d (0x400 + k)

def execEvioPulseEnd (d : Fin 4) (k : Fin 8) (s : State) : Out := .next (s.evioPulseEnd d k)

/-! ### Other writes of the event block -/

/-- A host write of a counter's register (R328): VALUE may reach CMP by it. -/
def State.cntWrite (s : State) (d m a : Nat) (v : Word) : State :=
  let s0 := if a = EVT_CNT_VALUE d m then s.modDie d (fun y => { y with cntMatch := mapDel m y.cntMatch }) else s
  let s1 := s0.store a v
  s1.cntValue d m (s1.rdN (EVT_CNT_VALUE d m)) 0

end Sys2Proof.Machine
end

