-- ==== Sys2Proof/Machine/Data.lean ====
section
/-! DEFINITION. Result rings, the host link, the spine and completion notices (R339 to R350, R360 to R363 and R365 of
11_data_movement_and_credits.md). A record in transit between a region's result buffer and the hub is an entry of the hub's
`spine` list; its fate reaches the die in a notice. -/

namespace Sys2Proof.Machine

/-! ### Rings -/

/-- What the hub holds of ring `r` beside its descriptor. -/
def State.ring (s : State) (r : Nat) : RingState := mapGet {} r s.hub.rings

/-- The state with ring `r` changed. -/
def State.modRing (s : State) (r : Nat) (g : RingState → RingState) : State :=
  s.modHub (fun h => { h with rings := mapPut {} r (g (s.ring r)) h.rings })

/-- LOG2 of ring `r`: values outside 6 to 24 act as 6 (R363). -/
def State.ringLog (s : State) (r : Nat) : Nat :=
  let n := s.rdF (DMA_RING_SIZE r) DMA_RING_SIZE.LOG2
  if 6 ≤ n && n ≤ 24 then n else 6

/-- Slots of ring `r` written and not released (R341). -/
def State.ringUsed (s : State) (r : Nat) : Nat :=
  (s.rdN (DMA_RING_TAIL r) + 2 ^ 32 - s.rdN (DMA_RING_HEAD r)) % 2 ^ 32

/-- Ring `r` is enabled. -/
def State.ringOn (s : State) (r : Nat) : Bool := s.is (DMA_RING_CTRL r) DMA_RING_CTRL.EN

/-- The hub can write a record to ring `r`: it is enabled and has a free slot, and the host link takes writes (R344, R345). -/
def State.ringTakes (s : State) (r : Nat) : Bool :=
  s.ringOn r && s.ringUsed r < 2 ^ s.ringLog r && !s.is DMA_STAT DMA_STAT.STALL && !s.is DMA_STAT DMA_STAT.LINK_DOWN

/-- Ring `r` refuses a record for want of a free slot alone. -/
def State.ringFull (s : State) (r : Nat) : Bool :=
  s.ringOn r && 2 ^ s.ringLog r ≤ s.ringUsed r && !s.is DMA_STAT DMA_STAT.STALL && !s.is DMA_STAT DMA_STAT.LINK_DOWN

/-- A record of unit `p`, or of the package, is dropped at ring `r` (R344). One dropped for want of a free slot is remembered for a HEAD
write of the same PCLK cycle (R360); `noted` says that a notice counts it. -/
def State.ringDrop (s : State) (r : Nat) (p : Option Nat) (noted : Bool) (bs : List (BitVec 8)) : State :=
  ((s.bump (DMA_RING_DROP r) 1).flag (DMA_RING_STAT r) DMA_RING_STAT.DROPPED true).modRing r (fun x =>
    { x with
      drops := x.drops + 1
      lateAt := if s.ringFull r then s.now else x.lateAt
      late := (if s.inCycle x.lateAt then x.late else []) ++ (if s.ringFull r then
        [(p, (p.map (fun p => mapGet 0 p s.hub.dropMarks == 1)).getD false, noted, bs)] else []) })

/-- The 32 bytes of a record are written to the next slot of ring `r` (R341, R343). -/
def State.ringWrite (s : State) (r : Nat) (bs : List (BitVec 8)) : State :=
  let tail := s.rdN (DMA_RING_TAIL r)
  ((s.post (.write ((s.rd64 (DMA_RING_BASE_LO r) + 32 * (tail % 2 ^ s.ringLog r)) % 2 ^ 64) bs)).wrN (DMA_RING_TAIL r)
    ((tail + 1) % 2 ^ 32)).modRing r (fun x =>
      { x with since := x.since + 1, firstAt := if x.since = 0 then s.now else x.firstAt })

/-- A record of no unit (the package's own) reaches ring `r`. -/
def State.ringPut (s : State) (r : Nat) (bs : List (BitVec 8)) : State :=
  if s.ringTakes r then s.ringWrite r bs else s.ringDrop r none false bs

/-- A record of unit `p` reaches ring `r`: written, with DROP_SINCE after a drop of the unit's, or dropped with the unit marked
(R344); `noted` says that a notice counts its fate. -/
def State.unitPut (s : State) (r p : Nat) (bs : List (BitVec 8)) (noted : Bool := false) : State :=
  if s.ringTakes r then
    (s.ringWrite r (if mapGet 0 p s.hub.dropMarks = 1 then withFlags bs flDropSince else bs)).modHub (fun h =>
      { h with dropMarks := mapPut 0 p 0 h.dropMarks })
  else (s.ringDrop r (some p) noted bs).modHub (fun h => { h with dropMarks := mapPut 0 p 1 h.dropMarks })

/-- WB_CNT of ring `r`, 0 acting as 1 (R363). -/
def State.wbCnt (s : State) (r : Nat) : Nat := max 1 (s.rdF (DMA_RING_MOD r) DMA_RING_MOD.WB_CNT)

/-- WB_US and INT_US of ring `r`, in ticks (R363). -/
def State.ringUs (s : State) (r : Nat) : Nat := usTicks * s.rdF (DMA_RING_MOD r) DMA_RING_MOD.INT_US

/-- The MSI-X message of ring `r`, on its vector of its owner's table (R343). -/
def State.ringMsix (s : State) (r : Nat) : State :=
  (s.modRing r (fun x => { x with lastInt := some s.now, held := false })).sendMsix
    (s.rdF (DMA_RING_CTRL r) DMA_RING_CTRL.OWNER) (s.rdF (DMA_RING_CTRL r) DMA_RING_CTRL.VEC)

/-- RING_WRITEBACK (R343, R345): TAIL and the drop count are posted, once WB_CNT records wait for it or WB_US after the first that
does; with IEN a message follows, held back until INT_US after the previous one. -/
def State.ringWriteback (s : State) (r : Nat) : State :=
  let x := s.ring r
  if x.since = 0 || s.is DMA_STAT DMA_STAT.LINK_DOWN then s
  else
    let s1 := if s.wbCnt r ≤ x.since then s else s.advance (x.firstAt + s.ringUs r)
    let s2 := (s1.post (.write (s.rd64 (DMA_RING_WB_LO r)) (leBytes 4 (s.rdN (DMA_RING_TAIL r)) ++ leBytes 4 (x.drops % 2 ^ 32)))).modRing r
      (fun x => { x with since := 0 })
    if !s2.is (DMA_RING_CTRL r) DMA_RING_CTRL.IEN then s2
    else
      match x.lastInt with
      | none => s2.ringMsix r
      | some t => if t + s2.ringUs r ≤ s2.now then s2.ringMsix r else s2.modRing r (fun x => { x with held := true })

def execRingWriteback (r : Fin 64) (s : State) : Out := .next (s.ringWriteback r)

/-- RING_MSIX_HOLDOFF_END (R343): the message that was held back is sent. -/
def State.ringHoldoffEnd (s : State) (r : Nat) : State :=
  let x := s.ring r
  match x.lastInt with
  | some t =>
    if !x.held then s
    else
      let s1 := s.advance (t + s.ringUs r)
      if s.is (DMA_RING_CTRL r) DMA_RING_CTRL.IEN then s1.ringMsix r else s1.modRing r (fun x => { x with held := false })
  | none => s

def execRingMsixHoldoffEnd (r : Fin 64) (s : State) : Out := .next (s.ringHoldoffEnd r)

/-- The fate of a record of unit `p` that counts as dropped is that of a delivered one (R360). -/
def State.undropFate (s : State) (p : Nat) : State :=
  let x := mapGet {} p s.hub.fates
  if x.drop = 0 then s
  else s.modHub (fun h => { h with fates := mapPut {} p { x with deliv := x.deliv + 1, drop := x.drop - 1 } h.fates })

/-- A record that ring `r` dropped earlier in this PCLK cycle takes the slot that a HEAD write has freed: the write counts first
(R360). -/
def State.ringLate (s : State) (r : Nat) (x : Option Nat × Bool × Bool × List (BitVec 8)) : State :=
  if !s.ringTakes r then s
  else
    let s1 := (s.wrN (DMA_RING_DROP r) ((s.rdN (DMA_RING_DROP r) + 2 ^ 32 - 1) % 2 ^ 32)).modRing r (fun y =>
      { y with drops := y.drops - 1, late := y.late.tail })
    let s2 := if (s1.ring r).late = [] then s1.flag (DMA_RING_STAT r) DMA_RING_STAT.DROPPED
        (getFld (s1.rdCyc (DMA_RING_STAT r)) DMA_RING_STAT.DROPPED == 1) else s1
    match x with
    | (none, _, _, bs) => s2.ringPut r bs
    | (some p, mark, noted, bs) =>
      let s3 := (s2.modHub (fun h => { h with dropMarks := mapPut 0 p (b2n mark) h.dropMarks })).unitPut r p bs
      if noted then s3.undropFate p else s3

/-- A write of DMA_RING_HEAD that does not go beyond TAIL or backwards releases slots (R341), to the records whose slot check came in
the same PCLK cycle first (R360). -/
def State.ringHead (s : State) (r : Nat) (v : Word) : State :=
  if (v.toNat + 2 ^ 32 - s.rdN (DMA_RING_HEAD r)) % 2 ^ 32 ≤ s.ringUsed r then
    (s.wr (DMA_RING_HEAD r) v).each (if s.inCycle (s.ring r).lateAt then (s.ring r).late else []) (fun s x => s.ringLate r x)
  else s.flag (DMA_RING_STAT r) DMA_RING_STAT.HEAD_ERR true

def execRingHeadWrite (f : Fin 8) (r : Fin 64) (v : Word) (s : State) : Out :=
  .next (s.hostWrite f (DMA_RING_HEAD r) v (fun s => s.ringHead r v))

/-- A write of DMA_RING_CTRL: setting EN to 1 sets TAIL to HEAD (R341). -/
def State.ringCtrl (s : State) (r : Nat) (v : Word) : State :=
  let s1 := s.store (DMA_RING_CTRL r) v
  if !s.ringOn r && s1.ringOn r then (s1.wr (DMA_RING_TAIL r) (s1.rd (DMA_RING_HEAD r))).modRing r (fun x => { x with since := 0 })
  else s1

def execRingEnable (f : Fin 8) (r : Fin 64) (v : Word) (s : State) : Out :=
  .next (s.hostWrite f (DMA_RING_CTRL r) (v ||| 1#32) (fun s => s.ringCtrl r (v ||| 1#32)))

/-- Every ring descriptor returns to its reset value (R340). -/
def State.ringsReset (s : State) : State :=
  (s.resetRegs (DMA_RING_CTRL 0) (DMA_RING_CTRL 64) (fun _ => false)).modHub (fun h =>
    { h with rings := (h.rings.map (fun x => (x.1, { x.2 with since := 0, held := false, late := [] }))).filter (fun x => x.2 ≠ {}) })

/-! ### The host link -/

/-- The stall of the host link begins (R345). -/
def State.stallBegin (s : State) : State :=
  if s.is DMA_STAT DMA_STAT.STALL then s
  else
    (((s.flag DMA_STAT DMA_STAT.STALL true).flag DMA_STAT DMA_STAT.STALL_SEEN true).setCause 0 causeLink).raisePkg .hostStall 0 true

/-- HOST_STALL (R345): the link's credits are exhausted from the present instant on, and the stall begins STALL_US later, 0 acting as 1
(R362), or at once where the link is down. DESIGN CHOICE: the command stands for the exhaustion and for the stall it ends in. -/
def execHostStall (s : State) : Out :=
  .next (if s.is DMA_STAT DMA_STAT.LINK_DOWN || s.is DMA_STAT DMA_STAT.STALL then s.stallBegin
    else (s.advance (s.now + usTicks * max 1 (s.rdF DMA_CFG ⟨0, 16⟩))).stallBegin)

/-- HOST_STALL_END (R345): a posted write is accepted again, which takes a link that is up; the writes that wait leave in their order
(R339). -/
def State.stallEnd (s : State) : State :=
  if s.is DMA_STAT DMA_STAT.STALL && !s.is DMA_STAT DMA_STAT.LINK_DOWN then
    let s1 := (s.flag DMA_STAT DMA_STAT.STALL false).modHub (fun h => { h with postWait := [] })
    ((s1.each s.hub.postWait State.post).unlive .hostStall 0).setCause 0 causeLink
  else s

def execHostStallEnd (s : State) : Out := .next s.stallEnd

/-- The functions of the endpoint are reset: their MSI-X tables and power states (R470, R432); the completions of their reads in
flight are discarded (R472). -/
def State.functionsReset (s : State) : State :=
  let s1 : State := { s with perFn := s.perFn.filter (fun x => !(0xF0000 ≤ x.1 % 2 ^ 28 && x.1 % 2 ^ 28 < 0x100000)) }
  s1.modHub (fun h => { h with d3 := 0, spineWait := h.spineWait.map (fun x => (x.1, x.2.lose)) })

/-- PCIE_HOT_RESET (R340, R432). -/
def execPcieHotReset (s : State) : Out := .next s.ringsReset.functionsReset

/-- PCIE_LINK_DOWN (R340, R345): writes that wait for credits are lost with the link. -/
def execPcieLinkDown (s : State) : Out :=
  .next (((s.ringsReset.functionsReset.modHub (fun h => { h with postWait := [] })).flag DMA_STAT DMA_STAT.LINK_DOWN true).stallBegin)

/-- PCIE_LINK_UP (R362): every ring stays disabled. -/
def execPcieLinkUp (s : State) : Out := .next (s.flag DMA_STAT DMA_STAT.LINK_DOWN false)

/-- D3HOT_ENTRY (R340): the rings that function `f` owns are disabled. -/
def execD3hotEntry (f : Fin 8) (s : State) : Out :=
  .next (s.each ((List.range 64).filter (fun r => s.ringOn r && s.rdF (DMA_RING_CTRL r) DMA_RING_CTRL.OWNER = f))
    (fun s r => s.flag (DMA_RING_CTRL r) DMA_RING_CTRL.EN false) |>.modHub (fun h => { h with d3 := withBit h.d3 f }))

/-- D3HOT_EXIT (R468): the messages that the set and enabled STAT bits hold are sent. -/
def execD3hotExit (f : Fin 8) (s : State) : Out :=
  .next (if bitOf s.hub.d3 f then
      (s.modHub (fun h => { h with d3 := withoutBit h.d3 f })).each
        (indices 12 (fun c => s.bit (HUB_INT_STAT f) c && s.bit (HUB_INT_EN f) c)) (fun s c => s.sendCause f c)
    else s)

/-! ### Records on their way -/

/-- A kernel record that waits enters the result buffer of region `t` when there is room (R349). -/
def State.bufferWaiting (s : State) (t : Nat) : State :=
  match (s.red t).waiting with
  | [] => s
  | x :: l =>
    if (s.red t).buf.length < s.bufSlots t then (s.modRed t (fun r => { r with waiting := l })).bufferPut t x else s

/-- The bytes `bs` of the record `x`: it carries LATE when it leaves the result buffer later than LATE_US after its output instant
(R235). -/
def State.lateFlag (s : State) (t : Nat) (x : Rec) (bs : List (BitVec 8)) : List (BitVec 8) :=
  let us := s.rdF (MEA_CTRL t) MEA_CTRL.LATE_US
  match x.at' with
  | some a => if us ≠ 0 && us * usTicks < s.now - a then withFlags bs flLate else bs
  | none => bs

/-- The record `x` as the result buffer of region `t` gives it out: read from its slot, with ECC_CORR where a symbol was corrected there
(R235, R427). -/
def State.bufferGet (s : State) (t : Nat) (x : Rec) : State × Rec :=
  match x.slot with
  | none => (s, { x with bytes := s.lateFlag t x x.bytes })
  | some a =>
    let m := s.memRead a 32
    (m.1, { x with bytes := s.lateFlag t x (if m.2.corr then withFlags m.2.bytes flEccCorr else m.2.bytes) })

/-- The class 1 quota of region `t` (R349): 128 throughout nightlight mode. -/
def State.spineQuota (s : State) (t : Nat) : Nat :=
  if s.nightlight t then 128 else s.rdF (DIE_SPINE_Q (t / 4) (t % 4)) ⟨0, 10⟩

/-- SPINE_RECORD_SEND (R349): the oldest record of the result buffer leaves on a quota credit, while the spine is up. -/
def State.spineSend (s : State) (t : Nat) : State :=
  match (s.red t).buf with
  | [] => s
  | x :: l =>
    if s.spineOut (t / 4) || s.spineQuota t ≤ (s.region t).quotaUse then s
    else
      let m := s.bufferGet t x
      let s1 := (m.1.modRed t (fun r => { r with buf := l })).modRegion t (fun r => { r with quotaUse := r.quotaUse + 1 })
      ((s1.modHub (fun h => { h with spine := h.spine ++ [(t, m.2)] })).spineXfer (t / 4) 0).bufferWaiting t

def execSpineRecordSend (t : Fin 16) (s : State) : Out := .next (s.spineSend t)

/-- A record of unit `p` has a fate (R346). -/
def State.fate (s : State) (p : Nat) (delivered : Bool) : State :=
  let x := mapGet {} p s.hub.fates
  let y : FateState :=
    { deliv := x.deliv + b2n delivered, drop := x.drop + b2n !delivered,
      firstAt := if x.deliv + x.drop = 0 then s.now else x.firstAt }
  s.modHub (fun h => { h with fates := mapPut {} p y h.fates })

/-- RECORD_DELIVER (R342 to R346): the oldest record on the spine reaches the hub and its region's ring; its quota credit
returns. -/
def State.recordDeliver (s : State) : State :=
  match s.hub.spine with
  | [] => s
  | (t, x) :: l =>
    let r := if x.nl then 0 else s.rdF (DMA_RMAP t) ⟨0, 6⟩
    let s1 := (s.modHub (fun h => { h with spine := l })).modRegion t (fun y => { y with quotaUse := y.quotaUse - 1 })
    let s2 := s1.unitPut r x.unit x.bytes !x.nl
    if x.nl then s2 else s2.fate x.unit (s1.ringTakes r)

def execRecordDeliver (s : State) : Out := .next s.recordDeliver

/-- Notices on their way to die `d`, of the 32 that its class 1 credits allow (R347). -/
def State.noticesOut (s : State) (d : Nat) : Nat := (s.hub.notices.filter (fun x => x.1 / 64 = d)).length

/-- NOTICE_SEND (R346, R347): the fates of unit `p` leave for its die, after 64 of them or 1 µs after the first. -/
def State.noticeSend (s : State) (p : Nat) : State :=
  let x := mapGet {} p s.hub.fates
  if x.deliv + x.drop = 0 || s.spineOut (p / 64) || 32 ≤ s.noticesOut (p / 64) then s
  else
    let s1 := if 64 ≤ x.deliv + x.drop then s else s.advance (x.firstAt + usTicks)
    (s1.modHub (fun h =>
      { h with fates := mapPut {} p {} h.fates, notices := h.notices ++ [(p, x.deliv, x.drop)] })).spineXfer (p / 64) 1

def execNoticeSend (p : Fin 256) (s : State) : Out := .next (s.noticeSend p)

/-- COMPLETION_NOTICE (R346): the oldest notice of die `d` moves counts of its unit from FLIGHT. -/
def State.noticeArrive (s : State) (d : Nat) : State :=
  match s.hub.notices.find? (fun x => x.1 / 64 = d) with
  | none => s
  | some x =>
    ((s.modHub (fun h => { h with notices := h.notices.erase x })).itemsDeliv x.1 x.2.1).itemsDrop x.1 x.2.2

def execCompletionNotice (d : Fin 4) (s : State) : Out := .next (s.noticeArrive d)

/-! ### Spine outages -/

/-- A retrain attempt of die `d`'s spine link (R350): the first one of an outage raises SPINE_RETRAIN. -/
def State.spineAttempt (s : State) (d : Nat) : State :=
  let s1 := (s.bump (DIE_SPINE_RETRAIN d) 1).modDie d (fun x => { x with spineTries := x.spineTries + 1, spineTryAt := s.now })
  if s.spineOut d then s1
  else
    (((s1.flag (DIE_SPINE_STAT d) DIE_SPINE_STAT.UP false).flag (DIE_SPINE_STAT d) DIE_SPINE_STAT.RETRAINING true).setCause 0
      causeLink).raise .spineRetrain d 3 d 0 true

def execSpineRetrain (d : Fin 4) (s : State) : Out := .next (s.spineAttempt d)

/-- SPINE_CRC (R350): a transfer of die `d` fails its check and is replayed; when 32 replays in a row have failed as well, the link
retrains. DESIGN CHOICE: the failures of a die's two directions count together. -/
def State.spineCrcFail (s : State) (d : Nat) : State :=
  let n := (s.die d).spineFails + 1
  let s1 := ((s.bump (DIE_SPINE_CRC d) 1).report .spineCrc d 3 d).modDie d (fun x => { x with spineFails := if n ≤ 32 then n else 0 })
  if n ≤ 32 then s1 else s1.spineAttempt d

def execSpineCrc (d : Fin 4) (s : State) : Out := .next (s.spineCrcFail d)

/-- A waiting access meets the spine down (R350): a read answers all ones, a write is discarded. -/
def State.spineLost (s : State) (x : SpineAcc) : State :=
  let s1 := s.flag DMA_STAT DMA_STAT.REG_TMO true
  match x with
  | .read f _ lost => if lost then s1 else s1.answer f 0xFFFFFFFF#32
  | .mem f _ n lost => if lost then s1 else s1.answerMem f (List.replicate n 0xFF#8)
  | _ => s1

/-- SPINE_DOWN (R350): the third attempt of the outage has failed; the accesses that wait complete. -/
def State.spineFail (s : State) (d : Nat) : State :=
  if s.spineDown d then s
  else
    let s1 := s.each (List.range (3 - (s.die d).spineTries)) (fun s _ => s.spineAttempt d)
    let s2 := s1.each (s1.hub.spineWait.filter (fun x => x.1 = d)) (fun s x => s.spineLost x.2)
    (s2.modHub (fun h => { h with spineWait := h.spineWait.filter (fun x => x.1 ≠ d) })).fenceSettle.raise .spineDown d 3 d 0 true

def execSpineDown (d : Fin 4) (s : State) : Out := .next (s.spineFail d)

/-- SPINE_RETRY (R350): 10 ms after the last attempt of an outage past its third. -/
def execSpineRetry (d : Fin 4) (s : State) : Out :=
  .next (if s.spineDown d then (s.advance ((s.die d).spineTryAt + 10 * msTicks)).spineAttempt d else s)

/-- The class 2 transfers that wait at hop `h` with their credit back. -/
def State.hopsWaiting (s : State) (h : Nat) : List PkgXfer :=
  s.hub.hops.filterMap (fun x => if x.1 % 64 = h && x.2.free ≤ s.now then x.2.wait else none)

/-- The class 2 transfers from die `d` that an outage of its spine has held leave now (R322, R350). -/
def State.hopsResume (s : State) (d : Nat) : State := s.each (s.hopsWaiting d) (fun s x => s.hopLeave d s.now x)

/-- SPINE_UP (R350): replay resumes, and the outage's sources leave LIVE. -/
def State.spineUp (s : State) (d : Nat) : State :=
  if s.is (DIE_SPINE_STAT d) DIE_SPINE_STAT.UP then s
  else
    (((((s.wrN (DIE_SPINE_STAT d) 1).unlive .spineRetrain d).unlive .spineDown d).modDie d (fun x =>
      { x with spineTries := 0 })).setCause 0 causeLink).hopsResume d

/-- REG_ACCESS_TIMEOUT (R350): the access to a die whose spine is down completes; a read answers all ones. -/
def State.accessTimeout (s : State) (f d : Nat) (read : Bool) : State :=
  if s.spineDown d then
    let s1 := s.flag DMA_STAT DMA_STAT.REG_TMO true
    if read then s1.answer f 0xFFFFFFFF#32 else s1
  else s

def execRegAccessTimeout (f : Fin 8) (d : Fin 4) (read : Bool) (s : State) : Out := .next (s.accessTimeout f d read)

end Sys2Proof.Machine
end

