-- ==== Sys2Proof/Machine/Loop.lean ====
section
/-! DEFINITION. The loop period (R116 of 04_control_engine.md): conversion and dither (R216, R495), marks (R228 to R233),
supervision of the feedback (R140 to R143), the control law (R118 to R131), the supervisory slots (R125, R126), the
generators (R155), charge (R283), and the rate change (R135, R162). The raw codes of the converters are operands. -/

namespace Sys2Proof.Machine

/-! ### Conversion -/

/-- The dither value of an LFSR state (R495). -/
def ditherOf (w : BitVec 16) : Int := (w.toNat % 5 : Nat) - 2

/-- Slice `j` of cluster `k` (8 for the pilot) converts at this loop sample: a slice under trim does not, the pilot does in
a role and in the shadow phases (R238). -/
def State.converts (s : State) (k j : Nat) : Bool :=
  if j = 8 then (s.cluster k).inRole || s.inPhase k 1 || s.inPhase k 4
  else !(s.inPhase k 3 && s.pilSlice k = j)

/-- The dither of every converting slice of cluster `k` advances (R495). -/
def State.ditherStep (s : State) (k : Nat) : State :=
  s.modCluster k (fun c => c.dither (indices 9 (fun j => s.converts k j)) 1)

/-- The dither of slice `j` of cluster `k` in the present conversion. -/
def State.dither (s : State) (k j : Nat) : Int := ditherOf ((s.cluster k).lfsr.getD j 0)

/-- The raw codes of one loop sample of a region: the slices of the voltage and of the current roles of its 16 units, and
its four pilots. -/
structure RawCodes where
  v : List (BitVec 18)
  i : List (BitVec 18)
  pil : List (BitVec 18)
  deriving DecidableEq, Repr

/-- The raw code of the slice of unit `p` for quantity `q` (0 voltage, 1 current). -/
def RawCodes.slice (r : RawCodes) (p q : Nat) : Int := ((if q = 1 then r.i else r.v).getD (p % 16) 0).toInt

/-- The raw code of the pilot of cluster `k`. -/
def RawCodes.pilot (r : RawCodes) (k : Nat) : Int := (r.pil.getD (k % 4) 0).toInt

/-- The pilot holds the role of quantity `q` of unit `p` (R237, R238). -/
def State.pilotIn (s : State) (p q : Nat) : Bool := s.converter p q == 8

/-- The raw code of the converter in the role (R216). -/
def State.roleCode (s : State) (r : RawCodes) (p q : Nat) : Int :=
  if s.pilotIn p q then r.pilot (p / 4) else r.slice p q

/-- A − d of the converter in the role (R216). -/
def State.roleVal (s : State) (r : RawCodes) (p q : Nat) : Int :=
  s.roleCode r p q - s.dither (p / 4) (s.converter p q)

/-- A saturated loop ADC code (R83). -/
def saturated (a : Int) : Bool := a = 0x1FFFF || a = -0x20000

/-- The state with the stream of quantity `q` of unit `p` changed. -/
def State.modStream (s : State) (p q : Nat) (g : StreamState → StreamState) : State :=
  s.modMea p (fun m => if q = 1 then { m with i := g m.i } else { m with v := g m.v })

/-! ### Marks -/

/-- The overrange of one converter role (R232, R233). -/
def State.overrange (s : State) (p q : Nat) (sat : Bool) : State :=
  let f := if q = 1 then MEA_U_STAT.OVR_I else MEA_U_STAT.OVR_V
  let s1 := s.flag (MEA_U_STAT p) f sat
  if sat then
    let s2 := (s1.modStream p q (fun z => { z with ovrAt := some s.now })).modCluster (p / 4) (fun c =>
      { c with suspUntil := some (s.now + 320), suspLast := some (s.now + 320) })
    let s3 := s2.each (clusterUnits (p / 4)) (fun s x => s.flag (MEA_U_STAT x) MEA_U_STAT.SUSPECT true)
    if s.is (MEA_U_STAT p) f then s3 else (s3.bump (MEA_U_OVR_CNT p) 1).emitUnit p evOverrange
  else s1

/-- A role of the cluster of unit `p` other than quantity `q` of unit `p` saturated within the last 400 ns (R233); every
role counts where `q` is 2. -/
def State.suspect (s : State) (p q : Nat) : Bool :=
  (clusterUnits (p / 4)).any (fun x => [0, 1].any (fun y =>
    !(x = p && y = q) && match ((s.unit x).mea.stream y).ovrAt with
      | some a => s.now ≤ a + 320
      | none => false))

/-- The sample of unit `p` is marked SETTLE (R229, R231). -/
def State.settling (s : State) (p : Nat) : Bool := 0 < (s.unit p).rngLeft || s.siteSettling p

/-- An underrun holds the target of unit `p` (R181, R182): until a sample enters, whatever segment was chosen meanwhile. -/
def State.held (s : State) (p : Nat) : Bool :=
  s.is (PRF_UCTRL p) PRF_UCTRL.WF_EN && s.playing (p / 16) &&
    (s.is (PRF_STAT (p / 16)) PRF_STAT.HOLDING || s.is (PRF_STAT (p / 16)) PRF_STAT.STALLED)

/-- `some b` where `c` holds, `a` otherwise. -/
def markIf (c : Bool) (b : Nat) (a : Option Nat) : Option Nat := if c then some b else a

/-- The samples of unit `p` take their marks and enter the measurement streams (R216, R218, R228). -/
def State.feedUnit (s : State) (r : RawCodes) (p : Nat) : State :=
  let b := s.now
  let per := s.period (p / 16)
  let taps := (s.region (p / 16)).userTaps
  let set := s.settling p
  let one (q : Nat) (m : MeasState) (z : StreamState) : StreamState :=
    { z with suspAt := markIf (s.suspect p q) b z.suspAt, pilotAt := markIf (s.pilotIn p q) b z.pilotAt }.feed taps m.filt
      per b (s.roleVal r p q)
  (((s.modMea p (fun m =>
    { m with
      settleAt := markIf set b m.settleAt, holdAt := markIf (s.held p) b m.holdAt
      v := one 0 m m.v, i := one 1 m m.i })).markValue p 1).markValue p 0).flag (MEA_U_STAT p) MEA_U_STAT.SETTLE set

/-- The stages left empty by a reset start as after a filter change (R221). -/
def State.refill (s : State) (p : Nat) : State :=
  if (s.unit p).mea.refilter then s.filterChange p (s.unit p).mea.filt else s

/-! ### The frozen run -/

/-- The frozen run of one loop ADC after a sample with raw code `a` (R140); it holds at 127. -/
def frozenNext (run : Nat) (again : Bool) (a : Int) : Nat :=
  if saturated a then 0 else if again then min 127 (run + 1) else 0

/-- Both frozen runs of unit `p` (R140), against the raw codes of the sample before, and the raw codes shown. -/
def State.frozenCheck (s : State) (r : RawCodes) (p : Nat) : State :=
  let av := s.roleCode r p 0
  let ai := s.roleCode r p 1
  let u := s.unit p
  let rv := frozenNext (s.frozenRuns p).1 (u.eng.sampled && s.rdI (CH_VLOOP p) = av) av
  let ri := frozenNext (s.frozenRuns p).2 (u.eng.sampled && s.rdI (CH_ILOOP p) = ai) ai
  let ends := (u.eng.frzV && rv = 0) || (u.eng.frzI && ri = 0)
  let s1 := (s.modUnit p (fun u =>
    { u with eng := { u.eng with sampled := true, frzV := u.eng.frzV && rv ≠ 0, frzI := u.eng.frzI && ri ≠ 0 } })).wrN
      (ENG_FRZ p) (rv + 256 * ri)
  let s2 := (s1.wr (CH_VLOOP p) (s32 av)).wr (CH_ILOOP p) (s32 ai)
  if ends then s2.unliveUnless .feedbackFrozen (p / 64) (fun s q => (s.unit q).eng.frzV || (s.unit q).eng.frzI) else s2

/-! ### Plausibility -/

/-- A finite binary32 as a fraction. -/
def Dyadic.frac (d : Dyadic) : Int × Nat :=
  let v : Int := if d.neg then -(d.m : Int) else d.m
  if 0 ≤ d.e then (v * (2 ^ d.e.toNat : Nat), 1) else (v, 2 ^ (-d.e).toNat)

/-- The loop sample of a voltage or a current in 2^−64 of its unit, from its full scale (R83). -/
def inUnits (x : Int) (fs : Nat × Nat) : Int := roundFree (x * fs.1 * 2 ^ 64) (0x18000 * fs.2)

/-- `n / m` divided by the fraction `d`, which is not 0, as a fraction with a positive denominator. -/
def fracDiv (n : Int) (m : Nat) (d : Int × Nat) : Int × Nat := (sgn d.1 * n * d.2, m * d.1.natAbs)

/-- V_n of the parallel R-C model in current force, in 2^−64 V (R141): from V_{n−1}, the current sample and its full scale, with p
recomputed, for values of either sign; for an infinite R its limit V_{n−1} + Ts · I / C. None where the formula has no value, or one
beyond e^60. -/
def plVolts (r c : Word) (per : Nat) (v0 x : Int) (fs : Nat × Nat) : Option Int :=
  match fpUnpack fmt32 r.toNat, fpUnpack fmt32 c.toNat with
  | .fin r, .fin c =>
    let ri := roundFree (inUnits x fs * r.frac.1) r.frac.2
    let tau := r.frac.1 * c.frac.1
    let n := per * (r.frac.2 * c.frac.2)
    let d := secTicks * tau.natAbs
    if r.m = 0 || c.m = 0 then some ri
    else if tau < 0 && 60 * d < n then none
    else
      let e := expReal (-(sgn tau * n)) d
      some (roundFree (e * v0 + (oneFix - e) * ri) oneFix)
  | .inf _, .fin c =>
    if c.m = 0 then none
    else
      let q := fracDiv (inUnits x fs * per) secTicks c.frac
      some (v0 + roundFree q.1 q.2)
  | _, _ => none

/-- The prediction of the measured quantity in ADC LSB from the forced sample `x` and the voltage sample one period earlier, `x0` (R141),
exact up to one rounding; a free value where the formula has none. -/
def State.plPrediction (s : State) (p : Nat) (x x0 : Int) : Int :=
  let ff := s.fullForced p
  let fm := if s.forcesI p then s.fullV p else s.fullI p
  let per := s.period (p / 16)
  let r := s.rd (ENG_PL_R p)
  let c := s.rd (ENG_PL_C p)
  let other := Config.plPredict r c x
  let conv (n : Int) (d : Nat) : Int := roundFree (n * ff.1 * fm.2) (max 1 (d * ff.2 * fm.1))
  match s.forcesI p, s.is (ENG_PL_CFG p) ENG_PL_CFG.MODEL, fpUnpack fmt32 r.toNat, fpUnpack fmt32 c.toNat with
  | false, false, .inf _, _ => 0
  | false, false, .fin d, _ =>
    let q := fracDiv x 1 d.frac
    if d.m = 0 then other else conv q.1 q.2
  | true, false, .fin d, _ => conv (x * d.frac.1) d.frac.2
  | false, true, .inf _, .fin e => conv ((x - x0) * e.frac.1 * secTicks) (e.frac.2 * per)
  | false, true, .fin d, .fin e =>
    let q := fracDiv (x * (e.frac.2 * per : Nat) * d.frac.2 + (x - x0) * e.frac.1 * secTicks * d.frac.1) (e.frac.2 * per) (d.frac.1, 1)
    if d.m = 0 then other else conv q.1 q.2
  | true, true, _, _ =>
    match plVolts r c per (s.unit p).eng.plV x ff with
    | some v => roundFree (v * 0x18000 * fm.2) (max 1 (2 ^ 64 * fm.1))
    | none => other
  | _, _, _, _ => other

/-- The sample that the plausibility slot works on becomes the past: V_n of the parallel model in current force, else the measured
voltage, from which the model starts (R141 states no start; DESIGN CHOICE), and the voltage sample. -/
def State.plKeep (s : State) (p : Nat) (x : Int) : State :=
  let e := (s.unit p).eng
  let v := if s.forcesI p && s.is (ENG_PL_CFG p) ENG_PL_CFG.MODEL && e.lastOk then
      plVolts (s.rd (ENG_PL_R p)) (s.rd (ENG_PL_C p)) (s.period (p / 16)) e.plV x (s.fullForced p) else none
  s.modUnit p (fun u => { u with eng := { u.eng with plV := v.getD (inUnits e.lastV (s.fullV p)), lastF := e.lastV } })

/-- The plausibility slot of unit `p` on the sample before (R141 to R143). DESIGN CHOICE (R142 asks only for a residual within the
envelope): a sample that the count passes over (SETTLE, saturated, switch open) is neither learned from nor shown in ENG_PL_RES. -/
def State.plCheck (s : State) (p : Nat) : State :=
  let e := (s.unit p).eng
  let x := if s.forcesI p then e.lastI else e.lastV
  let m := if s.forcesI p then e.lastV else e.lastI
  let cfg := ENG_PL_CFG p
  let age (s : State) : State :=
    s.modUnit p (fun u => { u with eng := { u.eng with plAge := if u.eng.plAge = 0 then 0 else u.eng.plAge + 1 } })
  let cnt := s.rdF (ENG_PL_RES p) ⟨24, 8⟩
  if !e.lastOk then (age s).plKeep p x
  else
    let res := m - s.plPrediction p x e.lastF
    let inside := res.natAbs ≤ 3 * s.rdF cfg ENG_PL_CFG.ENV
    let shown := if -(2 ^ 19) ≤ res && res < 2 ^ 19 then unsigned 20 res else (Config.plOver res).toNat
    let s1 := s.wrF (ENG_PL_RES p) ⟨0, 20⟩ shown
    let s2 := if s.is cfg ENG_PL_CFG.LEARN && inside then
        let z : PlSample :=
          { r := s.rd (ENG_PL_R p), c := s.rd (ENG_PL_C p), mu := max 1 (s.rdF cfg ENG_PL_CFG.MU), model := s.is cfg ENG_PL_CFG.MODEL
            forcesI := s.forcesI p, fsForced := s.fullForced p, fsMeas := if s.forcesI p then s.fullV p else s.fullI p
            period := s.period (p / 16), x := x, x0 := e.lastF, v0 := e.plV, m := m, res := res }
        ((s1.wr (ENG_PL_R p) (Config.plAdaptR z)).wr (ENG_PL_C p) (Config.plAdaptC z)).modUnit p
          (fun u => { u with eng := { u.eng with plSeen := min 4096 (u.eng.plSeen + 1) } })
      else s1
    if s.is cfg ENG_PL_CFG.EN && s.is (ENG_USTAT p) ENG_USTAT.PL_LEARNED then
      let s3 := (s2.plKeep p x).flag (ENG_USTAT p) ENG_USTAT.PL_OUT (!inside)
      if inside then
        let live := e.plLive
        let s4 := (s3.wrF (ENG_PL_RES p) ⟨24, 8⟩ 0).modUnit p (fun u =>
          { u with eng := { u.eng with plAge := 0, plLive := false } })
        if live then s4.unliveUnless .feedbackImplausible (p / 64) (fun s q => (s.unit q).eng.plLive) else s4
      else
        (s3.wrF (ENG_PL_RES p) ⟨24, 8⟩ (min (max 1 (s.rdF cfg ENG_PL_CFG.COUNT)) (cnt + 1))).modUnit p (fun u =>
          { u with eng := { u.eng with plAge := if cnt = 0 then 2 else u.eng.plAge + 1 } })
    else (age s2).plKeep p x

/-! ### The repetitive controller -/

/-- The repetitive controller of unit `p` works: it neither is off nor pauses (R131). -/
def State.rcOn (s : State) (p : Nat) : Bool :=
  s.is (ENG_UCTRL p) ENG_UCTRL.RC_EN && s.is (ENG_USTAT p) ENG_USTAT.AUTO_ACT && !(s.unit p).eng.limited &&
    !(s.unit p).eng.intStop

/-- LEN of unit `p`'s table. -/
def State.rcLen (s : State) (p : Nat) : Nat := s.rdF (ENG_RC_CFG p) ENG_RC_CFG.LEN

/-- The index advances (R129, R130): an update that was still due is skipped, in a pause too. -/
def State.rcAdvance (s : State) (p i : Nat) : State :=
  let s1 := if (s.unit p).eng.rcAdv then s.ember p ENG_EMBER.RC_SKIP else s
  (s1.wrN (ENG_RC_IDX p) i).modUnit p (fun u => { u with eng := { u.eng with rcCnt := 0, rcAdv := true } })

/-- The table index at this loop sample (R129). DEDUCED: the index is held from the sample at which an advance past LEN is withheld, and
RC_LATE is set there. DESIGN CHOICE (R129 and R130 do not say it): a period event that finds the index at 0 already advances nothing, so that no update
becomes due by it. -/
def State.rcIndex (s : State) (p : Nat) : State :=
  if !s.is (ENG_UCTRL p) ENG_UCTRL.RC_EN then s
  else
    let e := (s.unit p).eng
    let i := s.rdN (ENG_RC_IDX p) % 1024
    if e.rcReset then
      (if i = 0 then s.modUnit p (fun u => { u with eng := { u.eng with rcCnt := 0 } }) else s.rcAdvance p 0).modUnit p
        (fun u => { u with eng := { u.eng with rcReset := false } })
    else if e.rcCnt < s.rdF (ENG_RC_DIV p) ENG_RC_DIV.DIV then
      s.modUnit p (fun u => { u with eng := { u.eng with rcCnt := u.eng.rcCnt + 1 } })
    else if s.rcLen p ≤ i then
      (s.wrN (ENG_RC_IDX p) (s.rcLen p)).ember p ENG_EMBER.RC_LATE
    else s.rcAdvance p (i + 1)

/-- Entry `k` of unit `p`'s table, in Q20.12; none where its word is uncorrectable. -/
def State.rcEntry (s : State) (p k : Nat) : State × Option Int :=
  let m := s.memGet (s.learnTable p + 4 * (k % (s.rcLen p + 1))) 4
  (m.1, if m.2.2 then none else some (signed 32 m.2.1))

/-- rc_n of R119 in Q24.16. The forced path's integrator takes up the change of rc_n where a pause begins or ends (R131). -/
def State.rcTerm (s : State) (p : Nat) : State × Int :=
  let on := s.rcOn p
  let m := if on then s.rcEntry p (s.rdN (ENG_RC_IDX p) % 1024 + s.rdF (ENG_RC_CFG p) ENG_RC_CFG.LEAD) else (s, none)
  let rc := (m.2.getD 0) * 16
  let e := (s.unit p).eng
  let paused := s.is (ENG_UCTRL p) ENG_UCTRL.RC_EN && !on
  let edge := s.is (ENG_UCTRL p) ENG_UCTRL.RC_EN && paused != e.rcPaused
  let i := satS 40 (e.f.integ + (if edge then e.rcLast - rc else 0))
  let s1 := m.1.modUnit p (fun u =>
    { u with eng := { u.eng with f := { u.eng.f with integ := i.1 }, rcRun := on, rcPaused := paused, rcLast := rc } })
  (if i.2 then s1.ember p ENG_EMBER.ACC_SAT else s1, rc)

/-- The update of R130 on unit `p`, with the forced-path error `e`. -/
def State.rcUpdate (s : State) (p : Nat) (e : Int) : State :=
  let k := s.rdN (ENG_RC_IDX p) % 1024
  let n := s.rcLen p + 1
  let a := s.rcEntry p (k + n - 1)
  let b := a.1.rcEntry p k
  let c := b.1.rcEntry p (k + 1)
  let s1 := c.1.modUnit p (fun u => { u with eng := { u.eng with rcAdv := false } })
  match a.2, b.2, c.2 with
  | some x, some y, some z =>
    let f : Int := min 0x8000 (s.rdF (ENG_RC_FQ p) ENG_RC_FQ.FORGET)
    let q : Int := min 0x2000 (s.rdF (ENG_RC_FQ p) ENG_RC_FQ.QF)
    let l := signed 24 (s.rdN (ENG_RC_GAIN p))
    let xf := (s.coefIn p 7 s.now).toNat % 16
    let v := roundFree (f * (q * x + (2 ^ 15 - 2 * q) * y + q * z) + l * (2 ^ xf : Nat) * e * 2 ^ 19) (2 ^ 30)
    let r := clampI (-0x7FFFFFFF) 0x7FFFFFFF v
    let s2 := s1.memPut (s.learnTable p + 4 * k) 4 (unsigned 32 r)
    if r = v then s2 else s2.ember p ENG_EMBER.RC_SAT
  | _, _, _ => s1

/-! ### The control law -/

/-- Coefficient `c` of unit `p` as a signed Q1.23 mantissa in the present period (R118, R132). -/
def State.coefQ (s : State) (p c : Nat) : Int := signed 24 (s.coefIn p c s.now).toNat

/-- A product in Q24.16 of a Q1.23 mantissa, a UQ1.15 gain, an exponent and an integer, and whether it left the 40 bits (R118,
R133). -/
def prodQ (k g : Int) (x : Nat) (e : Int) : Int × Bool := satS 40 (roundDiv (k * (g * 2 ^ x) * e) (2 ^ 22))

/-- The terms of one path (R119): p, ki·2^x·e, the new derivative state, whether one saturated. -/
structure PathTerms where
  p : Int
  i : Int
  df : Int
  sat : Bool
  deriving DecidableEq, Repr

/-- The terms of a path with error `e` from its coefficients (R119): `c` is the index of its KP. Every product and the derivative's sum are
held to the 40 bits of R118. -/
def State.pathTerms (s : State) (p c : Nat) (g : Int) (x : Nat) (st : PathState) (e : Int) : PathTerms :=
  let dp := s.coefQ p 6
  let da := satS 40 (roundDiv (dp * st.df) (2 ^ 23))
  let db := satS 40 (roundDiv ((2 ^ 23 - dp) * s.coefQ p (c + 2) * (g * 2 ^ x) * (e - st.ePrev)) (2 ^ 45))
  let d := satS 40 (da.1 + db.1)
  let kp := prodQ (s.coefQ p c) g x e
  let ki := prodQ (s.coefQ p (c + 1)) g x e
  { p := kp.1, i := ki.1, df := d.1, sat := kp.2 || ki.2 || da.2 || db.2 || d.2 }

/-- One path evaluated: its state after the sample but for the selection, its terms without the integrator, its candidate
output, whether an accumulator saturated, and whether a preset did. -/
structure PathEval where
  st : PathState
  held : Int
  u : Int
  accSat : Bool
  preSat : Bool
  deriving DecidableEq, Repr

/-- A path's evaluation: integration, or the preset of its integrator to the output `pre` (R119, R121, R137). Every sum saturates at
the 40 bits of R118. -/
def evalPath (st : PathState) (t : PathTerms) (rest : Int) (e : Int) (pre : Option Int) : PathEval :=
  let h := satS 40 (t.p + t.df + rest)
  let i := match pre with
    | some u => satS 40 (u - h.1)
    | none => satS 40 (st.integ + t.i)
  let u := satS 40 (h.1 + i.1)
  { st := { integ := i.1, df := t.df, ePrev := e, terms := h.1 }, held := h.1, u := u.1,
    accSat := t.sat || h.2 || u.2 || (pre.isNone && i.2), preSat := pre.isSome && i.2 }

/-- The effective compliance threshold of unit `p` in codes (R86, R399). -/
def State.threshold (s : State) (p : Nat) : Int :=
  let l : Int := 3 * s.rdF (CH_CMPL p) CH_CMPL.LIMIT
  if s.forcesI p then l else roundFree (l * s.govFactor p) (2 ^ 15)

/-- The limited quantity's sample `x` of unit `p` reaches its threshold (R87). DESIGN CHOICE (R98 and R99 give a follower its master's
limit, which limits the gang's current where the master forces voltage): such a follower, which forces current, has no limit on its
voltage; its current is limited in the target that the master's measured current gives it. -/
def State.reaches (s : State) (p : Nat) (x : Int) : Bool :=
  !(s.follower p && !s.is (CH_MODE (s.masterOf p)) CH_MODE.FMODE) && s.threshold p ≤ (x.natAbs : Int)

/-- The current target that the kind 2 slot of a follower's gang gives, in Q2.30 (R97, R125). DESIGN CHOICE (R125 names the input and
not the output's unit): ENG_SUP_OUT of such a slot reads in DAC LSB, 0x6_0000 being the follower's full scale. -/
def State.followerTarget (s : State) (p : Nat) : Int :=
  let t := p / 16
  match (List.range 8).find? (fun n =>
      s.rdF (ENG_SUP_CFG t n) ENG_SUP_CFG.KIND = 2 && s.rdF (ENG_SUP_CFG t n) ENG_SUP_CFG.UNIT = s.masterOf p % 16) with
  | some n => clampI (-one30) one30 (roundTie (s.rdI (ENG_SUP_OUT t n) * 2 ^ 30) 0x60000)
  | none => 0

/-- The DAC offset of the kind 5 slots of unit `p` (R125). DESIGN CHOICE (R125 does not say it): the outputs of several kind 5 slots that
name one unit add up. -/
def State.supOffset (s : State) (p : Nat) : Int :=
  (((List.range 8).filter (fun n =>
    s.rdF (ENG_SUP_CFG (p / 16) n) ENG_SUP_CFG.KIND = 5 && s.rdF (ENG_SUP_CFG (p / 16) n) ENG_SUP_CFG.UNIT = p % 16)).map
    (fun n => s.rdI (ENG_SUP_OUT (p / 16) n))).sum

/-- The set-point r_n of unit `p` with the NCO added and clipped (R84, R105, R108); a follower's comes from its slot, on a ramped path
from its generator (R76). -/
def State.setpointNow (s : State) (p : Nat) : State × Int :=
  if s.follower p && (s.unit p).safe ≠ .ramp then (s, s.followerTarget p)
  else
    let u := s.unit p
    s.clipSetpt p (u.gen.out + ncoOut u.gen.ampPos (ncoPhase u.nco.ftw (s.rdN (CH_NCO_PHASE p) % 2 ^ 16) s.now))

/-- The unit enters compliance in this period (R87, R138): at ECLK cycle 28. -/
def State.complianceEdge (s : State) (p : Nat) (auto : Bool) : State :=
  let s1 := (s.flag (CH_STAT p) CH_STAT.IN_CMPL (auto || s.is (CH_STAT p) CH_STAT.IN_CMPL)).flag (CH_STAT p)
    CH_STAT.CMPL_SEEN true
  ((s1.emit (p / 64) (unitProd p evCompliance) (s.now + 56)).plRestart p).seqCompliance p

/-- The sample of unit `p` was taken in compliance (R87, R138, R201). -/
def State.complianceMark (s : State) (p : Nat) : State :=
  let s1 := s.modMea p (fun m => { m with cmplAt := some s.now })
  match (s.seq (p / 16)).conf with
  | some c =>
    if s.is (CH_STAT p) CH_STAT.IN_CMPL && bitOf c.umask (p % 16) then s1.modSeq (p / 16) (fun q => { q with conf := some { c with cmpl := true } }) else s1
  | none => s1

/-- The DAC of unit `p` latches `code`, which counts under force mode and forced range `k` (R116, R145). -/
def State.latchCode (s : State) (p code : Nat) (k : Nat × Nat) : State :=
  (s.wrN (CH_DAC p) code).modUnit p (fun u =>
    { u with eng := { u.eng with
        codes := pushHist 256 { code := code, fmode := k.1, rng := k.2 } u.eng.codes
        uSel := ((code : Int) - midCode) * 2 ^ 16 } })

/-- ENG_INT shows the selected path's integrator (R150). -/
def State.showInt (s : State) (p : Nat) (i : Int) : State :=
  (s.wrN (ENG_INT_LO p) (unsigned 40 i % 2 ^ 32)).wrN (ENG_INT_HI p) (unsigned 40 i / 2 ^ 32)

/-- The open-loop movement of the code (R76, R144): one period at the velocity limit. -/
def State.moveCode (s : State) (p target : Nat) : Int :=
  approach (s.unit p).eng.uSel (((target : Int) - midCode) * 2 ^ 16) (roundFree ((s.genLim p).vp * 0x60000) (2 ^ 28))

/-- The code that a unit out of automatic latches (R75, R76, R138, R144): the output in Q24.16, and the code. -/
def State.manualCode (s : State) (p : Nat) : Int × Nat :=
  let u := s.unit p
  let plain (c : Nat) : Int × Nat := (((c : Int) - midCode) * 2 ^ 16, c)
  let move (t : Nat) : Int × Nat :=
    let x := s.moveCode p t
    (x, s.clipCode p (midCode + roundDiv x (2 ^ 16)))
  if u.safe = .openLoop then move midCode
  else if s.is (ENG_USTAT p) ENG_USTAT.LOF_RAMP then move u.eng.lofTarget
  else if s.is (CH_STAT p) CH_STAT.SAFE || u.swReq ≠ none then plain midCode
  else plain (s.clipCode p (s.rdN (ENG_MANUAL p)))

/-- Both paths of unit `p` evaluated on a sample (R118 to R121): the forced path, the limited path, the limited target's
sign, whether the threshold is reached. -/
structure LaneEval where
  f : PathEval
  l : PathEval
  sign : Int
  thr : Bool
  deriving DecidableEq, Repr

/-- The output that a preset asks both paths to give (R77, R121, R137), less the offset that a kind 5 slot adds to it (R125). -/
def State.presetOut (s : State) (p : Nat) : Option Int :=
  let less (u : Int) : Option Int := some (u - s.supOffset p * 2 ^ 16)
  match (s.unit p).eng.preset with
  | .none => none
  | .auto => less (((s.clipCode p (s.rdN (ENG_MANUAL p)) : Int) - midCode) * 2 ^ 16)
  | .start => less (((s.rdN (CH_DAC p) : Int) - midCode) * 2 ^ 16)
  | .range => less (s.unit p).eng.uSel

/-- The gain correction of the booster outer loop in effect in region `t` (R102, R125). -/
def State.stageTrim (s : State) (t : Nat) : Int :=
  match (List.range 8).find? (fun n => s.rdF (ENG_SUP_CFG t n) ENG_SUP_CFG.KIND = 3) with
  | some n => s.rdI (ENG_SUP_OUT t n)
  | none => 0

/-- The sign of the plant of unit `p` (R102, R123): −1 for a booster stage with STAGE_INV = 1. -/
def State.plantSign (s : State) (p : Nat) : Int := if s.isBoost p && s.is (CH_BST p) CH_BST.STAGE_INV then -1 else 1

/-- The factor of the forced path's gains, in 2^−15: the range gain (R133), or what the stage's gain, sign, bandwidth and correction give
both paths and the feed-forward of a booster channel, where IRNG has no effect (R102). -/
def State.pathGain (s : State) (p : Nat) : Int :=
  let t := p / 16
  if s.isBoost p then s.plantSign p * Config.stageFactor (s.region t).stage.1 (s.region t).stage.2 (s.stageTrim t)
  else s.rdF (ENG_RGAIN t (s.irng p)) ENG_RGAIN.GAIN

/-- v_n of unit `p` for the set-point `r` of this period (R120). -/
def State.feedVel (s : State) (p : Nat) (r : Int) : Int :=
  if s.follower p then 0 else roundTie ((r - (s.unit p).eng.rPrev) * 0x60000) (2 ^ 30)

/-- The set-point of this period and its v_n become those of the period before (R120). -/
def State.keepVel (s : State) (p : Nat) (r : Int) : State :=
  let v := s.feedVel p r
  s.modUnit p (fun u => { u with eng := { u.eng with rPrev := r, vPrev := v } })

/-- The evaluation of unit `p`'s lane on the dither-corrected samples `xv` and `xi` (R119). DEDUCED (R119 writes one u_n for both, R120
keeps feed-forward off the limited path): rc_n, a correction of the forced quantity, enters the forced path alone. DESIGN CHOICE (R118
gives the limited target the sign of the limited quantity's sample): a sample of exactly 0 counts as positive. -/
def State.lane (s : State) (p : Nat) (xv xi r rc : Int) : State × LaneEval :=
  let c := s.forcesI p
  let e := (s.unit p).eng
  let kx := (s.coefIn p 7 s.now).toNat
  let g := s.pathGain p
  let t3 := s.threshold p
  let ml := if c then xv else xi
  let ef := roundTie (r * 0x18000) (2 ^ 30) - (if c then xi else xv)
  let el := (if 0 ≤ ml then t3 else -t3) - ml
  let v := s.feedVel p r
  let acc := if s.follower p then 0 else v - e.vPrev
  let xf := kx / 256 % 16
  let gf := if s.isBoost p then g else 0x8000
  let fv := prodQ (s.coefQ p 8) gf xf v
  let fa := prodQ (s.coefQ p 9) gf xf acc
  let ff := if s.is (ENG_UCTRL p) ENG_UCTRL.FF_EN then satS 40 (fv.1 + fa.1) else (0, false)
  let rest := satS 40 (ff.1 + rc)
  let pre := if s.is (ENG_USTAT p) ENG_USTAT.AUTO_ACT then s.presetOut p else none
  let f := evalPath e.f (s.pathTerms p 0 g (kx % 16) e.f ef) rest.1 ef pre
  let f := { f with accSat := f.accSat || rest.2 || ff.2 }
  let l := evalPath e.l (s.pathTerms p 3 gf (kx / 16 % 16) e.l el) 0 el pre
  (s.keepVel p r,
   { f := f, l := l, sign := if 0 ≤ ml then 1 else -1, thr := s.reaches p ml })

/-- Ember flags of a lane's evaluation (R127, R137). -/
def State.laneEmbers (s : State) (p : Nat) (x : LaneEval) : State :=
  let s1 := if x.f.accSat || x.l.accSat then s.ember p ENG_EMBER.ACC_SAT else s
  if x.f.preSat || x.l.preSat then s1.ember p ENG_EMBER.PRE_SAT else s1

/-- The path not selected tracks the latched output `out`, less what is added to it after the law (R124). -/
def trackPath (x : PathEval) (out : Int) : PathState × Bool :=
  let i := satS 40 (out - x.held)
  ({ x.st with integ := i.1 }, i.2)

/-- The selection of R123: the limited path is selected, and the next period returns to the forced path. -/
def selectPath (limited ret : Bool) (x : LaneEval) (g : Int) : Bool × Bool :=
  if !limited || ret then (x.thr && !ret, false) else (true, decide (x.sign * g * (x.f.u - x.l.u) ≤ 0))

/-- The closing lane of a unit in automatic (R122 to R124). -/
def State.closeAuto (s : State) (p : Nat) (x : LaneEval) : State :=
  let e := (s.unit p).eng
  let sel := selectPath e.limited e.ret x (s.plantSign p)
  let y := if sel.1 then x.l else x.f
  let off := s.supOffset p
  let raw : Int := midCode + roundTie y.u (2 ^ 16) + off
  let code := s.clipCode p raw
  let clipped := (code : Int) ≠ raw
  let kept : PathState := { y.st with integ := if clipped && e.preset = .none then (if sel.1 then e.l else e.f).integ
                                                else y.st.integ }
  let out : Int := ((code : Int) - midCode) * 2 ^ 16
  let tr := trackPath (if sel.1 then x.f else x.l) (out - off * 2 ^ 16)
  let s1 := if sel.1 && !s.is (CH_STAT p) CH_STAT.IN_CMPL then s.complianceEdge p true
    else if !sel.1 && s.is (CH_STAT p) CH_STAT.IN_CMPL then
      (s.flag (CH_STAT p) CH_STAT.IN_CMPL false).emit (p / 64) (unitProd p evCmplExit) (s.now + 56)
    else s
  let s2 := if clipped then s1.ember p ENG_EMBER.INT_STOP_DAC else s1
  let s3 := if tr.2 then s2.ember p ENG_EMBER.ACC_SAT else s2
  let s4 := if sel.1 then s3.ember p ENG_EMBER.INT_STOP_XOVER else s3
  let s5 := (s4.modUnit p (fun u =>
    { u with eng := { u.eng with
        f := if sel.1 then tr.1 else kept, l := if sel.1 then kept else tr.1
        limited := sel.1, ret := sel.2, intStop := clipped, preset := .none } })).latchCode p code (s.forcedKey p)
  (if x.thr || sel.1 then s5.complianceMark p else s5).showInt p kept.integ

/-- ENG_MANUAL follows a code that moves open-loop (R136, R144): each latch of a unit in manual takes ENG_MANUAL, and the transfer
that ends a hold continues the held code (R146). -/
def State.followMove (s : State) (p code : Nat) : State :=
  if (s.unit p).safe = .openLoop || s.is (ENG_USTAT p) ENG_USTAT.LOF_RAMP then s.wrN (ENG_MANUAL p) code else s

/-- The closing lane of a unit out of automatic (R136, R138): it computes on, and its code is not latched, so that no clip of it
counts as one of R122. -/
def State.closeManual (s : State) (p : Nat) (x : LaneEval) : State :=
  let e := (s.unit p).eng
  let raw : Int := midCode + roundTie x.f.u (2 ^ 16)
  let clipped := (s.clipCode p raw : Int) ≠ raw
  let kept : PathState := { x.f.st with integ := if clipped then e.f.integ else x.f.st.integ }
  let m := s.manualCode p
  let tr := trackPath x.l m.1
  let edge := x.thr && (s.unit p).mea.cmplAt ≠ (s.region (p / 16)).lastSample
  let s1 := if edge then s.complianceEdge p false else s
  let s3 := ((s1.followMove p m.2).latchCode p m.2 (s.forcedKey p)).modUnit p (fun u =>
    { u with eng := { u.eng with f := kept, l := tr.1, limited := false, ret := false, intStop := clipped, preset := .none,
                                 uSel := m.1 } })
  (if x.thr then s3.complianceMark p else s3).showInt p kept.integ

/-- The period whose latch repeats the previous code (R92, R95): the forced value goes on, so uSel keeps it in the scaling in
force (R121), and the code counts under the range it was latched under (R145). The generator goes on too (R120); the engine uses no
sample of the overlap (R92), so that no learning slot takes an error of this period. -/
def State.closeHeld (s0 : State) (p : Nat) (xv xi : Int) : State :=
  let set := s0.setpointNow p
  let s := set.1.keepVel p set.2
  let e := (s.unit p).eng
  let ml := if s.forcesI p then xv else xi
  let key := (e.codes.head?.map (fun c => (c.fmode, c.rng))).getD (s.forcedKey p)
  let s1 := (s.latchCode p (s.rdN (CH_DAC p)) key).modUnit p (fun u =>
    { u with eng := { u.eng with uSel := e.uSel, rcRun := false } })
  if s.reaches p ml || (s.unit p).eng.limited then s1.complianceMark p else s1

/-- The law drives unit `p`'s DAC in this period: automatic is in effect, the unit has left the state of R75 and its switch does not
wait for its first boundary (R75, R77), and no open-loop movement runs (R144). -/
def State.lawDrives (s : State) (p : Nat) : Bool :=
  s.is (ENG_USTAT p) ENG_USTAT.AUTO_ACT && !s.is (CH_STAT p) CH_STAT.SAFE && (s.unit p).swReq = none &&
    (s.unit p).safe ≠ .openLoop && (s.unit p).eng.lof = .none

/-- The lane of unit `p` on the present sample (R116). -/
def State.engineUnit (s : State) (r : RawCodes) (p : Nat) : State :=
  let xv := s.roleVal r p 0
  let xi := s.roleVal r p 1
  if (s.unit p).rngHold then s.closeHeld p xv xi
  else
    let s1 := s.rescaleNow p
    let set := s1.setpointNow p
    let rc := set.1.rcTerm p
    let x := rc.1.lane p xv xi set.2 rc.2
    let s2 := x.1.laneEmbers p x.2
    if s.lawDrives p then s2.closeAuto p x.2 else s2.closeManual p x.2

/-! ### The generator -/

/-- One period of unit `p`'s generator (R155 to R158, R163); a follower's runs on a ramped path only (R76). -/
def State.genPeriod (s0 : State) (p : Nat) : State :=
  if s0.follower p && (s0.unit p).safe ≠ .ramp then s0
  else
    let s := if s0.follower p then s0.refreshNf p else s0
    let s1 := s.modUnit p (fun u => { u with gen := u.gen.takeSets s.now })
    let t := s1.genTarget p
    let l := s1.genLim p
    let amp := s1.ampTarget p
    let s2 := t.1.modUnit p (fun u =>
      { u with gen := { u.gen.step l t.2 with ampPos := approach u.gen.ampPos amp l.vp } })
    let g := (s2.unit p).gen
    let s3 := if s.rdI (PRF_TARGET p) ≠ t.2 && g.out ≠ t.2 then s2.flag (PRF_USTAT p) PRF_USTAT.PROFILE_LIMITED true else s2
    (((s3.wr (PRF_TARGET p) (s32 t.2)).wr (PRF_OUT p) (s32 g.out)).flag (PRF_USTAT p) PRF_USTAT.MOVING
      (!g.atRest t.2)).flag (PRF_USTAT p) PRF_USTAT.AMP_MOVING (g.ampPos ≠ amp)

/-- NCO_ZERO at a boundary where the phase has wrapped (R108), and the phase of the present latch. -/
def State.ncoTick (s : State) (p : Nat) : State :=
  let u := s.unit p
  let ofs := s.rdN (CH_NCO_PHASE p) % 2 ^ 16
  let now := ncoPhase u.nco.ftw ofs s.now
  let s1 := s.modUnit p (fun u => { u with nco := { u.nco with phase := now } })
  if s.period (p / 16) ≤ s.now && now < ncoPhase u.nco.ftw ofs (s.now - s.period (p / 16)) then s1.emitUnit p evNcoZero else s1

/-! ### Charge, dissipation, open load -/

/-- The charge of a sample in 2^−64 C (R283). -/
def State.chargeOf (s : State) (p : Nat) (xv xi : Int) : State × Int :=
  let reg (k : Nat) : Nat := bankReg p (s.bankAct p) (s.bankEntry p true) k
  let v := f64Div (f64Mul (f64OfInt xv) (s.fsF64 p false)) (f64OfInt 0x18000)
  let d := f64Sub (f64OfInt xi) (f64OfRat (s.rdI (reg 0)) (2 ^ 14))
  let i := f64Div (f64Mul (f64Mul (f64OfRat (s.rdN (reg 1)) (2 ^ 30)) d) (s.fsF64 p true)) (f64OfInt 0x18000)
  let c := s.pathCal p true
  let cal := match s.siteOf p with
    | some k => s.ctxFlag (p / 64) k 2
    | none => false
  let i2 := if cal then f64Sub (f64Add (f64Mul c.2.1.2.1 i) c.2.1.1) (f64Mul c.2.1.2.2 v) else i
  let x := f64Mul (f64Mul i2 (f64OfRat (s.period (p / 16)) secTicks)) (f64OfInt (2 ^ 64))
  let q := match f64u x with
    | .fin _ => roundDiv (f64ToRat x).1 (f64ToRat x).2
    | _ => Config.chargeNan x
  (c.1, q)

/-- The sample's charge joins the pending register of unit `p`; the overlap sample of a range change repeats the charge of the
sample before it, which is 0 where the switch was open (R283, R284, R286). -/
def State.accumulate (s : State) (r : RawCodes) (p : Nat) : State :=
  let on := s.accOn p
  if !on && !s.connected p then s.modUnit p (fun u => { u with lastQ := 0, lastOvr := false })
  else if (s.unit p).rngHold then
    if on then s.modUnit p (fun u => { u with accQ := u.accQ + u.lastQ, accOvr := u.accOvr || u.lastOvr }) else s
  else
    let x := s.chargeOf p (s.roleVal r p 0) (s.roleVal r p 1)
    let sat := saturated (s.roleCode r p 1)
    (if on then x.1 else s).modUnit p (fun u =>
      { u with
        accQ := if on then u.accQ + x.2 else u.accQ, accOvr := u.accOvr || (on && sat)
        lastQ := x.2, lastOvr := sat })

/-- The sums of the dissipation estimate (R399): voltage in units of 0.25 V over 0x1_8000, current in nA over 0x1_8000. -/
def State.powerSum (s : State) (r : RawCodes) (p : Nat) : State :=
  let fv : Int := [5, 20, 48].getD (s.rdF (CH_MODE p) CH_MODE.VRNG) 48
  let fi : Int := (10 ^ s.irng p : Nat)
  s.modUnit p (fun u =>
    { u with pwV := u.pwV + s.roleVal r p 0 * fv, pwI := u.pwI + s.roleVal r p 1 * fi, pwN := u.pwN + 1 })

/-- The open-load count of unit `p` (R90). -/
def State.openLoadCount (s : State) (r : RawCodes) (p : Nat) : State :=
  let set := s.rdI (CH_SETPT p)
  let hit := s.forcesI p && s.is (CH_CTRL p) CH_CTRL.OLD_EN && decide (2 ^ 30 ≤ 100 * set.natAbs) &&
    decide ((s.unit p).mea.cmplAt = some s.now) &&
    decide ((s.roleVal r p 1).natAbs * 100 * 2 ^ 30 < set.natAbs * 0x18000)
  if hit then s.modUnit p (fun u => { u with olCnt := min 16 (u.olCnt + 1) })
  else
    let live := (s.unit p).olLive
    let s1 := s.modUnit p (fun u => { u with olCnt := 0, olLive := false })
    if live then s1.unliveUnless .openLoad (p / 64) (fun s q => (s.unit q).olLive) else s1

/-! ### Supervisory slots -/

/-- Coefficient register `c` of supervisory slot `n`: KP, KI, KD, KEXP (R149). -/
def supReg (t n c : Nat) : Nat := ENG_SUP_KP t n + 4 * c

/-- The value of a supervisory coefficient in the present evaluation (R132). -/
def State.supCoef (s : State) (t n c : Nat) : Word :=
  match (((s.region t).sup.getD n {}).wr).find? (fun e =>
    e.idx = c && (match e.at' with | none => true | some a => s.now < s.eligible t a + s.period t)) with
  | some e => w32 e.old
  | none => s.rd (supReg t n c)

/-- The state with a supervisory slot changed. -/
def State.modSup (s : State) (t n : Nat) (g : SupState → SupState) : State :=
  s.modRegion t (fun r => { r with sup := r.sup.zipIdx.map (fun x => if x.2 = n then g x.1 else x.1) })

/-- A write of a supervisory coefficient (R132). -/
def State.supWrite (s : State) (t n c : Nat) (v : Word) : State :=
  (s.modSup t n (fun x => { x with wr := x.wr ++ [{ at' := some s.now, idx := c, old := s.rdN (supReg t n c) }] })).store
    (supReg t n c) v

/-- KIND of slot `n`. -/
def State.supKind (s : State) (t n : Nat) : Nat := s.rdF (ENG_SUP_CFG t n) ENG_SUP_CFG.KIND

/-- A coefficient write that is not yet in force in the next period (R132). -/
def State.coefWaits (s : State) (t : Nat) (e : CoefWrite) : Bool :=
  match e.at' with
  | none => true
  | some a => s.now < s.eligible t a

/-- Supervisory slot `n` on the present sample with error `e` (R125, R126). DESIGN CHOICE (R149 gives a slot no DPOLE register): the
derivative pole of R119 is 0 in a supervisory slot. -/
def State.supEval (s : State) (t n : Nat) (e : Int) : State :=
  let x := (s.region t).sup.getD n {}
  let k (c : Nat) : Int := signed 24 (s.supCoef t n c).toNat
  let ex := (s.supCoef t n 3).toNat % 16
  let pt := prodQ (k 0) 0x8000 ex e
  let it := prodQ (k 1) 0x8000 ex e
  let dt := prodQ (k 2) 0x8000 ex (e - x.ePrev)
  let i := satS 40 (x.integ + it.1)
  let a := satS 40 (pt.1 + i.1)
  let u := satS 40 (a.1 + dt.1)
  let lim : Int := s.rdF (ENG_SUP_LIM t n) ENG_SUP_LIM.LIM
  let o := roundTie u.1 (2 ^ 16)
  let oc := clampI (-lim) lim o
  let s1 := s.modSup t n (fun x =>
    { x with integ := i.1, df := dt.1, ePrev := e, next := oc, wr := x.wr.filter (s.coefWaits t) })
  let s2 := if pt.2 || it.2 || dt.2 then s1.supEmber t n 0 else s1
  let s3 := if i.2 then s2.supEmber t n 1 else s2
  let s4 := if a.2 || u.2 then s3.supEmber t n 2 else s3
  if oc = o then s4 else s4.supEmber t n 3

/-- The supervisory outputs of the sample before take effect (R116, R125). -/
def State.supApply (s : State) (t : Nat) : State :=
  s.each (List.range 8) (fun s n =>
    if 2 ≤ s.supKind t n then s.wr (ENG_SUP_OUT t n) (s32 ((s.region t).sup.getD n {}).next) else s)

/-- A unit whose table a learning slot would update now (R130): the controller ran at this sample (R131). -/
def State.rcDue (s : State) (p : Nat) : Bool := (s.unit p).eng.rcRun && (s.unit p).eng.rcAdv

/-- A learning slot (R130). DESIGN CHOICE (R130 says round robin, not whether a turn can pass unused): a turn of a unit with no update
due passes on to the next unit that has one. -/
def State.learnSlot (s : State) (t : Nat) : State :=
  let r := (s.region t).robin
  match ((List.range 16).map (fun j => 16 * t + (r + j) % 16)).find? (fun p => s.rcDue p) with
  | none => s
  | some p =>
    (s.rcUpdate p (s.unit p).eng.f.ePrev).modRegion t (fun x => { x with robin := (p % 16 + 1) % 16 })

/-- The supervisory and learning slots on the present sample (R115, R125). DESIGN CHOICE (R125 names a slot's input and not how its
error is formed): a kind 2 slot evaluates the master's current sample itself, the other kinds the errors given. DESIGN CHOICE (R125's table ends
at kind 5): a slot with one of the codes 6 to 15 evaluates its PID too, and its output acts on nothing. -/
def State.supSlots (s : State) (t : Nat) (sup : List Int) : State :=
  s.each (List.range 8) (fun s n =>
    match s.supKind t n with
    | 0 => s
    | 1 => s.learnSlot t
    | 2 => s.supEval t n (s.unit (16 * t + s.rdF (ENG_SUP_CFG t n) ENG_SUP_CFG.UNIT)).eng.lastI
    | _ => s.supEval t n (sup.getD n 0))

/-! ### Gangs -/

/-- The members with their switches closed are counted anew at the boundary (R98, R100). -/
def State.gangCheck (s : State) (p : Nat) : State :=
  let was := s.rdF (CH_GANG p) CH_GANG.ACTIVE
  let s1 := s.refreshActive p
  if s.master p && s.closed p && s1.rdF (CH_GANG p) CH_GANG.ACTIVE < was then s1.raiseUnit .gangDegraded p
  else if s.follower p && s.closed p && !s.closed (s.masterOf p) && !s.covered p then
    s1.raiseUnit .gangMasterLost p
  else s1

/-! ### The pilot's shadow -/

/-- A pair of a shadow phase (R239). -/
def State.shadowPair (s : State) (r : RawCodes) (k : Nat) : State :=
  if s.inPhase k 1 || s.inPhase k 4 then
    let j := s.pilSlice k
    let p := 4 * k + j / 2
    let a := r.slice p (j % 2)
    let b := r.pilot k
    let ok := !saturated a && !saturated b && !s.suspect p (j % 2) && !s.suspect p 2 && !s.settling p
    s.modCluster k (fun c =>
      if ok && c.pairs < 1024 then
        { c with samples := c.samples + 1, pairs := c.pairs + 1, diffSum := c.diffSum + (b - s.dither k 8) - (a - s.dither k j) }
      else { c with samples := c.samples + 1 })
  else s

/-! ### The loop period -/

/-- The delay of the sample clock of unit `p` moves one step toward TRIM + USER (R57). -/
def State.skewStep (s : State) (p : Nat) : State :=
  let t := signed 8 (s.rdF (CH_SKEW p) CH_SKEW.TRIM) + signed 8 (s.rdF (CH_SKEW p) CH_SKEW.USER)
  s.modUnit p (fun u => { u with skewApplied := approach u.skewApplied t 1 })

/-- The samples of unit `p` become the last ones (R143): `ok` where the plausibility check may use them. -/
def State.keepSample (s : State) (r : RawCodes) (p : Nat) : State :=
  let ok := !saturated (s.roleCode r p 0) && !saturated (s.roleCode r p 1) && (s.unit p).rngLeft = 0 && s.closed p
  s.modUnit p (fun u =>
    { u with eng := { u.eng with lastV := s.roleVal r p 0, lastI := s.roleVal r p 1, lastOk := ok } })

/-- A sample of a range change is counted (R92), and coefficient writes that have come into force leave their list; COEF_PEND
clears once none waits (R132). -/
def State.countSettle (s : State) (p : Nat) : State :=
  let s1 := s.modUnit p (fun u =>
    { u with rngLeft := u.rngLeft - 1, rngHold := false,
             eng := { u.eng with coefWr := u.eng.coefWr.filter (s.coefWaits (p / 16)) } })
  if (s1.unit p).eng.coefWr = [] then s1.flag (ENG_USTAT p) ENG_USTAT.COEF_PEND false else s1

/-- Unit `p` samples: the filters' start, its overranges. -/
def State.sampleUnit (s : State) (r : RawCodes) (p : Nat) : State :=
  (((s.refill p).overrange p 0 (saturated (s.roleCode r p 0))).overrange p 1 (saturated (s.roleCode r p 1))).emitUnit p evSample

/-- Unit `p` after its sample: marks, supervision of the sample before, law, generator, accumulation. -/
def State.loopUnit (s : State) (r : RawCodes) (p : Nat) : State :=
  let s1 := ((((s.frozenCheck r p).plCheck p).keepSample r p).rcIndex p).engineUnit r p
  let s2 := ((((s1.ncoTick p).genPeriod p).feedUnit r p).accumulate r p).powerSum r p
  ((s2.openLoadCount r p).countSettle p).skewStep p

/-- LOOP_PERIOD (R116) of region `t` at its next loop sample; with the analog domains off, the ADCs deliver none (R404). -/
def State.loopPeriod (s : State) (t : Nat) (r : RawCodes) (sup : List Int) : State :=
  let s1 := s.advance (s.boundary t)
  if s.is (TMP_DSTAT (t / 4)) TMP_DSTAT.ANALOG_OFF then s1 else
  let s2 := (s1.supApply t).each (unitsOf t) State.gangCheck
  let s3 := s2.each ((List.range 4).map (fun c => 4 * t + c)) State.ditherStep
  let s4 := s3.each (unitsOf t) (fun s p => s.sampleUnit r p)
  let s5 := s4.each ((List.range 4).map (fun c => 4 * t + c)) (fun s k => s.shadowPair r k)
  let s6 := (s5.each (unitsOf t) (fun s p => s.loopUnit r p)).supSlots t sup
  s6.modRegion t (fun x => { x with lastSample := some s1.now })

def execLoopPeriod (t : Fin 16) (v : List (BitVec 18)) (i : List (BitVec 18)) (pil : List (BitVec 18)) (sup : List Int)
    (s : State) : Out := .next (s.loopPeriod t { v := v, i := i, pil := pil } sup)

/-! ### The rate -/

/-- Enforcement bounds the loop rate of region `t` (R398): from, and to, the rate instants that follow its begin and its end by four ECLK
cycles (R135). -/
def State.rateCapped (s : State) (t : Nat) : Bool :=
  let late := match (s.region t).enfAt with
    | some a => decide (s.now < a + leadTicks)
    | none => false
  (1 ≤ s.rdF (TMP_RGN t) TMP_RGN.ENF) != late

/-- The rate code in force (R113, R135, R398): the slower of the written code, as far as its instant has come, and the enforcement
ceiling. -/
def State.rateInForce (s : State) (t : Nat) : Nat :=
  let w := match (s.region t).ratePend with
    | (_, old) :: _ => old
    | [] => s.rdF (ENG_CTRL t) ENG_CTRL.RATE
  if s.rateCapped t then max w (min 6 (s.rdF TMP_ENF_CFG TMP_ENF_CFG.RATE)) else w

/-- Staged coefficients apply at once (R135): none is staged any longer, and an earlier write of the same register is past. -/
def applyStaged (l : List CoefWrite) : List CoefWrite :=
  l.filter (fun x => x.at' ≠ none && !l.any (fun y => y.at' = none && y.idx = x.idx))

/-- A waiting coefficient write at the instant `now` of a rate change from the period `o` (R132): in force already at `now` where its
boundary lies before `now`, from the period after it where that boundary is `now` itself. -/
def CoefWrite.redate (now o : Nat) (x : CoefWrite) : CoefWrite :=
  { x with at' := x.at'.map (fun a => if a + leadTicks + o ≤ now then 0 else if a + leadTicks ≤ now then now - leadTicks else a) }

/-- Staged coefficients of the units of region `t` with HOLD_COEF = 1 apply at a rate instant (R135). -/
def State.applyHeld (s : State) (t : Nat) : State :=
  s.each (unitsOf t) (fun s p =>
    if s.is (ENG_UCTRL p) ENG_UCTRL.HOLD_COEF then
      s.modUnit p (fun u => { u with eng := { u.eng with coefWr := applyStaged u.eng.coefWr } })
    else s)

/-- The waiting coefficient writes of region `t` keep their boundaries through a rate change from the period `o`. -/
def State.redateCoefs (s : State) (t o : Nat) : State :=
  (s.each (unitsOf t) (fun s p =>
    s.modUnit p (fun u => { u with eng := { u.eng with coefWr := u.eng.coefWr.map (CoefWrite.redate s.now o) } }))).modRegion t (fun r =>
      { r with sup := r.sup.map (fun x => { x with wr := x.wr.map (CoefWrite.redate s.now o) }) })

/-- A generator that moves at the rate instant (R162): `n` and `o` are the new and the old period. -/
def State.genRate (s : State) (p n o : Nat) : State :=
  if s.is (PRF_USTAT p) PRF_USTAT.MOVING then
    ((s.modUnit p (fun u =>
      let g := u.gen
      { u with gen := { g with w := roundFree (g.w * n) (max 1 o), x := g.out * 2 ^ 14,
                               hist := g.hist.map (fun _ => g.out * 2 ^ 14) } })).refreshNf p).flag (PRF_STAT (p / 16))
      PRF_STAT.RATE_MOVE true
  else s.refreshNf p

/-- The region's loop rate becomes that in force (R135, R162, R221, R398); an FTW above the new ceiling is limited anew (R107). -/
def State.takeRate (s : State) (t : Nat) : State :=
  let o := s.period t
  let s1 := s.wrF (TMP_RGN t) TMP_RGN.EFF_RATE (s.rateInForce t)
  if s1.period t = o then s1
  else (((s1.applyHeld t).redateCoefs t o).modRegion t (fun r => { r with rates := (s.now, o) :: r.rates })).each (unitsOf t) (fun s p => ((s.genRate p (s.period t) o).putFtw p (s.unit p).nco.ftw).filtAdjust p)

/-- The instant of the next rate change of region `t` (R135, R398): the first multiple of 80,000 that follows the earliest RATE write or
change of enforcement that waits by four ECLK cycles. -/
def State.rateInstant (s : State) (t : Nat) : Nat :=
  let r := s.region t
  nextMultiple 80000 (max s.now (((r.ratePend.map Prod.fst ++ r.enfAt.toList).map (· + leadTicks)).min?.getD 0))

/-- RATE_CHANGE (R135, R398): at the next rate instant, the last RATE write in time for it and the enforcement ceiling come into
force. -/
def State.rateChange (s : State) (t : Nat) : State :=
  let s1 := s.advance (s.rateInstant t)
  let due := (s.region t).ratePend.filter (fun x => x.1 + leadTicks ≤ s1.now)
  let rest := (s.region t).ratePend.filter (fun x => !(x.1 + leadTicks ≤ s1.now))
  let s2 := if due = [] then s1 else s1.applyHeld t
  let s3 := (s2.modRegion t (fun r =>
    { r with ratePend := rest, enfAt := r.enfAt.filter (fun a => s1.now < a + leadTicks) })).flag (ENG_CTRL t) ENG_CTRL.RATE_PEND (rest ≠ [])
  s3.takeRate t

def execRateChange (t : Fin 16) (s : State) : Out := .next (s.rateChange t)

end Sys2Proof.Machine
end

