-- ==== Sys2Proof/Machine/Rope.lean ====
section
/-! DEFINITION. The ROPE link above its physical layer, the management mailbox and the credit auditor (R351 to R359 of
11_data_movement_and_credits.md). A frame is its 128 bytes; what a hub sends on ROPE is kept slot by slot, and frame by frame. -/

namespace Sys2Proof.Machine

/-! ### Credits and waiting slots -/

/-- BUSY while a message of this package waits for a credit (R357). -/
def State.mbxBusy (s : State) : State :=
  let own (x : RopeSlot) : Bool := match x with
    | .mgmt src _ _ _ _ => src = s.pkgNum
    | _ => false
  s.flag ROPE_MBX_TX ROPE_MBX_TX.BUSY ((s.ropePort 0).wait3.any own || (s.ropePort 1).wait3.any own)

/-- The class that a flit slot grants, of those in `ready`, which have a message and a credit, after each was passed over as often in
a row as `passed` says (R348). -/
def linkGrant (ready passed : List Nat) : Option Nat :=
  if ready.contains 0 then some 0
  else
    match ready.find? (fun k => 15 ≤ passed.getD k 0) with
    | some k => some k
    | none => ready.head?

/-- The counts of R348 after class `g` took a grant among those in `ready`. -/
def passedAfter (ready passed : List Nat) (g : Nat) : List Nat :=
  (List.range 4).map (fun k => if k ≠ g && ready.contains k then passed.getD k 0 + 1 else 0)

/-- The transfer of a system channel that waits at port `p` with its credit back (R322), that of the lowest channel. -/
def State.ropeEvent (s : State) (p : Nat) : Option PkgXfer :=
  (s.hub.hops.find? (fun x => x.1 % 64 = 8 + p && x.2.wait ≠ none && x.2.free ≤ s.now)).bind (fun x => x.2.wait)

/-- The classes that have a message and a credit at port `p`. -/
def State.ropeReady (s : State) (p : Nat) : List Nat :=
  let y := s.ropePort p
  (if y.next0.isSome && 0 < y.cred0 then [0] else []) ++ (if (s.ropeEvent p).isSome then [2] else []) ++
    (if y.wait3 ≠ [] && 0 < y.cred3 then [3] else [])

/-- One slot of class `g` that waits at port `p` leaves. -/
def State.ropeLeave (s : State) (p g : Nat) : State :=
  let y := s.ropePort p
  match g, y.next0, y.wait3, s.ropeEvent p with
  | 0, some x, _, _ =>
    (s.modRope p (fun y => { y with cred0 := y.cred0 - 1, wait0 := y.wait0.erase x, sent0 := y.sent0 ++ [x] })).ropeSend p x
  | 2, _, _, some x => s.hopLeave (8 + p) s.now x
  | 3, _, x :: l, _ => (s.modRope p (fun y => { y with cred3 := y.cred3 - 1, wait3 := l })).ropeSend p x
  | _, _, _, _ => s

/-- At most `n` grants of port `p` to the slots that wait there (R348). -/
def State.ropeDrain (s : State) (p : Nat) : Nat → State
  | 0 => s
  | n + 1 =>
    let ready := s.ropeReady p
    match linkGrant ready (s.ropePort p).passed with
    | none => s
    | some g => ((s.modRope p (fun y => { y with passed := passedAfter ready y.passed g })).ropeLeave p g).ropeDrain p n

/-- The oldest of the class 2 credits that are out at hop `h` comes back (R322, R356). -/
def State.hopReturn (s : State) (h : Nat) : State :=
  let out := s.hub.hops.filter (fun x => x.1 % 64 = h && s.now < x.2.free)
  match out with
  | [] => s
  | x :: l =>
    let z := l.foldl (fun m y => if y.2.free < m.2.free then y else m) x
    s.modHop (z.1 / 64) h (fun y => { y with free := s.now })

/-- Credits of classes 0, 2 and 3 come back on port `p`, and waiting slots leave with them in the order of R348 (R356). -/
def State.ropeCredits (s : State) (p c0 c2 c3 : Nat) : State :=
  let y := s.ropePort p
  let s1 := s.each (List.range c2) (fun s _ => s.hopReturn (8 + p))
  ((s1.modRope p (fun y =>
      { y with cred0 := min 2 (y.cred0 + c0), sent0 := y.sent0.drop c0, cred3 := min 16 (y.cred3 + c3) })).ropeDrain p
    (y.wait0.length + y.wait3.length + 64)).mbxBusy

/-- The slots handed to port `p` that no frame has carried yet, the oldest first. -/
def State.ropeQueue (s : State) (p : Nat) : List RopeSlot :=
  ((s.out.rope.filter (fun x => x.1 = p)).map (·.2)).reverse.drop (s.ropePort p).framed

/-- Credits of class `k` that this end of port `p` owes: returned, and in no frame yet (R359). -/
def State.ropeOwed (s : State) (p k : Nat) : Nat := ((s.ropeQueue p).filter (fun x => x = .credit k)).length

/-! ### The mailbox -/

/-- The ports on which a management message to `dest` leaves this package, `from'` being the port it arrived on, 2 for a message
of this package (R354, R357). -/
def State.mgmtPorts (s : State) (dest from' : Nat) : List Nat :=
  (if dest = 15 then [0, 1] else if dest < s.pkgNum then [0] else if s.pkgNum < dest then [1] else []).filter (· ≠ from')

/-- MBX_SEND (R357): the staged message takes the next number and leaves, or waits for a class 3 credit. -/
def State.mbxSend (s : State) : State :=
  if s.is ROPE_MBX_TX ROPE_MBX_TX.BUSY then s
  else
    let n := s.hub.mbxNum
    let len := min 8 (s.rdF ROPE_MBX_TX ROPE_MBX_TX.LEN)
    let data := BitVec.ofNat 64 (s.rdN ROPE_MBX_TXD_LO + 2 ^ 32 * s.rdN ROPE_MBX_TXD_HI)
    let dest := s.rdF ROPE_MBX_TX ROPE_MBX_TX.DEST
    let s1 := (s.wrF ROPE_MBX_TX ROPE_MBX_TX.NUM n).modHub (fun h => { h with mbxNum := (h.mbxNum + 1) % 256 })
    (s1.each (s.mgmtPorts dest 2) (fun s p => s.ropePut p (.mgmt s.pkgNum dest n len data))).mbxBusy

/-- A write of ROPE_MBX_TX: DEST and LEN are stored, and GO sends; neither changes a message that waits. -/
def State.mbxTxWrite (s : State) (v : Word) : State :=
  let s1 := (s.wrF ROPE_MBX_TX ROPE_MBX_TX.LEN (getFld v ROPE_MBX_TX.LEN)).wrF ROPE_MBX_TX ROPE_MBX_TX.DEST
    (getFld v ROPE_MBX_TX.DEST)
  if getFld v ROPE_MBX_TX.GO = 1 then s1.mbxSend else s1

def execMbxSend (f : Fin 8) (dest : Fin 16) (len : Fin 16) (s : State) : Out :=
  let v := w32 (0x80000000 + 16 * len + dest)
  .next (s.hostWrite f ROPE_MBX_TX v (fun s => s.mbxTxWrite v))

/-- MANAGEMENT_SLOT_RX (R354, R357): the message enters the receive queue, goes on toward its destination, or both; one that stays
in no queue here returns its credit (R356). -/
def State.mgmtRx (s : State) (port dest src num len : Nat) (data : DWord) : State :=
  let s1 := if dest = 15 || dest = s.pkgNum then
      s.modHub (fun h => { h with mbx := h.mbx ++ [{ port := some port, src := src, num := num, len := len, data := data }] })
    else s.ropeReturn port 3
  s1.each (s.mgmtPorts dest port) (fun s p => s.ropePut p (.mgmt src dest num len data))

def execManagementSlotRx (port : Fin 2) (dest src : Fin 16) (num : BitVec 8) (len : Fin 9) (data : DWord) (s : State) : Out :=
  .next (if s.slotDiscarded port then s else s.mgmtRx port dest src num.toNat len data)

/-- What ROPE_MBX_RXC reads (R364): the head entry and the entries queued. -/
def State.mbxHead (s : State) : Word :=
  match s.hub.mbx with
  | [] => 0#32
  | m :: _ => w32 (2 ^ 31 + 2 ^ 16 * min 16 s.hub.mbx.length + 2 ^ 8 * m.num + 16 * m.len + m.src)

/-! ### Slots -/

/-- What a member learns of the timebase above it from a fault report (DEDUCED): the anchor's REFIN_LOST says which reference the
chain runs on (R65, R70), and a live ROPE_ALIGN_LOST of a package between it and the anchor that it is unroped too (R64). -/
def State.upstreamReport (s : State) (port pkg src : Nat) (live : Bool) : State :=
  if !s.isMember || port ≠ 0 then s
  else if src = srcNum .refinLost 0 && pkg = 0 then
    (s.modClk (fun c => { c with anchorHold := live })).flag HUB_ALN_STAT HUB_ALN_STAT.HOLDOVER
      (live || s.is HUB_CAL_STAT HUB_CAL_STAT.HOLDOVER)
  else if src = srcNum .ropeAlignLost 0 && live && pkg < s.pkgNum then s.unrope
  else s

/-- ROPE_FAULT_SLOT_RX (R354, R356, R357): the report returns its credit, is forwarded, counted and copied; with SAFE_PROP one of severity 6 raises
ROPE_PEER_SAFE at the instance "another package". -/
def State.faultRx (s : State) (port pkg src sev : Nat) (live : Bool) (ts : Nat) : State :=
  let s1 := (((s.ropeReturn port 0).ropePut (1 - port) (.fault pkg src sev live ts)).bump ROPE_PEER_FLT 1).wrN ROPE_PEER_LAST
    (pkg + 2 ^ 8 * sev + 2 ^ 16 * src)
  let s2 := s1.upstreamReport port pkg src live
  if s.is ROPE_CFG ROPE_CFG.SAFE_PROP && sev = 6 && pkg ≠ s.pkgNum then s2.raise .ropePeerSafe 0 5 pkg src else s2

def execRopeFaultSlotRx (port : Fin 2) (pkg : Fin 16) (src : BitVec 16) (sev : BitVec 8) (live : Bool) (ts : DWord)
    (s : State) : Out :=
  .next (if s.slotDiscarded port then s else s.faultRx port pkg src.toNat sev.toNat live ts.toNat)

/-- BEACON_RX (R353, R354): the beacon ends at the receiving hub, and the spec gives it no further effect. -/
def execBeaconRx (_port : Fin 2) (_ts : DWord) (s : State) : Out := .next s

/-! ### The auditor -/

/-- A pool (R358): its total and how many of its credits are in flight and returned; none for a reserved number. A class 0 message of a
spine, and a register access that meets no outage, arrives within the command that sends it (R347): its credit is back at the end of
the command. -/
def State.pool (s : State) (n : Nat) : Option (Nat × Nat × Nat) :=
  let used (ns : List Nat) (h : Nat) : Nat := (ns.filter (fun c => s.now < (s.hop c h).free)).length
  if n < 0x20 then
    let d := n / 8
    match n % 8 with
    | 0 => some (2, 0, 0)
    | 1 => some (512, ((List.range 4).map (fun g => (s.region (4 * d + g)).quotaUse)).sum, 0)
    | 2 => some (256, used (List.range 256) d, 0)
    | 3 => some (64, 0, 0)
    | 4 => some (2, 0, 0)
    | 5 => some (32, s.noticesOut d, 0)
    | 6 => some (320, used (List.range 320) (4 + d), 0)
    | _ => some (64, min 64 (s.hub.spineWait.filter (fun x => x.1 = d)).length, 0)
  else if n < 0x28 then
    let p := (n - 0x20) / 4
    match n % 4 with
    | 0 => some (2, 2 - (s.ropePort p).cred0, 0)
    | 1 => some (0, 0, 0)
    | 2 => some (64, used ((List.range 64).map (256 + ·)) (8 + p), 0)
    | _ => some (16, 16 - (s.ropePort p).cred3, 0)
  else if n < 0x40 then none
  else if n < 0x80 then some (2 ^ s.ringLog (n - 0x40), 0, s.ringUsed (n - 0x40))
  else if n < 0x90 then
    let t := n - 0x80
    let l := [0, 1, 2, 3, 4, 8, 9, 10].map (fun i => 0x100 * (t % 4) + i)
    some (8, (l.filter (fun i => s.is (EVT_IN_STAT (t / 4) i) EVT_IN_STAT.PEND)).length, 0)
  else if n < 0x94 then
    let l := (List.range 8).map (0x400 + ·) ++ (List.range 16).map (0x420 + ·)
    some (24, (l.filter (fun i => s.is (EVT_IN_STAT (n - 0x90) i) EVT_IN_STAT.PEND)).length, 0)
  else if n < 0xA0 then none
  else if n < 0xB0 then some (512, (s.red (n - 0xA0)).queue.length, 0)
  else if n < 0xC0 then none
  else if n < 0xD0 then
    let t := n - 0xC0
    some (s.spineQuota t, (s.region t).quotaUse, 0)
  else none

/-- The region that owns a pool (R358). -/
def poolRegion (n : Nat) : Option Nat :=
  if 0x80 ≤ n && n < 0x90 then some (n - 0x80)
  else if 0xA0 ≤ n && n < 0xB0 then some (n - 0xA0)
  else if 0xC0 ≤ n && n < 0xD0 then some (n - 0xC0)
  else none

/-- What a ROPE_STAT_p holds besides the partner when its link retrains, with `lanes` keeping block lock (R351, R355, R364). -/
def State.ropeDown (s : State) (p lanes : Nat) (report : Bool) : State :=
  if !s.is (ROPE_STAT p) ROPE_STAT.LINK_UP then s
  else
    let y := s.ropePort p
    let s1 := (((s.wrN (ROPE_STAT p) (2 * lanes + 32 * s.rdF (ROPE_STAT p) ROPE_STAT.PARTNER)).bump (ROPE_BADSLOT p)
      ((y.wait0.filter (fun x => match x with | .fault _ _ _ _ _ => true | _ => false)).length + y.wait3.length)).modRope p (fun _ => {})).mbxBusy.setCause 0 causeLink |>.modHub (fun h =>
      { h with mbx := h.mbx.map (fun m => if m.port = some p then { m with port := none } else m) })
    let s2 := if report then s1.raisePkg .ropeLinkDown 0 true else s1
    if p = 0 then (s2.flag HUB_ALN_STAT HUB_ALN_STAT.CHAIN_LONG false).unrope
    else s2.modClk (fun c => { c with marker := none })

/-- The reload of a package pool whose sum was wrong (R359): its link retrains, records in flight move to DROP, register accesses in flight
complete as at a spine that is down. -/
def State.poolReload (s : State) (n : Nat) : State :=
  if n < 0x20 then
    let d := n / 8
    let s1 := s.spineAttempt d
    if n % 8 = 1 then
      let lost := s1.hub.spine.filter (fun x => x.1 / 4 = d)
      let s2 := s1.each lost (fun s x => s.itemsDrop x.2.unit 1)
      (s2.modHub (fun h => { h with spine := h.spine.filter (fun x => x.1 / 4 ≠ d) })).each (List.range 4) (fun s g =>
        s.modRegion (4 * d + g) (fun r => { r with quotaUse := 0 }))
    else if n % 8 = 2 || n % 8 = 6 then
      s1.modHub (fun h => { h with hops := h.hops.map (fun x => if x.1 % 64 = (if n % 8 = 2 then d else 4 + d) then (x.1, { x.2 with free := 0 }) else x) })
    else if n % 4 = 3 then
      let s2 := s1.each (s1.hub.spineWait.filter (fun x => x.1 = d)) (fun s x => s.spineLost x.2)
      (s2.modHub (fun h => { h with spineWait := h.spineWait.filter (fun x => x.1 ≠ d) })).fenceSettle
    else s1
  else if n < 0x28 then s.ropeDown ((n - 0x20) / 4) 15 false
  else s

/-- The check of pool `n` at an audit (R359): what was held, in flight and returned, against the total. -/
def State.poolCheck (s : State) (n held infl ret : Nat) : State :=
  match s.pool n with
  | none => s
  | some (total, _, _) =>
    let s1 := s.modHub (fun h => { h with audit := mapPut (0, 0, 0, 0) n (total, held, infl, ret) h.audit })
    if held + infl + ret = total then s1
    else
      let s2 := (((s1.modHub (fun h => { h with auditMism := mapPut 0 n (s.now + 1) h.auditMism })).bumpSat DMA_AUD_STAT
        DMA_AUD_STAT.MISM_CNT 1).setCause 0 causeLink)
      match poolRegion n with
      | some t => s2.raiseRegion .creditAuditR t n
      | none => (s2.raisePkg .creditAuditP n).poolReload n

/-- Every pool number of R358. -/
def poolNums : List Nat := (List.range 0xD0).filter (fun n =>
  n < 0x28 || (0x40 ≤ n && n < 0x94) || (0xA0 ≤ n && n < 0xB0) || 0xC0 ≤ n)

/-- The credits of pool `n` that a hardware fault has lost, as the command names them. -/
def lostOf (lost : List (Nat × Nat)) (n : Nat) : Nat := ((lost.filter (fun x => x.1 = n)).map (·.2)).sum

/-- CREDIT_AUDIT (R359): at the next T with T mod 800,000 = 0 every pool is frozen and summed; a ROPE pool waits for its audit
slot, and this hub sends the audit slots of the pools that it receives on. `lost` names credits that a fault has lost. -/
def State.creditAudit (s : State) (lost : List (Nat × Nat)) : State :=
  let s0 := s.advance (nextMultiple msTicks s.now)
  let s1 := s0.each (poolNums.filter (fun n => n < 0x20 || 0x28 ≤ n)) (fun s n =>
    match s0.pool n with
    | none => s
    | some (total, infl, ret) => s.poolCheck n (total - infl - ret - lostOf lost n) infl ret)
  let s2 := s1.each ((List.range 8).map (0x20 + ·)) (fun s n =>
    match s0.pool n with
    | none => s
    | some (total, infl, _) =>
      s.modHub (fun h => { h with audit := mapPut (0, 0, 0, 0) n (total, total - infl - lostOf lost n, 0, 0) h.audit }))
  s2.each ([0, 1].filter (fun p => s2.is (ROPE_STAT p) ROPE_STAT.LINK_UP)) (fun s p =>
    s.each [0, 2, 3] (fun s k =>
      s.ropePut p (.audit (0x20 + 4 * (1 - p) + k) (if k = 3 then (s.hub.mbx.filter (fun m => m.port = some p)).length else 0)
        (s0.ropeOwed p k) s0.now)))

def execCreditAudit (lost : List (Nat × Nat)) (s : State) : Out := .next (s.creditAudit lost)

/-- AUDIT_SLOT_RX (R356, R359): the receiver's occupancy and returns owed complete the check of class `k`'s pool of port `p`'s sending
side; the slot's class 0 credit goes back. -/
def State.auditRx (s : State) (p k occ owed : Nat) : State :=
  let n := 0x20 + 4 * p + k
  (s.ropeReturn p 0).poolCheck n (mapGet (0, 0, 0, 0) n s.hub.audit).2.1 occ owed

def execAuditSlotRx (port : Fin 2) (k : Fin 4) (occ owed : BitVec 16) (s : State) : Out :=
  .next (if s.slotDiscarded port then s else s.auditRx port k occ.toNat owed.toNat)

/-! ### The link -/

/-- ROPE_RETRAIN (R355): every 1 ms while the link is down. `lanes` are the lanes that hold block lock after the attempt; a
retrain that succeeds is ROPE_LINK_UP. -/
def execRopeRetrain (port : Fin 2) (lanes : Fin 16) (s : State) : Out :=
  .next (if s.is (ROPE_STAT port) ROPE_STAT.LINK_UP then s else s.wrF (ROPE_STAT port) ⟨1, 4⟩ lanes)

/-- ROPE_NAK_RX (R355): the last `n` frames are sent again from the replay buffer, the oldest first. -/
def State.nakRx (s : State) (p n : Nat) : State :=
  let s1 := (s.bump (ROPE_REPLAY p) n).modOut (fun o => { o with frames := ((s.ropePort p).kept.take n).map (fun x => (p, x)) ++ o.frames })
  let s2 :=
    if bitOf s.hub.ropeInj p then
      (s1.modHub (fun h => { h with ropeInj := withoutBit h.ropeInj p, injected := true })).modRope p (fun y => { y with inverted := false })
    else s1
  s2.raisePkg .ropeCrc

def execRopeNakRx (port : Fin 2) (n : Fin 17) (s : State) : Out := .next (s.nakRx port n)

/-- A slot has a bit at 1 that its layout reserves (R353). -/
def slotBad (bs : List (BitVec 8)) : Bool :=
  let b (i : Nat) : Nat := byteField bs i 1
  let z (i n : Nat) : Bool := byteField bs i n = 0
  16 ≤ b 0 ||
    match b 0 with
    | 0 => false
    | 1 => !(b 1 = 1 || b 1 = 2 || b 1 = 5) || 16 ≤ b 5 || !z 6 2
    | 2 => !z 1 7
    | 3 => 16 ≤ b 1 || 2 ≤ b 5 || !z 6 2
    | 4 => 64 ≤ b 1 || 64 ≤ b 2 || !z 4 4
    | 5 => 8 < b 3 || !z 4 4
    | 6 => !z 6 2
    | 7 => 2 ≤ b 7
    | _ => true

/-- One slot of an intact frame is dispatched (R353, R354); `bad`: an event slot that fails its parity (R333). `phase` is the receiver's own measurement in ROOT/64 units: its
turnaround for an alignment marker of step 1, the round trip for one of step 2 (R60). -/
def State.slotRx (s : State) (p phase : Nat) (bad : Bool) (bs : List (BitVec 8)) : State :=
  let b (i : Nat) : Nat := byteField bs i 1
  let x := byteField bs 8 8
  if slotBad bs then s.bump (ROPE_BADSLOT p) 1
  else if s.slotDiscarded p then s
  else
    match b 0 with
    | 1 =>
      if b 1 = 1 then (if 15 ≤ b 5 then s.chainLong else s.alignMarkerRx x phase)
      else if b 1 = 2 then s.alignReturnRx phase (byteField bs 2 3)
      else s.alignLoad x (byteField bs 2 3) (b 5)
    | 3 => s.faultRx p (b 1) (byteField bs 2 2) (b 4) (b 5 = 1) x
    | 4 => if bad then s.hubParity none else s.systemRx p (b 1) x (b 3 / 16) (b 3 % 16) (b 2 % 8) (b 2 / 8)
    | 5 => s.mgmtRx p (b 1 % 16) (b 1 / 16) (b 2) (b 3) (BitVec.ofNat 64 x)
    | 6 => s.auditRx p (b 1 % 4) (byteField bs 2 2) (byteField bs 4 2)
    | 7 => if p = 0 then s.calendarSlotRx (b 7 = 1) (byteField bs 1 6) x else s
    | _ => s

/-- A frame passes its checks: its length, the types of its header and trailer, and its CRC over blocks 0 to 14 and the
trailer's bytes 0 to 3 (R352, R494). -/
def frameOk (bs : List (BitVec 8)) : Bool :=
  bs.length = 128 && byteField bs 0 1 = 0xB4 && byteField bs 120 1 = 0xC3 && crc32 (bs.take 124) = byteField bs 124 4

/-- The bytes of a slot (R353); none of what only changes a frame's header. -/
def RopeSlot.bytes : RopeSlot → Option (List (BitVec 8))
  | .marker step1 ts tow pkg => some (leBytes 2 (if step1 then 0x101 else 0x501) ++ leBytes 3 tow ++ leBytes 3 pkg ++ leBytes 8 ts)
  | .markerBack ts ta => some (leBytes 2 0x201 ++ leBytes 3 ta ++ leBytes 3 0 ++ leBytes 8 ts)
  | .beacon ts => some (leBytes 8 2 ++ leBytes 8 ts)
  | .fault pkg src sev live ts =>
    some (leBytes 1 3 ++ leBytes 1 pkg ++ leBytes 2 src ++ leBytes 1 sev ++ leBytes 3 (b2n live) ++ leBytes 8 ts)
  | .event ch issue hops src weight lin =>
    some (leBytes 1 4 ++ leBytes 1 ch ++ leBytes 1 (weight + 8 * lin) ++ leBytes 5 (src + 16 * hops) ++ leBytes 8 issue)
  | .mgmt src dest num len data =>
    some (leBytes 1 5 ++ leBytes 1 (dest + 16 * src) ++ leBytes 1 num ++ leBytes 5 len ++ leBytes 8 data.toNat)
  | .audit pool occ owed ts => some (leBytes 1 6 ++ leBytes 1 pool ++ leBytes 2 occ ++ leBytes 4 owed ++ leBytes 8 ts)
  | .calendar valid sec start => some (leBytes 1 7 ++ leBytes 6 sec ++ leBytes 1 (b2n valid) ++ leBytes 8 start)
  | .nak _ => none
  | .credit _ => none

/-- The first of the slots `l`: as many as `n` places of a frame take, with the header changes between them. -/
def frameTake : Nat → List RopeSlot → List RopeSlot
  | _, [] => []
  | n, x :: l =>
    if x.bytes = none then x :: frameTake n l
    else
      match n with
      | 0 => []
      | m + 1 => x :: frameTake m l

/-- A frame (R352): its number, the last frame received intact, NAK and ACKV, the credits returned, at most seven slots. -/
def frameBytes (fseq ackseq flags : Nat) (credits : List Nat) (slots : List (List (BitVec 8))) : List (BitVec 8) :=
  let body := leBytes 1 0xB4 ++ leBytes 1 fseq ++ leBytes 1 ackseq ++ leBytes 1 flags ++ (credits.map (leBytes 1)).flatten ++
    (slots ++ List.replicate (7 - slots.length) (leBytes 16 0)).flatten ++ leBytes 4 0xC3
  body ++ leBytes 4 (crc32 body)

/-- Port `p` sends its next frame (R352, R353): the slots that wait for one, a beacon once per 1,024 frames; an armed inversion takes its
CRC (R431), not that of the copy in the replay buffer (R355). -/
def State.frameTx (s : State) (p : Nat) : State :=
  if !s.is (ROPE_STAT p) ROPE_STAT.LINK_UP then s
  else
    let y := s.ropePort p
    let beacon := if y.frames % 1024 = 0 then [RopeSlot.beacon s.now] else []
    let l := frameTake (7 - beacon.length) (s.ropeQueue p)
    let nak := l.findSome? (fun x => match x with | .nak a => some a | _ => none)
    let bs := frameBytes y.fseq (nak.getD y.rxSeq) (b2n nak.isSome + 2 * b2n y.heard)
      ((List.range 4).map (fun k => (l.filter (fun x => x = .credit k)).length)) ((beacon ++ l).filterMap RopeSlot.bytes)
    let inv := bitOf s.hub.ropeInj p && !y.inverted
    let sent := if inv then bs.take 124 ++ (bs.drop 124).map (fun b => ~~~ b) else bs
    (s.modRope p (fun y =>
      { y with framed := y.framed + l.length, fseq := (y.fseq + 1) % 256, frames := y.frames + 1
               kept := pushHist 16 bs y.kept, inverted := y.inverted || inv })).modOut (fun o => { o with frames := (p, sent) :: o.frames })

/-- ROPE_FRAME_RX (R352, R355): a frame of 128 bytes on port `p`; `bad` names the slots that fail their parity. Frames behind a failed one
wait for its replay. DESIGN CHOICE: the port sends one frame with each frame that it receives, for both directions carry frames of one
length back to back. -/
def State.frameRx (s : State) (p : Nat) (bs : List (BitVec 8)) (phase : Nat) (bad : List (Fin 7)) : State :=
  let y := s.ropePort p
  if !s.is (ROPE_STAT p) ROPE_STAT.LINK_UP then s
  else if !frameOk bs then
    let s1 := (((s.bump (ROPE_CRC p) 1).modRope p (fun y => { y with fails := y.fails + 1, replay := true })).ropeSend p
      (.nak y.rxSeq)).raisePkg .ropeCrc
    if 7 ≤ y.fails then s1.ropeDown p 15 true else s1.frameTx p
  else if y.replay && byteField bs 1 1 ≠ (y.rxSeq + 1) % 256 then (s.modRope p (fun y => { y with fails := 0 })).frameTx p
  else
    let s1 := s.modRope p (fun y => { y with fails := 0, replay := false, heard := true, rxSeq := byteField bs 1 1 })
    let flags := byteField bs 3 1
    let behind := if bitOf flags 1 then (y.fseq + 255 - byteField bs 2 1) % 256 else 16
    let s2 := if bitOf flags 0 then s1.nakRx p (min (min 16 behind) y.kept.length) else s1
    ((s2.ropeCredits p (byteField bs 4 1) (byteField bs 6 1) (byteField bs 7 1)).each (List.range 7) (fun s k =>
      s.slotRx p phase (bad.any (fun x => x.val = k)) ((bs.drop (8 + 16 * k)).take 16))).frameTx p

def execRopeFrameRx (port : Fin 2) (frame : List (BitVec 8)) (phase : Nat) (bad : List (Fin 7)) (s : State) : Out :=
  .next (s.frameRx port frame phase bad)

end Sys2Proof.Machine
end

