-- ==== Sys2Proof/Machine/Signature.lean ====
section
/-! DEFINITION. The signature of an image (R368, R370 order 5 of 12_berrin_image.md): ECDSA on the curve P-256 over the SHA-256 digest.
PRESUMED: the spec names the two algorithms, whose steps and constants are those of their published standards. -/

namespace Sys2Proof.Machine

/-! ### SHA-256 -/

/-- The number that a big-endian list of bytes spells. -/
def ofBeBytes (bs : List (BitVec 8)) : Nat := bs.foldl (fun n b => 256 * n + b.toNat) 0

/-- `k` bytes of a number, the most significant first. -/
def beBytes (k n : Nat) : List (BitVec 8) := (leBytes k n).reverse

/-- The words that the rounds add, in eight rows of eight. -/
def shaRounds : List Nat := [
  0x428A2F98, 0x71374491, 0xB5C0FBCF, 0xE9B5DBA5, 0x3956C25B, 0x59F111F1, 0x923F82A4, 0xAB1C5ED5,
  0xD807AA98, 0x12835B01, 0x243185BE, 0x550C7DC3, 0x72BE5D74, 0x80DEB1FE, 0x9BDC06A7, 0xC19BF174,
  0xE49B69C1, 0xEFBE4786, 0x0FC19DC6, 0x240CA1CC, 0x2DE92C6F, 0x4A7484AA, 0x5CB0A9DC, 0x76F988DA,
  0x983E5152, 0xA831C66D, 0xB00327C8, 0xBF597FC7, 0xC6E00BF3, 0xD5A79147, 0x06CA6351, 0x14292967,
  0x27B70A85, 0x2E1B2138, 0x4D2C6DFC, 0x53380D13, 0x650A7354, 0x766A0ABB, 0x81C2C92E, 0x92722C85,
  0xA2BFE8A1, 0xA81A664B, 0xC24B8B70, 0xC76C51A3, 0xD192E819, 0xD6990624, 0xF40E3585, 0x106AA070,
  0x19A4C116, 0x1E376C08, 0x2748774C, 0x34B0BCB5, 0x391C0CB3, 0x4ED8AA4A, 0x5B9CCA4F, 0x682E6FF3,
  0x748F82EE, 0x78A5636F, 0x84C87814, 0x8CC70208, 0x90BEFFFA, 0xA4506CEB, 0xBEF9A3F7, 0xC67178F2]

/-- The chaining value at the start. -/
def shaInit : List Word := [0x6A09E667, 0xBB67AE85, 0x3C6EF372, 0xA54FF53A, 0x510E527F, 0x9B05688C, 0x1F83D9AB, 0x5BE0CD19].map w32

/-- The message with its padding: a 1 bit, zeros, the length in bits in the last 8 bytes of a 64-byte block. -/
def shaPad (bs : List (BitVec 8)) : List (BitVec 8) :=
  bs ++ 0x80#8 :: List.replicate ((119 - bs.length % 64) % 64) 0#8 ++ beBytes 8 (8 * bs.length)

/-- A word of the message schedule from the sixteen before it. -/
def shaNext (w : List Word) : Word :=
  let a := w.getD 1 0
  let b := w.getD 14 0
  (w.getD 0 0) + (a.rotateRight 7 ^^^ a.rotateRight 18 ^^^ a >>> 3) + w.getD 9 0 + (b.rotateRight 17 ^^^ b.rotateRight 19 ^^^ b >>> 10)

/-- The rounds on the chaining value `h`, `w` being the next sixteen words of the schedule. -/
def shaSteps : List Nat → List Word → List Word → List Word
  | [], _, h => h
  | k :: ks, w, h =>
    let x (i : Nat) : Word := h.getD i 0
    let t := x 7 + ((x 4).rotateRight 6 ^^^ (x 4).rotateRight 11 ^^^ (x 4).rotateRight 25) + ((x 4 &&& x 5) ^^^ (~~~ x 4 &&& x 6)) +
      w32 k + w.headD 0
    let u := ((x 0).rotateRight 2 ^^^ (x 0).rotateRight 13 ^^^ (x 0).rotateRight 22) + ((x 0 &&& x 1) ^^^ (x 0 &&& x 2) ^^^ (x 1 &&& x 2))
    shaSteps ks (w.tail ++ [shaNext w]) [t + u, x 0, x 1, x 2, x 3 + t, x 4, x 5, x 6]

/-- One 64-byte block enters the chaining value. -/
def shaBlock (h : List Word) (bs : List (BitVec 8)) : List Word :=
  List.zipWith (· + ·) h (shaSteps shaRounds ((List.range 16).map (fun j => w32 (ofBeBytes ((bs.drop (4 * j)).take 4)))) h)

/-- `n` blocks of a padded message. -/
def shaBlocks : Nat → List (BitVec 8) → List Word → List Word
  | 0, _, h => h
  | n + 1, bs, h => shaBlocks n (bs.drop 64) (shaBlock h (bs.take 64))

/-- The SHA-256 digest of a message, as a number. -/
def sha256 (bs : List (BitVec 8)) : Nat :=
  let m := shaPad bs
  (shaBlocks (m.length / 64) m shaInit).foldl (fun n w => 2 ^ 32 * n + w.toNat) 0

/-! ### P-256 -/

/-- The field's prime, the order of the base point, the curve's coefficient b and the base point. -/
def p256 : Nat := 0xFFFFFFFF00000001000000000000000000000000FFFFFFFFFFFFFFFFFFFFFFFF
def p256n : Nat := 0xFFFFFFFF00000000FFFFFFFFFFFFFFFFBCE6FAADA7179E84F3B9CAC2FC632551
def p256b : Nat := 0x5AC635D8AA3A93E7B3EBBD55769886BC651D06B0CC53B0F63BCE3C3E27D2604B
def p256g : Nat × Nat :=
  (0x6B17D1F2E12C4247F8BCE6E563A440F277037D812DEB33A0F4A13945D898C296,
   0x4FE342E2FE1A7F9B8EE7EB4A7C0F9E162BCE33576B315ECECBB6406837BF51F5)

/-- a^e modulo m, by the `k` lowest bits of e. -/
def powMod (m a : Nat) : Nat → Nat → Nat
  | 0, _ => 1 % m
  | k + 1, e =>
    let r := powMod m a k (e / 2)
    let q := r * r % m
    if e % 2 = 1 then q * a % m else q

/-- The inverse modulo a 256-bit prime. -/
def invMod (m a : Nat) : Nat := powMod m (a % m) 256 (m - 2)

/-- The sum of two points of the curve; none is the point at infinity. -/
def p256Add (a b : Option (Nat × Nat)) : Option (Nat × Nat) :=
  match a, b with
  | none, _ => b
  | _, none => a
  | some (x, y), some (u, v) =>
    if x = u && (y + v) % p256 = 0 then none
    else
      let l := if x = u then (3 * x * x + (p256 - 3)) * invMod p256 (2 * y) % p256
        else (v + p256 - y) * invMod p256 (u + p256 - x) % p256
      let z := (l * l + 2 * p256 - x - u) % p256
      some (z, (l * (x + p256 - z) + p256 - y) % p256)

/-- The multiple of a point by the `n` lowest bits of k. -/
def p256Mul (a : Option (Nat × Nat)) : Nat → Nat → Option (Nat × Nat)
  | 0, _ => none
  | n + 1, k =>
    let h := p256Mul a n (k / 2)
    let d := p256Add h h
    if k % 2 = 1 then p256Add d a else d

/-- The point lies on the curve. -/
def onP256 (q : Nat × Nat) : Bool :=
  q.1 < p256 && q.2 < p256 && q.2 * q.2 % p256 = (q.1 * q.1 * q.1 + (p256 - 3) * q.1 + p256b) % p256

/-- The 64-byte signature `sig`, r then s, verifies under the 64-byte key, X then Y, over the message (R368, R370, R372).
DEDUCED from R368: the coordinates of a key are spelt as r and s are, the most significant byte first. -/
def ecdsaOk (key msg sig : List (BitVec 8)) : Bool :=
  let q := (ofBeBytes (key.take 32), ofBeBytes (key.drop 32))
  let r := ofBeBytes (sig.take 32)
  let s := ofBeBytes (sig.drop 32)
  if r = 0 || s = 0 || p256n ≤ r || p256n ≤ s || !onP256 q then false
  else
    let w := invMod p256n s
    match p256Add (p256Mul (some p256g) 256 (sha256 msg * w % p256n)) (p256Mul (some q) 256 (r * w % p256n)) with
    | some x => x.1 % p256n = r
    | none => false

end Sys2Proof.Machine
end

