-- ==== Sys2Proof/Machine/Image.lean ====
section
/-! DEFINITION. The Berrin image: format, verification, what an image in force sets, the loader's commands, the live load and
the boot (R366 to R383, R389, R391 and R493 of 12_berrin_image.md), nightlight mode (R384 to R387). -/

namespace Sys2Proof.Machine

/-! ### Image registers -/

/-- The state whose register `a` takes the image value `v`, now and at every reset that reaches it. -/
def State.putImage (s : State) (a : Nat) (v : Word) : State :=
  let m := imageMask a
  let x := (s.resetVal a &&& ~~~ m) ||| (v &&& m)
  ({ s with imgVals := mapPut (resetOf a) a x s.imgVals }).wr a ((s.rd a &&& ~~~ m) ||| (v &&& m))

/-- Every "image" register of a scope takes the value of an image: the given one, or that without an image, whatever the host has written
to it (R369, R379, R388). -/
def State.applyVals (s : State) (scope : Nat → Bool) (vals : List (Nat × Word)) : State :=
  let gone := ((s.imgVals.map (·.1)) ++ (s.regs.map (·.1))).filter (fun a => scope a && imageMask a ≠ 0#32)
  let s1 := s.each gone (fun s a => s.putImage a (resetOf a))
  s1.each (vals.filter (fun x => scope x.1 && imageMask x.1 ≠ 0#32)) (fun s x => s.putImage x.1 x.2)

/-- The state of a region as IMG_RGN_STAT and RGN_INFO show it (R391, R466). -/
def State.setRgnState (s : State) (t n : Nat) : State :=
  (s.wrF (RGN_INFO t) RGN_INFO.STATE n).wrF (IMG_RGN_STAT t) ⟨0, 2⟩ n

/-- The state that a region returns to when nothing is under way: nightlight or running. -/
def State.restRgnState (s : State) (t : Nat) : State :=
  if s.restarting t then s else s.setRgnState t (b2n !(s.nightlight t))

/-! ### Format and verification -/

/-- The section directory: TYPE, OFFSET, LENGTH, CRC of each section (R368). -/
def imgDir (bs : List (BitVec 8)) : List (Nat × Nat × Nat × Nat) :=
  (List.range (byteField bs 22 2)).map (fun j =>
    let e := 64 + 16 * j
    (byteField bs e 2, byteField bs (e + 4) 4, byteField bs (e + 8) 4, byteField bs (e + 12) 4))

/-- The bytes of a section. -/
def imgPayload (bs : List (BitVec 8)) (x : Nat × Nat × Nat × Nat) : List (BitVec 8) := (bs.drop x.2.1).take x.2.2.1

/-- What an image says (R369). -/
def imgContent (bs : List (BitVec 8)) : ImgContent :=
  let secs := (imgDir bs).map (fun x => (x.1, Config.imgSection x.1 (imgPayload bs x)))
  let sec (ty : Nat) : ImgContent := ((secs.find? (fun x => x.1 = ty)).map (·.2)).getD {}
  { vals := secs.flatMap (fun x => x.2.vals)
    blocks := (sec 1).blocks, captures := (sec 2).captures
    owner := (sec 0x10).owner, classes := (sec 0x12).classes
    program := (sec 0x13).program, entry := (sec 0x13).entry, autostart := (sec 0x13).autostart
    kernels := (sec 0x14).kernels, ctxWords := (sec 0x14).ctxWords, stage := (sec 0x11).stage, supSlots := (sec 0x12).supSlots
    taps := (sec 0x15).taps, chunks := (sec 0x17).chunks }

/-- Order 1 (R370): 1 BAD_HEADER, 14 TOO_LARGE for LENGTH alone; `avail` bytes lie in the source. -/
def headerCode (bs : List (BitVec 8)) (avail : Nat) : Nat :=
  let len := byteField bs 8 4
  let limit := if byteField bs 6 1 = 1 then 0x100000 else 0x200000
  if bs.length < 64 || byteField bs 0 4 ≠ 0x4E495242 || byteField bs 4 2 ≠ 1 || (bs.take 64).drop 30 ≠ List.replicate 34 0#8
      || len % 16 ≠ 0 || len < 128 then 1
  else if limit < len || avail < len then 14
  else 0

/-- Order 2 (R366, R370). -/
def targetOk (bs : List (BitVec 8)) (target : Nat) : Bool :=
  let kind := byteField bs 6 1
  let tg := byteField bs 7 1
  tg = target && ((kind = 0 && tg = 16) || (kind = 1 && tg < 16))

/-- Order 7 (R368 to R370): the directory of an image of LENGTH `len`. -/
def directoryOk (bs : List (BitVec 8)) (len : Nat) : Bool :=
  let n := byteField bs 22 2
  let dir := imgDir bs
  let pkg := byteField bs 6 1 = 0
  let allowed (ty : Nat) : Bool := if pkg then 1 ≤ ty && ty ≤ 7 else 0x10 ≤ ty && ty ≤ 0x17
  let required : List Nat := if pkg then [1, 2] else [0x10, 0x12, 0x13]
  1 ≤ n && n ≤ 64 && 64 + 16 * n ≤ len - 64 &&
    dir.all (fun x => allowed x.1 && x.2.1 % 16 = 0 && 64 + 16 * n ≤ x.2.1 && x.2.1 + x.2.2.1 ≤ len - 64
      && crc32 (imgPayload bs x) = x.2.2.2) &&
    (dir.zipIdx).all (fun x => (dir.zipIdx).all (fun y =>
      x.2 = y.2 || x.1.2.1 + x.1.2.2.1 ≤ y.1.2.1 || y.1.2.1 + y.1.2.2.1 ≤ x.1.2.1)) &&
    required.all (fun ty => dir.any (fun x => x.1 = ty))

/-- The value that an image's content gives a register, or that without an image. -/
def imgValOf (c : ImgContent) (a : Nat) : Word :=
  match c.vals.find? (fun x => x.1 = a) with
  | some x => (resetOf a &&& ~~~ imageMask a) ||| (x.2 &&& imageMask a)
  | none => resetOf a

/-- The least and the greatest size of each die partition (R32). -/
def partLimits : List (Nat × Nat) :=
  [(0, 0x200000), (0x280000, 0x280000), (0x100000, 0x800000), (0x100000, 0x800000), (0x40000, 0x40000), (0x80000, 0x200000),
   (0x80000, 0x80000), (0x100000, 0x100000), (0, 0x1000000)]

/-- The partitions, each a base and a size, lie in die SRAM, no two overlapping (R32). -/
def partsApart (l : List (Nat × Nat)) : Bool :=
  l.all (fun x => x.1 + x.2 ≤ dieSram) &&
    (l.zipIdx).all (fun x => (l.zipIdx).all (fun y => x.2 = y.2 || x.1.1 + x.1.2 ≤ y.1.1 || y.1.1 + y.1.2 ≤ x.1.1 || x.1.2 = 0 || y.1.2 = 0))

/-- Order 8 (R370): the limits of R32, R349, R125, R416 and of the program and kernel stores. -/
def imgLimitsOk (c : ImgContent) (pkg : Bool) : Bool :=
  if pkg then
    (List.range 4).all (fun d =>
      let size (k : Nat) : Nat := (imgValOf c (DIE_PART_SIZE d k)).toNat
      (partLimits.zipIdx).all (fun x => x.1.1 ≤ size x.2 && size x.2 ≤ x.1.2 && (imgValOf c (DIE_PART_BASE d x.2)).toNat % 0x10000 = 0) &&
        ((List.range 9).map size).sum = 0x1000000 && partsApart ((List.range 9).map (fun k => ((imgValOf c (DIE_PART_BASE d k)).toNat, size k))) &&
        ((List.range 4).map (fun g => (imgValOf c (DIE_SPINE_Q d g)).toNat % 1024)).sum ≤ 512) &&
    c.vals.all (fun x => !(FLT_SRC_CFG 0 ≤ x.1 && x.1 < FLT_SRC_CFG 545 && (x.1 - FLT_SRC_CFG 0) % 0x20 = 0) ||
      getFld (resetOf x.1) FLT_SRC_CFG.FLOOR ≤ min 6 (getFld x.2 FLT_SRC_CFG.SEV))
  else c.program.length ≤ 16384 && c.kernels.length ≤ 8192 && c.supSlots ≤ 8

/-- Bytes `a` to `a + n − 1` of the BAR2 window lie within a block of region `t` that a region image may address (R371). -/
def State.inBlocks (s : State) (t a n : Nat) : Bool :=
  let inside (x : Nat × Nat) : Bool := dieMem (t / 4) x.1 ≤ a && a + n ≤ dieMem (t / 4) x.1 + x.2
  inside (mapGet (0, 0) (16 * t) s.blocks) || inside (mapGet (0, 0) (16 * t + 2) s.blocks) || inside (s.blockSpan t 4)

/-- The site that the sequencer word `w` names, of a SITE (R193); none for another instruction. -/
def siteOperand (w : Word) : Option Nat := if w.toNat / 2 ^ 26 = 9 then some (w.toNat % 2 ^ 14) else none

/-- The data of segment `g` of the content `c` lie in a waveform block of `n` bytes, whatever the number of tracks (R171): a descriptor
with LEN < 2 names none, and a stream segment's data lie in the ring. -/
def segInside (c : ImgContent) (t n g : Nat) : Bool :=
  let len := (imgValOf c (PRF_SEG_LEN t g)).toNat % 2 ^ 16
  len < 2 || getFld (imgValOf c (PRF_SEG_CTRL t g)) PRF_SEG_CTRL.STREAM = 1 || (imgValOf c (PRF_SEG_ADDR t g)).toNat % 2 ^ 24 + 128 * len ≤ n

/-- Order 9 (R371): a region image against the package image in force, which there must be (R384); one that names a different site block
is inconsistent (R278). DEDUCED: the blocks that PROGRAM addresses are the sites of its SITE words, and those that R_REGS addresses
include the data of its segment descriptors. -/
def State.consistent (s : State) (t : Nat) (c : ImgContent) : Bool :=
  let d := t / 4
  let wf := mapGet (0, 0) (16 * t + 2) s.blocks
  let swp := mapGet (0, 0) (16 * t) s.blocks
  let wfB := (imgValOf c (PRF_WF_BASE t)).toNat
  let wfN := (imgValOf c (PRF_WF_SIZE t)).toNat
  let swB := s.rdN (DIE_PART_BASE d 0) + 16 * (imgValOf c (PRF_SWP_BASE t)).toNat
  let swN := 16 * (imgValOf c (PRF_SWP_LEN t)).toNat
  let sites := s.siteBlk t
  !s.is IMG_STAT IMG_STAT.NL && (c.program.filterMap siteOperand).all (fun i => sites.1 ≤ i && i < sites.1 + sites.2) &&
    (List.range 256).all (segInside c t wfN) &&
  c.owner = s.rdF (DMA_RING_CTRL (s.rdF (DMA_RMAP t) ⟨0, 6⟩)) DMA_RING_CTRL.OWNER &&
    (wfN = 0 || (wf.1 ≤ wfB && wfB + wfN ≤ wf.1 + wf.2)) && (swN = 0 || (swp.1 ≤ swB && swB + swN ≤ swp.1 + swp.2)) &&
    c.chunks.all (fun x => s.inBlocks t x.1 x.2.length) &&
    c.vals.all (fun x =>
      match blockOf x.1 with
      | some (.site, _, o) => !(0x20 ≤ o && o < 0x30) || x.2 &&& imageMask x.1 = s.rd x.1
      | some (.evt, _, o) =>
        let i := (o - 0x2000) / 16 % 0x100
        !regionScope t x.1 ||
          ((getFld x.2 EVT_IN_CFG.GATE_EN = 0 || s.chanRight c.owner d (getFld x.2 EVT_IN_CFG.GATE) = none) &&
           (!(0x10 ≤ i && i < 0x20) || 512 ≤ getFld x.2 EVT_IN_CFG.SEL || s.chanRight c.owner d (getFld x.2 EVT_IN_CFG.SEL) = none))
      | _ => true)

/-- The bytes of key slot `k`: those of a record that waits, or the journaled ones (R372, R436). -/
def State.keyBytes (s : State) (k : Nat) : List (BitVec 8) :=
  (s.nvm.queue.findSome? (fun r => match r with
    | .key j bs => if j = k then some bs else none
    | _ => none)).getD (mapGet [] k s.nvm.keys)

/-- The 64-byte key of slot `k`, usable for a check under the key state `ks` (R372). -/
def State.usableKey (s : State) (ks : Word) (k : Nat) : Option (List (BitVec 8)) :=
  if k < 4 && bitOf (getFld ks IMG_KEY_STAT.PROGRAMMED) k && !bitOf (getFld ks IMG_KEY_STAT.REVOKED) k then some (s.keyBytes k)
  else none

/-- The checks of R370 in their order on the image in `bs`, of which `avail` bytes lie in the source, under the key state `ks`: 0, or
the code of the first that fails. -/
def State.imgCheck (s : State) (ks : Word) (bs : List (BitVec 8)) (avail target : Nat) : Nat :=
  let h := headerCode bs avail
  let len := byteField bs 8 4
  let pkg := byteField bs 6 1 = 0
  let c := imgContent bs
  if h ≠ 0 then h
  else if !targetOk bs target then 8
  else if byteField bs 16 4 ≠ 0x92560 || Config.dieRev.toNat < byteField bs 20 1 then 15
  else
    match s.usableKey ks (byteField bs 21 1) with
    | none => 2
    | some k =>
      if !ecdsaOk k (bs.take (len - 64)) ((bs.drop (len - 64)).take 64) then 3
      else if byteField bs 12 4 < s.rdN (IMG_MIN_SEQ target) then 4
      else if !directoryOk bs len then 5
      else if !imgLimitsOk c pkg then 6
      else if !pkg && !s.consistent target c then 7
      else 0

/-- The staging buffer's image (R373): the state after the read, the bytes, and whether a word was uncorrectable. -/
def State.staging (s : State) : State × List (BitVec 8) × Bool :=
  let h := s.memRead hubMem 64
  let r := h.1.memRead hubMem (max 64 (min 0x200000 (byteField h.2.bytes 8 4)))
  (r.1, r.2.bytes, h.2.bad || r.2.bad)

/-- The check of the staging buffer's image for the operation `x`: an uncorrectable word fails the signature check, since the
reader gets 0 (R427, R429). -/
def State.stagingCheck (s : State) (x : ImgOp) : State × List (BitVec 8) × Nat :=
  let r := s.staging
  (r.1, r.2.1, if r.2.2 then 3 else r.1.imgCheck x.keys r.2.1 0x200000 x.target)

/-! ### Slots -/

/-- The image in a slot of a target; the empty list where it holds none (R373). -/
def State.slotImage (s : State) (target slot : Nat) : List (BitVec 8) := mapGet [] (2 * target + slot) s.nvm.slots

/-- A target whose WRITE_SLOT is interrupted: its slot is left empty (R373, R383). -/
def State.writeCut (s : State) : State :=
  match s.hub.imgOp with
  | some x => if x.op = 2 then s.setSlot x.target x.slot [] else s
  | none => s

/-- The slot is the one that BOOT or RUN names (R373): RUN names one while an image of a slot runs. -/
def State.slotInUse (s : State) (target slot : Nat) : Bool :=
  let i := s.rdN (IMG_SLOTINFO target)
  (bitOf i 2 == (slot == 1)) || (!bitOf i 5 && !bitOf i 4 && (bitOf i 3 == (slot == 1)))

/-- What IMG_SLOTINFO shows of the running image (R381). -/
def State.setRun (s : State) (target : Nat) (run : Option Nat) : State :=
  match run with
  | none => s.wrF (IMG_SLOTINFO target) ⟨4, 2⟩ 2
  | some 2 => s.wrF (IMG_SLOTINFO target) ⟨4, 2⟩ 1
  | some k => (s.wrF (IMG_SLOTINFO target) ⟨4, 2⟩ 0).wrBit (IMG_SLOTINFO target) 3 (k = 1)

/-! ### A region takes an image -/

/-- The program and kernel words of an image are written into bank `b` of region `t` (R32, R376). -/
def State.writeBank (s : State) (t b : Nat) (c : ImgContent) : State :=
  let d := t / 4
  let words (l : List Word) : List (BitVec 8) := l.flatMap (fun w => leBytes 4 w.toNat)
  (s.memWrite (s.part d 6 + 0x20000 * (t % 4) + 0x10000 * b) (words c.program)).memWrite
    (s.part d 5 + 0x10000 * (t % 4) + 0x8000 * b) (words c.kernels)

/-- Bank `b` of region `t` becomes active (R379). -/
def State.setBank (s : State) (t b : Nat) : State :=
  let d := t / 4
  ((s.modRegion t (fun r => { r with bank := b })).putImage (SEQ_PS_BASE t)
    (w32 (s.rdN (DIE_PART_BASE d 6) + 0x20000 * (t % 4) + 0x10000 * b))).putImage (RDC_KS_BASE t)
    (w32 (s.rdN (DIE_PART_BASE d 5) + 0x10000 * (t % 4) + 0x8000 * b))

/-- The owner of region `t` (R369, R462). -/
def State.setOwner (s : State) (t f : Nat) : State :=
  let a := if t < 8 then HUB_OWN_RGN_0 else HUB_OWN_RGN_1
  (s.putImage a (setFld (s.rd a) ⟨4 * (t % 8), 3⟩ f)).putImage (RGN_INFO t) (setFld (s.rd (RGN_INFO t)) RGN_INFO.OWNER f)

/-- Unit `p` changes its gang membership, its booster role or its loop class under the image `c` (R378). -/
def State.regrouped (s : State) (c : ImgContent) (p : Nat) : Bool :=
  let t := p / 16
  let old := ((s.region t).img.map ImgContent.classes).getD []
  (s.rd (CH_GANG p) ^^^ imgValOf c (CH_GANG p)) &&& imageMask (CH_GANG p) ≠ 0#32 ||
    (p % 16 = 0 && s.rdF (CH_BST p) CH_BST.BOOST ≠ getFld (imgValOf c (CH_BST p)) CH_BST.BOOST) ||
    old.getD (p % 16) 0 ≠ c.classes.getD (p % 16) 0

/-- A follower of region `t` takes its master's IRNG and CH_CMPL (R98, R99). -/
def State.gangShare (s : State) (p : Nat) : State :=
  if s.follower p then
    (s.wrF (CH_MODE p) CH_MODE.IRNG (s.rdF (CH_MODE (s.masterOf p)) CH_MODE.IRNG)).wr (CH_CMPL p) (s.rd (CH_CMPL (s.masterOf p)))
  else s

/-- The "image" registers and the structure of region `t` become those of the image `c`, at the present instant (R379): a new
rate as at a rate instant, coefficients at once, control states of regrouped units cleared; the banks in force stay. -/
def State.takeContent (s : State) (t : Nat) (c : ImgContent) : State :=
  let changed := (unitsOf t).filter (fun p => s.regrouped c p)
  let s1 := (((s.applyVals (regionScope t) c.vals).setBank t (s.region t).bank).setOwner t c.owner).modRegion t (fun r =>
    { r with img := some c, userTaps := c.taps, stage := c.stage, ratePend := [], sup := r.sup.map (fun x => { x with wr := [] }) })
  let s2 := s1.each (unitsOf t) (fun s p => s.modUnit p (fun u =>
    { u with eng := { u.eng with coefWr := [], f := if changed.contains p then {} else u.eng.f,
                                 l := if changed.contains p then {} else u.eng.l } }))
  let s3 := ((s2.each (unitsOf t) State.gangShare).flag (ENG_CTRL t) ENG_CTRL.RATE_PEND false).takeRate t
  s3.each (unitsOf t) (fun s p =>
    (s.flag (ENG_USTAT p) ENG_USTAT.COEF_PEND false).filtAdjust p)

/-- Region `t` leaves nightlight mode (R387): its streams take the setting of MEA_U_FILT. -/
def State.leaveNightlight (s : State) (t : Nat) : State :=
  if !s.nightlight t then s
  else
    (s.flag (RGN_INFO t) RGN_INFO.NL false).each (unitsOf t) (fun s p =>
      (s.modMea p (fun m => { m with filt := s.rdN (MEA_U_FILT p), refilter := true, nl := [] })).filtAdjust p)

/-- DATA chunks are written into the region's blocks, each a transfer to its die (R369, R380, R431). -/
def State.writeChunks (s : State) (c : ImgContent) : State :=
  s.each c.chunks (fun s x => (s.spineXfer (x.1 / 0x2000000) 1).memWrite x.1 x.2)

/-- Region `t` starts its image (R374 step 6, R434 phase 5): SEQ_START_PC takes ENTRY, and AUTOSTART starts the sequencer. -/
def State.enterImage (s : State) (t : Nat) : State :=
  match (s.region t).img with
  | none => s
  | some c =>
    let s1 := s.wrF (SEQ_START_PC t) ⟨0, 14⟩ c.entry
    if c.autostart then s1.seqStart t else s1

/-! ### The loader's operations -/

/-- The end of a loader operation or the refusal of a GO (R381, R389, R467, R493). -/
def State.imgReport (s : State) (op target code : Nat) : State :=
  let s1 := s.imgResult code
  if code = 0 || op ≠ 3 then s1
  else if target < 16 then s1.raise .imgLoadFail 0 2 target
  else s1.raisePkg .imgLoadFail

/-- The operation in progress ends with a code. -/
def State.imgEnd (s : State) (x : ImgOp) (code : Nat) : State :=
  let s1 := if x.op = 3 then s.imgIdle.restRgnState x.target else s.imgIdle
  s1.imgReport x.op x.target code

/-- The state whose operation in progress is changed. -/
def State.setOp (s : State) (x : ImgOp) : State := s.modHub (fun h => { h with imgOp := some x })

/-- PHASE of IMG_STAT (R376). -/
def State.imgPhase (s : State) (n : Nat) : State := s.wrF IMG_STAT IMG_STAT.PHASE n

/-- The operation in progress is an APPLY in phase `n`. -/
def State.applyIn (s : State) (n : Nat) : Option ImgOp :=
  match s.hub.imgOp with
  | some x => if x.op = 3 && s.rdF IMG_STAT IMG_STAT.PHASE = n then some x else none
  | none => none

/-- The loader reads the staging buffer (R373): READ and VERIFY of an APPLY, and a VERIFY or WRITE_SLOT in progress. -/
def State.stagingBusy (s : State) : Bool :=
  match s.hub.imgOp with
  | some x => x.op = 1 || x.op = 2 || (x.op = 3 && s.rdF IMG_STAT IMG_STAT.PHASE ≤ 2)
  | none => false

/-- The request of an APPLY is withdrawn before its swap: RECONF clears and building resumes (R378, R382). -/
def State.unreconf (s : State) (t : Nat) : State :=
  if s.is (SEQ_STAT t) SEQ_STAT.RECONF then ((s.flag (SEQ_STAT t) SEQ_STAT.RECONF false).seqLook t).refreshSeq t else s

/-- LOADER_OPERATION_END (R373, R493): a VERIFY, WRITE_SLOT or ERASE_SLOT ends; `ok` is false where the NVM failed. A slot is erased
before it is written, once more for each of its sectors (R438). While a thermal shutdown has the array's supply off, an erase or a write
waits (R403). -/
def State.loaderEnd (s : State) (ok : Bool) : State :=
  match s.hub.imgOp with
  | none => s
  | some x =>
    let k := 2 * x.target + x.slot
    let fail (s : State) : State := ((s.setSlot x.target x.slot []).raisePkg .nvmFail).imgEnd x 12
    if x.op = 1 then
      let r := s.stagingCheck x
      r.1.imgEnd x r.2.2
    else if x.op = 2 then
      let r := s.stagingCheck x
      if r.2.2 ≠ 0 then r.1.imgEnd x r.2.2
      else if s.is TMP_SHUT TMP_SHUT.SHUT then s
      else if ok then ((r.1.wearOne 0 k).setSlot x.target x.slot (r.2.1.take (byteField r.2.1 8 4))).imgEnd x 0
      else fail r.1
    else if x.op = 5 then
      (if s.is TMP_SHUT TMP_SHUT.SHUT then s else if ok then ((s.wearOne 0 k).setSlot x.target x.slot []).imgEnd x 0 else fail s)
    else s

def execLoaderOperationEnd (ok : Bool) (s : State) : Out := .next (s.loaderEnd ok)

/-! ### The phases of an APPLY -/

/-- IMG_READ_DONE (R376 phase 1): the slot's image stands in the staging buffer; `ok` is false where a page was unreadable. -/
def State.imgReadDone (s : State) (ok : Bool) : State :=
  match s.applyIn 1 with
  | none => s
  | some x =>
    if !ok then (s.raisePkg .nvmFail).imgEnd x 12
    else
      let bs := s.slotImage x.target x.slot
      ((s.setOp { x with keys := s.rd IMG_KEY_STAT }).memWrite hubMem (if bs = [] then List.replicate 64 0#8 else bs)).imgPhase 2

def execImgReadDone (ok : Bool) (s : State) : Out := .next (s.imgReadDone ok)

/-- IMG_VERIFY_DONE (R376 phase 2). -/
def State.imgVerifyDone (s : State) : State :=
  match s.applyIn 2 with
  | none => s
  | some x =>
    let r := s.stagingCheck x
    if r.2.2 ≠ 0 then r.1.imgEnd x r.2.2
    else (r.1.setOp { x with content := imgContent r.2.1, seq := byteField r.2.1 12 4 }).imgPhase 3

def execImgVerifyDone (s : State) : Out := .next s.imgVerifyDone

/-- An uncorrectable word in the bank that an APPLY fills ends the APPLY with code 5 (R444, R493). -/
def State.bankCheck (s : State) : State :=
  if !s.hub.bankBad then s
  else
    let s1 := s.modHub (fun h => { h with bankBad := false })
    match s1.hub.imgOp with
    | some x => if x.op = 3 then (s1.unreconf x.target).imgEnd x 5 else s1
    | none => s1

/-- The reconfiguration request (R376 phase 4, R209): footholds are squashed, RECONF is set. -/
def State.imgRequest (s : State) (x : ImgOp) : State :=
  let t := x.target
  let late := match x.at' with
    | some a => decide (a < s.now)
    | none => false
  let s1 := ((s.setOp { x with reqAt := some s.now }).seqCause t .reconf).flag (SEQ_STAT t) SEQ_STAT.RECONF true
  ((if late then s1.flag IMG_STAT IMG_STAT.AT_LATE true else s1).seqLook t).refreshSeq t

/-- IMG_TRANSFER_DONE (R376 phases 3 and 4): the inactive banks hold the image; a region under restart is asked once the restart
has ended (R388). Sections wait while the die's spine retrains. -/
def State.imgTransferDone (s : State) : State :=
  match s.applyIn 3 with
  | none => s
  | some x =>
    if s.spineOut (x.target / 4) then s
    else
      let s1 := (((s.spineXfer (x.target / 4) 1).writeBank x.target (1 - (s.region x.target).bank) x.content).imgPhase 4).bankCheck
      if s1.applyIn 4 = none || s1.restarting x.target then s1 else s1.imgRequest x

def execImgTransferDone (s : State) : Out := .next s.imgTransferDone

/-- The region stands at a quiescent point (R207). -/
def State.quiescent (s : State) (t : Nat) : Bool :=
  !s.seqRunning t || ((s.seq t).conf = none && s.is (SEQ_STAT t) SEQ_STAT.QP)

/-- The swap boundary of an APPLY requested at `req` (R377): not before the present PCLK cycle; without AT at least 4 ECLK cycles after the
quiescent point, which a running flow reaches by the close of its last step and the arrival at its barrier. -/
def State.swapAt (s : State) (x : ImgOp) (req : Nat) : Nat :=
  let q := s.seq x.target
  nextMultiple 80000 (max (s.now / pclkTicks * pclkTicks) (match x.at' with
    | some a => max a req
    | none => max (max q.closedAt q.qpAt) req + leadTicks))

/-- With AT = 1 the confirmed step closes with outcome ABORT at the swap boundary `b`, its windows early, and no vector is taken
(R209, R377). -/
def State.abortAt (s : State) (t b : Nat) : State :=
  match (s.seq t).conf with
  | none => s
  | some c => (s.closeAt t b { c with closing := some (2, b) }).nonClean t 2 true true

/-- The swap itself, at the present instant (R379). -/
def State.swap (s : State) (x : ImgOp) : State :=
  let t := x.target
  let run := s.seqRunning t
  let s0 := s.playerStop t
  let s1 := s0.modRegion t (fun r => { r with prev := some r.img })
  let s2 := ((s1.setBank t (1 - (s1.region t).bank)).takeContent t x.content).leaveNightlight t
  let s3 := ((s2.flag (SEQ_STAT t) SEQ_STAT.RECONF false).flag (SEQ_STAT t) SEQ_STAT.RUNNING run).modSeq t (fun q =>
    { q with foot := [], conf := none, hold := true, buildAt := none, stopReq := false, forceStop := false, late := [], gone := [], told := none })
  ((((s3.tapsEnd t).setOp { x with run := run }).imgPhase 6).emitHub (0xA0 + t)).regionCause t causeImage

/-- IMG_SWAP (R377 to R379): at the swap boundary, the banks exchange; a unit that is not idle though it is regrouped makes the
swap wait, and so does an outage of the die's spine (R28). -/
def State.imgSwap (s : State) : State :=
  match s.applyIn 4 with
  | none => s
  | some x =>
    match x.reqAt with
    | none => s
    | some req =>
      let t := x.target
      if (x.at' = none && !s.quiescent t) || s.spineOut (t / 4) then s
      else
        let b := s.swapAt x req
        if (unitsOf t).any (fun p => s.regrouped x.content p && !s.idle p) then
          if s.is IMG_STAT IMG_STAT.WAIT_IDLE then s
          else (s.setOp { x with idleFrom := b }).flag IMG_STAT IMG_STAT.WAIT_IDLE true
        else
          let s1 := if x.at' = none then s else s.abortAt t b
          ((s1.flag IMG_STAT IMG_STAT.WAIT_IDLE false).advance b).swap x

def execImgSwap (s : State) : Out := .next s.imgSwap

/-- The swap whose boundary lies in the present PCLK cycle takes effect before a CANCEL of that cycle (R388). -/
def State.swapDue (s : State) : State :=
  match s.applyIn 4 with
  | none => s
  | some x =>
    match x.reqAt with
    | none => s
    | some req => if (x.at' ≠ none || s.quiescent x.target) && s.inCycle (s.swapAt x req) then s.imgSwap else s

/-- A GO (R373, R375, R382, R388, R391, R493). -/
def State.imgGo (s : State) : State :=
  let op := s.rdF IMG_CMD IMG_CMD.OP
  let tg := s.rdF IMG_CMD IMG_CMD.TARGET
  let slot := s.rdF IMG_CMD IMG_CMD.SLOT
  let src := s.rdF IMG_CMD IMG_CMD.SRC
  let start (s : State) : State :=
    (s.setOp { op := op, target := tg, slot := slot, src := src,
               at' := if s.is IMG_CMD IMG_CMD.AT then some (s.rd64 IMG_AT_LO) else none, keys := s.rd IMG_KEY_STAT }).flag IMG_STAT
      IMG_STAT.BUSY true
  if op = 0 || 6 < op then s
  else if 16 < tg || (op = 3 && tg = 16) then s.imgReport op tg 8
  else if op = 6 then
    let s := s.swapDue
    match s.hub.imgOp with
    | some x =>
      if x.op = 3 && s.rdF IMG_STAT IMG_STAT.PHASE ≤ 4 then (s.unreconf x.target).imgEnd x 11
      else s.imgReport op tg 9
    | none => s.imgReport op tg 9
  else if s.hub.imgOp ≠ none then s.imgReport op tg 9
  else
    match op with
    | 1 => start s
    | 2 => if s.slotInUse tg slot then s.imgReport op tg 16 else start s
    | 3 =>
      let s1 := (start s).imgPhase (if src = 0 then 1 else 2)
      if s.restarting tg then s1 else s1.setRgnState tg 2
    | 4 =>
      if s.slotImage tg slot = [] then s.imgReport op tg 16
      else (s.wrBit (IMG_SLOTINFO tg) 2 (slot = 1)).imgReport op tg 0
    | _ => if s.slotInUse tg slot then s.imgReport op tg 16 else start s

/-- A write of IMG_CMD: its fields are stored, and GO starts the operation. -/
def State.imgCmdWrite (s : State) (v : Word) : State :=
  let s1 := s.wr IMG_CMD ((s.rd IMG_CMD &&& ~~~ 0x1BFF#32) ||| (v &&& 0x1BFF#32))
  if getFld v IMG_CMD.GO = 1 then s1.imgGo else s1

/-- The word of a GO. -/
def imgCmdWord (op target slot src at' : Nat) : Word := w32 (2 ^ 31 + 2 ^ 12 * at' + 2 ^ 11 * src + 2 ^ 9 * slot + 16 * target + op)

/-- A host write of a GO. -/
def State.imgCmd (s : State) (f : Nat) (v : Word) : State := s.hostWrite f IMG_CMD v (fun s => s.imgCmdWrite v)

def execVerify (f : Fin 8) (target : Fin 32) (s : State) : Out := .next (s.imgCmd f (imgCmdWord 1 target 0 0 0))

def execWriteSlot (f : Fin 8) (target : Fin 32) (slot : Fin 2) (s : State) : Out :=
  .next (s.imgCmd f (imgCmdWord 2 target slot 0 0))

def execApply (f : Fin 8) (target : Fin 32) (slot src at' : Fin 2) (s : State) : Out :=
  .next (s.imgCmd f (imgCmdWord 3 target slot src at'))

def execSetBoot (f : Fin 8) (target : Fin 32) (slot : Fin 2) (s : State) : Out :=
  .next (s.imgCmd f (imgCmdWord 4 target slot 0 0))

def execEraseSlot (f : Fin 8) (target : Fin 32) (slot : Fin 2) (s : State) : Out :=
  .next (s.imgCmd f (imgCmdWord 5 target slot 0 0))

def execCancel (f : Fin 8) (s : State) : Out := .next (s.imgCmd f (imgCmdWord 6 0 0 0 0))

/-- IDLE_TMO (R378). -/
def State.idleTmo (s : State) : State :=
  match s.applyIn 4 with
  | none => s
  | some x =>
    if !s.is IMG_STAT IMG_STAT.WAIT_IDLE then s
    else ((s.advance (x.idleFrom + msTicks * max 1 (s.rdF IMG_SWAP_TMO ⟨0, 16⟩))).unreconf x.target).imgEnd x 10

def execIdleTmo (s : State) : Out := .next s.idleTmo

/-- The sequencer of region `t` goes on at ENTRY after phase 6 (R380). -/
def State.resumeAt (s : State) (t : Nat) (c : ImgContent) (run : Bool) : State :=
  let s1 := (s.wrF (SEQ_START_PC t) ⟨0, 14⟩ c.entry).modSeq t (fun q => { q with hold := false })
  if run && s1.seqRunning t then
    ((s1.modSeq t (fun q => { q with buildAt := some (c.entry % 2 ^ 14), closeSeq := s.seqTime t, closedAt := s.now })).seqLook
      t).refreshSeq t
  else if c.autostart then s1.seqStart t
  else s1

/-- IMG_DONE (R376 phases 6 and 7, R380, R381); the chunks wait for the end of an outage of the die's spine (R28). -/
def State.imgDone (s : State) : State :=
  match s.applyIn 6 with
  | none => s
  | some x =>
    let t := x.target
    if s.spineOut (t / 4) then s
    else
      let s1 := ((s.writeChunks x.content).modRegion t (fun r => { r with prev := none })).resumeAt t x.content x.run
      let s2 := if x.src = 1 then s1.setRun t (some 2)
        else (s1.setRun t (some x.slot)).wrBit (IMG_SLOTINFO t) 2 (x.slot = 1)
      (s2.emitHub 0xB0).imgEnd x 0

def execImgDone (s : State) : Out := .next s.imgDone

/-- A restart of region `t` that cut an APPLY short between its swap and DONE: the previous image is the one that the region restarts on
(R383). -/
def State.cutApply (s : State) (t : Nat) : State :=
  match (s.region t).prev with
  | none => s
  | some p =>
    let c := p.getD {}
    ((s.setBank t (1 - (s.region t).bank)).takeContent t c).modRegion t (fun r => { r with img := p, prev := none })

/-! ### Keys and rollback floors -/

/-- A write of IMG_KEY_CTRL (R372, R436): SLOT is stored, PROG programs the slot once, REVOKE revokes it for good; both are
journaled. -/
def State.keyCtrl (s : State) (v : Word) : State :=
  let k := getFld v IMG_KEY_CTRL.SLOT
  let s1 := s.wrF IMG_KEY_CTRL IMG_KEY_CTRL.SLOT k
  let s2 :=
    if getFld v IMG_KEY_CTRL.PROG = 0 then s1
    else if s1.bit IMG_KEY_STAT k then s1.flag IMG_KEY_STAT IMG_KEY_STAT.PROG_ERR true
    else
      (s1.journal (.key k ((List.range 16).flatMap (fun j => leBytes 4 (s1.rdN (IMG_KEY_DATA j)))))).setting
        IMG_KEY_STAT (s1.rd IMG_KEY_STAT ||| w32 (2 ^ k))
  if getFld v IMG_KEY_CTRL.REVOKE = 1 then s2.setting IMG_KEY_STAT (s2.rd IMG_KEY_STAT ||| w32 (2 ^ (4 + k))) else s2

def execProg (f : Fin 8) (slot : Fin 4) (s : State) : Out :=
  .next (s.hostWrite f IMG_KEY_CTRL (w32 (256 + slot)) (fun s => s.keyCtrl (w32 (256 + slot))))

def execRevoke (f : Fin 8) (slot : Fin 4) (s : State) : Out :=
  .next (s.hostWrite f IMG_KEY_CTRL (w32 (512 + slot)) (fun s => s.keyCtrl (w32 (512 + slot))))

/-- The BAR0 offset that R391 gives IMG_MIN_SEQ of a target. -/
def minSeqAddr (target : Nat) : Nat := 0x9010C + 0x10 * target

/-- A write of IMG_MIN_SEQ that raises it (R372, R436). -/
def State.minSeq (s : State) (target : Nat) (v : Word) : State :=
  if s.rdN (IMG_MIN_SEQ target) < v.toNat then s.setting (IMG_MIN_SEQ target) v else s

def execMinSeqWrite (f : Fin 8) (target : Fin 17) (v : Word) (s : State) : Out :=
  .next (s.hostWrite f (minSeqAddr target) v (fun s => s.minSeq target v))

/-! ### Boot -/

/-- The slot of a target whose image passes: BOOT's, else the other (R374). -/
def State.bootSlot (s : State) (target : Nat) : Option Nat :=
  let b := b2n (s.bit (IMG_SLOTINFO target) 2)
  let good (k : Nat) : Bool :=
    let bs := s.slotImage target k
    bs ≠ [] && s.imgCheck (s.rd IMG_KEY_STAT) bs (if target = 16 then 0x200000 else 0x100000) target = 0
  if good b then some b else if good (1 - b) then some (1 - b) else none

/-- A load that took the slot `k`: IMG_FALLBACK where BOOT names the other (R374). -/
def State.bootTook (s : State) (target k : Nat) : State :=
  let s1 := s.setRun target (some k)
  if s.bit (IMG_SLOTINFO target) 2 = (k = 1) then s1
  else
    let s2 := s1.flag IMG_STAT IMG_STAT.FALLBACK true
    if target = 16 then s2.raisePkg .imgFallback else s2.raise .imgFallback 0 2 target

/-- The package image's sections are applied (R374 step 3). -/
def State.packageImage (s : State) (c : ImgContent) (seq : Nat) : State :=
  let s1 := ({ s with blocks := c.blocks }.applyVals packageScope c.vals).each c.captures (fun s x =>
    s.modDie x.1 (fun d => { d with capOwner := x.2 }))
  let s2 := (s1.wrN IMG_PKG_SEQ seq).flag IMG_STAT IMG_STAT.NL false
  s2.each ((List.range 16).filter (fun j => s2.is (SITE_WS_CFG (j / 4) (j % 4)) SITE_WS_CFG.EN)) (fun s j => s.wsRewind (j / 4) (j % 4))

/-- Step 4 for region `t`: its image is transferred and applied, or the region stays in nightlight mode. -/
def State.bootRegion (s : State) (t : Nat) : State :=
  match s.bootSlot t with
  | none => s.raise .imgNightlight 0 2 t
  | some k =>
    let c := imgContent (s.slotImage t k)
    let s1 := ((s.bootTook t k).spineXfer (t / 4) 1).writeBank t 0 c
    (((((s1.setBank t 0).takeContent t c).leaveNightlight t).writeChunks c).setRgnState t 1).wrBit HUB_BOOT_STAT (8 + t) true

/-- Boot is complete. -/
def State.bootDone (s : State) : State := (s.wrF HUB_BOOT_STAT HUB_BOOT_STAT.STEP 7).flag HUB_BOOT_STAT HUB_BOOT_STAT.DONE true

/-- The newest records of context `i` of die `d` in the NVM, the full one with the newest snapshot laid over it (R289): the 256
bytes; none without a record. A snapshot holds bytes 0x0C to 0x23. -/
def State.ctxRecord (s : State) (d i : Nat) : Option (List (BitVec 8)) :=
  let full := mapGet [] (0x8000 * d + 2 * i + 1) s.nvm.sites
  let snap := mapGet [] (0x8000 * d + 2 * i) s.nvm.sites
  let base := if full = [] then List.replicate 256 0#8 else full
  if full = [] && snap = [] then none
  else if snap ≠ [] && (full = [] || byteField full 0xC 4 < byteField snap 0 4) then
    some (base.take 0xC ++ snap ++ base.drop 0x24)
  else some base

/-- Context `i` of die `d` is restored from its records, RESTORED_STALE where `stale` says so (R280, R289, R429). -/
def State.restoreCtx (s : State) (d i : Nat) (stale : List (BitVec 8) → Bool) : State :=
  match s.ctxRecord d i with
  | some bs =>
    let fl := byteField bs 4 2
    s.memWrite (s.ctxAt d i) (if stale bs then bs.take 4 ++ leBytes 2 (withBit fl 5) ++ bs.drop 6 else bs)
  | none => s

/-- ACC_EN of the bytes of a context (R280). -/
def accEn (bs : List (BitVec 8)) : Bool := bitOf (byteField bs 4 2) 1

/-- The contexts that have records in the NVM (R289): 0x4000·die + index. -/
def State.recorded (s : State) : List Nat := (s.nvm.sites.map (fun x => x.1 / 2)).eraseDups

/-- A restored context is marked stale (R289): the last flush has no end marker, and the context accumulates. -/
def State.staleCtx (s : State) (bs : List (BitVec 8)) : Bool := s.nvm.flushOpen && accEn bs

/-- The site contexts are restored after a POR, before any image (R289, R374): where the last flush has no end marker, every one
with ACC_EN counts as stale, and SITE_RESTORE_STALE is raised. -/
def State.restoreSites (s : State) : State :=
  if !s.hub.restore then s
  else
    let keys := s.recorded
    let stale := s.staleCtx
    let s1 := s.each keys (fun s k => s.restoreCtx (k / 0x4000) (k % 0x4000) stale)
    let lost (d : Nat) : Nat := (keys.filter (fun k => k / 0x4000 = d && ((s.ctxRecord d (k % 0x4000)).map stale).getD false)).length
    let s2 := s1.each (List.range 4) (fun s d => s.wrF (SITE_JSTAT d) SITE_JSTAT.LOST (lost d))
    if s.nvm.flushOpen then s2.raisePkg .siteRestoreStale else s2

/-- The contexts restored before the package image lie where it places the partition (R32, R278, R374 step 3): `old` is the state
before it. -/
def State.placeSites (s old : State) : State :=
  let s1 := s.modHub (fun h => { h with restore := false })
  if !s.hub.restore then s
  else
    let moved := s.recorded.filter (fun k => s.part (k / 0x4000) 1 ≠ old.part (k / 0x4000) 1)
    (s1.each moved (fun s k => s.memWrite (old.ctxAt (k / 0x4000) (k % 0x4000)) (List.replicate 256 0#8))).each moved (fun s k =>
      s.restoreCtx (k / 0x4000) (k % 0x4000) old.staleCtx)

/-- What boot reports first: a power-up, which is a stop that no host asserted (R443); a supply reset (R408), which is a stop of the
kind EXT; and a load cut short (R383). -/
def State.bootReports (s0 : State) : State :=
  let s := if s0.hub.porStop then (s0.modHub (fun h => { h with porStop := false })).recordStop Config.porStopSource.toNat 0 s0.promised else s0
  let s1 := match s.hub.supplyRst with
    | some r => (((s.modHub (fun h => { h with supplyRst := none })).wrN PWR_LAST_RESET (8 + r)).recordStop (srcNum .supplyReset 0) 0
        false).raisePkg .supplyReset
    | none => s
  match s1.hub.loadCut with
  | some t => (s1.modHub (fun h => { h with loadCut := none })).imgReport 3 t 13
  | none => s1

/-- Steps 5 and 6 (R56, R60, R374): once the skew calibration is complete and no member alignment runs, the regions with an image
leave their start barrier. -/
def State.bootResume (s : State) : State :=
  if s.rdF HUB_BOOT_STAT HUB_BOOT_STAT.STEP = 5 && s.hub.clk.skewN = none && !s.hub.clk.aligning then
    (s.each (List.range 16) State.enterImage).bootDone
  else s

/-- ALIGN_MARKER_RX (R60 step 2, R61). -/
def execAlignMarkerRx (pkg sent turn : Nat) (s : State) : Out :=
  .next (if 15 ≤ pkg then s.chainLong.bootResume else s.alignMarkerRx sent turn)

/-- ALIGN_LOAD (R60 step 6, R374). -/
def execAlignLoad (sent tow up : Nat) (s : State) : Out := .next (s.alignLoad sent tow up).bootResume

/-- ROPE_LINK_DOWN (R64, R355): the link of a port is lost, and with UP the alignment that ran over it. -/
def execRopeLinkDown (port : Fin 2) (lanes : Fin 16) (s : State) : Out := .next (s.ropeDown port lanes true).bootResume

/-- BOOT (R374): steps 1 to 6, once after a package reset. An EXTEST, CLAMP or HIGHZ holds it before step 3 (R489). The spine
links train before the first transfer; a rail below its release value holds it (R408); for the transfer boot waits in an outage (R28). With the images in force, boot stands in step 5 until the skew calibration is complete. -/
def State.boot (s : State) : State :=
  if s.is HUB_BOOT_STAT HUB_BOOT_STAT.DONE || s.hub.held ≠ none then s
  else if s.rdF HUB_BOOT_STAT HUB_BOOT_STAT.STEP = 5 then s.bootResume
  else if 2 ≤ s.hub.jtag || (List.range 4).any s.spineOut then s.wrF HUB_BOOT_STAT HUB_BOOT_STAT.STEP 2
  else
    let s0 := s.bootReports
    let s1 := (s0.each (List.range 4) State.spineUp).restoreSites
    match s1.bootSlot 16 with
    | none => ((s1.placeSites s1).raisePkg .imgNightlight).bootDone
    | some k =>
      let bs := s1.slotImage 16 k
      let s2 := ((s1.bootTook 16 k).packageImage (imgContent bs) (byteField bs 12 4)).placeSites s1
      let s3 := s2.each (List.range 16) State.bootRegion
      if s3.rdF HUB_BOOT_STAT HUB_BOOT_STAT.RGN_LOADED = 0 then s3.bootDone
      else s3.skewCalibration.wrF HUB_BOOT_STAT HUB_BOOT_STAT.STEP 5

/-! ### Nightlight mode -/

/-- The 32 bytes of a nightlight record (R386). -/
def nlBytes (p ts kind seq flags : Nat) (x : DWord) : List (BitVec 8) :=
  RecFields.bytes { ts := ts, value := x.toNat, chan := p, site := 0xFFFF, kind := kind, range := 0x17, flags := flags, seq := seq,
                    step := noStep }

/-- A nightlight record of unit `p` enters its region's result buffer on its way to ring 0 (R28, R342, R349, R386). `kind` is byte 20:
KIND 11 to 13 with QTY 1 and SRC 0. -/
def State.nlRecord (s : State) (p ts kind flags : Nat) (x : DWord) : State :=
  let m := (s.unit p).mea
  (s.modMea p (fun m => { m with seqNo := (m.seqNo + 1) % 2 ^ 32, dropSince := false })).bufferRec
    { unit := p, bytes := nlBytes p ts kind m.seqNo (flags ||| (if m.dropSince then flDropSince else 0)) x, nl := true } false

/-- NIGHTLIGHT_SECOND (R386) for unit `p`, at the present second. -/
def State.nlUnit (s : State) (p : Nat) : State :=
  let k := s.now / secTicks
  let a := mapGet {} (k - 1) (s.unit p).mea.nl
  let fl := a.flags % 2 ^ 12
  let s1 := (s.wrN (IMG_NL_FLAGS p) (fl + 2 ^ 16 * (a.n % 2 ^ 11))).modMea p (fun m => { m with nl := m.nl.filter (fun x => k ≤ x.1) })
  if a.n = 0 then s1
  else
    let mean := f64Div a.sum (f64OfInt a.n)
    let s2 := ((s1.wr64 (IMG_NL_MIN_LO p) a.min.toNat).wr64 (IMG_NL_MAX_LO p) a.max.toNat).wr64 (IMG_NL_MEAN_LO p) mean.toNat
    if s.is DMA_CFG DMA_CFG.NL_EN then
      let ts := s.dieTs (p / 64) (s.now - secTicks)
      ((s2.nlRecord p ts (recKind 11) fl mean).nlRecord p ts (recKind 12) fl a.min).nlRecord p ts (recKind 13) fl a.max
    else s2
where
  /-- Byte 20 of a record with a KIND, QTY 1 and SRC 0 (R234). -/
  recKind (k : Nat) : Nat := k + 16

/-- NIGHTLIGHT_SECOND (R386). -/
def State.nlSecond (s : State) : State :=
  let s1 := s.advance (nextMultiple secTicks s.now)
  s1.each ((List.range 256).filter (fun p => s1.nightlight (p / 16))) State.nlUnit

def execNightlightSecond (s : State) : Out := .next s.nlSecond

end Sys2Proof.Machine
end

