-- ==== Sys2Proof/Machine/Life.lean ====
section
/-! DEFINITION. The NVM journal and the life records (R437 to R442 of 14_faults_availability_life.md), and the flush of R407. -/

namespace Sys2Proof.Machine

/-! ### What is journaled -/

/-- The registers of the life records, those of relay wear included (R314, R450). -/
def lifeRegs : List Nat :=
  [LIFE_OPS_LO, LIFE_OPS_HI, LIFE_ARR_LO, LIFE_ARR_HI, LIFE_ARR_CFG, LIFE_CYCLES, LIFE_SHUT, LIFE_STOPS, LIFE_STOPS_X, LIFE_COND,
    LIFE_TJ_MEAN, LIFE_CH_STOPS, LIFE_LAST_STOP, LIFE_LAST_STOP_TS_LO, LIFE_LAST_STOP_TS_HI, LIFE_RW_WARN, LIFE_RW_LAST] ++
    (List.range 16).map LIFE_RW_THR ++ (List.range 256).map LIFE_FON

/-- The life records, the calendar and the changed relay-wear counts start to wait for their journal records (R439), and with them a
changed keep-alive fit: DESIGN CHOICE, R43 says that the NVM keeps the fit and not when it is written. The snapshots of the site stress
have the interval of R288. -/
def State.lifeJournal (s : State) : State :=
  let s1 := s.calJournal.journal (.life (lifeRegs.map (fun a => (a, s.rd a))) s.hub.life s.hub.stops)
  let rel := (s.hub.relayCnt, s.hub.relayClass, s.hub.relayWarned)
  let s2 := if rel = s.nvm.relays then s1 else s1.journal (.relays rel.1 rel.2.1 rel.2.2)
  let ka := (s.hub.clk.kaFit, s.hub.clk.kaSecs)
  if ka = s.nvm.kaFit then s2 else s2.journal (.kaFit ka.1 ka.2)

/-- LIFE_JOURNAL (R439): at the next multiple of 64 s. -/
def execLifeJournal (s : State) : Out := .next (s.advance (nextMultiple (64 * secTicks) s.now)).lifeJournal

/-- Snapshots of the changed contexts of every die start to wait for their journal records (R288). -/
def State.snapshots (s : State) : State :=
  s.each (List.range 4) (fun s d =>
    let s1 := s.foldDie d
    s1.each (s1.die d).changed (fun s i => s.siteRecord d i false))

/-- A write of LIFE_CTRL (R450): JOURNAL journals the records of R439, the snapshots of the site contexts with them. -/
def State.writeLifeCtrl (s : State) (v : Word) : State := if bitOf v.toNat 0 then s.snapshots.lifeJournal else s

def execJournal (f : Fin 8) (s : State) : Out := .next (s.hostWrite f LIFE_CTRL 1#32 (fun s => s.writeLifeCtrl 1#32))

/-- The flush of R407, items 2 and 3: the calendar, the life records, the relay counts, and the changed site contexts between
two markers (R289). -/
def State.flush (s : State) : State :=
  (s.lifeJournal.journal (.mark false)).snapshots.journal (.mark true)

/-- Every safe path of a unit has ended. -/
def State.ramped (s : State) : Bool := (List.range 256).all (fun p => (s.unit p).safe = .none)

/-- The flush that a supply warning asked for runs once the outputs have ramped (R289, R407). -/
def State.flushWhenSafe (s : State) : State :=
  if s.hub.flushDue && s.ramped then (s.modHub (fun h => { h with flushDue := false })).flush else s

/-! ### A journal record -/

/-- Journal records of the last 3,600 s (R438): what LIFE_JSTAT shows. -/
def State.jRecent (s : State) : List Nat := s.hub.jTimes.filter (fun t => s.now < t + 3600 * secTicks)

/-- A full record of a context of die `d`. -/
def JRec.fullOf (d : Nat) : JRec → Bool
  | .site e _ full _ => e = d && full
  | _ => false

/-- A record has its commit word: it is the newest of its content (R437). -/
def State.committed (s : State) (r : JRec) : State :=
  match r with
  | .cal sec t => s.modNvm (fun n => { n with cal := (sec, t) })
  | .life data acc stops => s.modNvm (fun n => { n with life := (data, acc, stops) })
  | .relays c k w => s.modNvm (fun n => { n with relays := (c, k, w) })
  | .bank p data => s.bankJournaled p data
  | .trims k data => s.modNvm (fun n => { n with trims := mapPut [] k data n.trims })
  | .mark done => s.modNvm (fun n => { n with flushOpen := !done })
  | .setting a v => s.modNvm (fun n => { n with settings := mapPut 0 a v n.settings })
  | .key k bs => s.modNvm (fun n => { n with keys := mapPut [] k bs n.keys })
  | .kaFit fit secs => s.modNvm (fun n => { n with kaFit := (fit, secs) })
  | .site d i full data =>
    let s1 := s.modNvm (fun n => { n with sites := mapPut [] (0x8000 * d + 2 * i + b2n full) data n.sites })
    if s1.nvm.queue.any (JRec.fullOf d) then s1 else s1.flag (SITE_JSTAT d) SITE_JSTAT.BUSY false

/-- A snapshot of a site context (R288). -/
def JRec.snapshot : JRec → Bool
  | .site _ _ full _ => !full
  | _ => false

/-- The contents that the next record takes from the queue (R438): up to 127 snapshots that stand first, or the first one alone. -/
def NvmState.batch (n : NvmState) : List JRec :=
  match n.queue with
  | [] => []
  | r :: rest => if r.snapshot then ((r :: rest).takeWhile JRec.snapshot).take 127 else [r]

/-- A record of a flush waits (R289). -/
def NvmState.flushing (n : NvmState) : Bool := n.queue.any (fun r => r.content = 2 || r.content = 3)

/-- The record of the contents `l`, all of area `a`, is written there (R437): its piece of at most 4,064 bytes at the end of the log, in
the next sector where it would span two. `ok` says that its pages verify; where they do not, the sector is retired and replaced from the
spare area, and the record is written again. `cut` says that power is lost before its commit word: the previous record stays in force. -/
def State.writeRecord (s : State) (a : Nat) (l : List JRec) (ok cut : Bool) : State :=
  let left := (l.flatMap JRec.payload).drop s.nvm.part
  let piece := left.take maxPayload
  let s1 := s.room a piece.length
  if !(s1.area a).fits piece.length then s1
  else if !ok && !cut then s1.retire a (s1.area a).sector
  else
    let s2 := s1.modArea a (fun x =>
      x.program a ((l.head?.map JRec.type).getD 0) (s.nvm.part / maxPayload) (l.map JRec.content) piece !cut)
    if cut then s2
    else
      let s3 := s2.modHub (fun h => { h with jTimes := s.now :: s.jRecent })
      if maxPayload < left.length then s3.modNvm (fun n => { n with part := n.part + maxPayload })
      else (s3.modNvm (fun n => { n with queue := n.queue.filter (fun r => !l.contains r), part := 0 })).each l State.committed

/-- JOURNAL_RECORD (R437, R438): a flush that has waited for the outputs puts its records into the queue first; then an erase under way
in the area of the record that has waited longest ends, with a retired sector unless `eraseOk`, and that record is written, unless 3,600
were written within the hour. Once a thermal shutdown has switched the array's supply off, erases are suspended and no record is
written, but those of a flush that meets it (R403, R410). -/
def State.journalRecord (s0 : State) (ok eraseOk cut : Bool) : State :=
  let s := s0.flushWhenSafe
  let off := s.is TMP_SHUT TMP_SHUT.SHUT
  match s.nvm.batch with
  | [] => s
  | r :: rest =>
    if 3600 ≤ s.jRecent.length || (off && !s.nvm.flushing) then s
    else
      let s1 := if off then s else s.endErase r.area eraseOk
      if (s1.area r.area).erasing ≠ none && !off then s1
      else if off && !(s1.area r.area).fits (min maxPayload ((r :: rest).flatMap JRec.payload).length) && (s1.area r.area).erasing ≠ none then s1
      else s1.writeRecord r.area (r :: rest) ok cut

def execJournalRecord (ok eraseOk cut : Bool) (s : State) : Out := .next (s.journalRecord ok eraseOk cut)

/-! ### The operating second -/

/-- The value of temperature sensor `k` in 1/16 °C, its substitute where it is excluded (R400). -/
def State.sensorVal (s : State) (k : Nat) : Int := signed 16 (s.rdF (TMP_RD k) ⟨0, 16⟩)

/-- The greatest of a list, `d` for the empty one. -/
def maxI (d : Int) : List Int → Int
  | [] => d
  | x :: l => l.foldl max x

/-- The sensors of region `t` and of the hub (R393, R395). -/
def sensorsOf (t : Nat) : List Nat := (List.range 5).map (fun c => 5 * t + c) ++ (List.range 8).map (fun j => 80 + j)

/-- The thermal value of region `t` (R395). -/
def State.thermVal (s : State) (t : Nat) : Int := maxI 0 ((sensorsOf t).map s.sensorVal)

/-- The package thermal value (R439). -/
def State.pkgTherm (s : State) : Int := maxI 0 ((List.range 16).map s.thermVal)

/-- The trough and the running peak after the value `v`, and whether it ends a thermal cycle (R441). -/
def cycleStep (c : Option (Int × Int)) (v : Int) : (Int × Int) × Bool :=
  match c with
  | none => ((v, v), false)
  | some (lo, hi) =>
    if 320 ≤ hi - lo then (if v ≤ hi - 320 then ((v, v), true) else ((lo, max hi v), false))
    else if v < lo then ((v, v), false)
    else ((lo, max hi v), false)

/-- Force-on time of unit `p` up to the present second (R439). -/
def State.forceOn (s : State) (p : Nat) : State :=
  let u := s.unit p
  let n := u.fonTicks + (if s.closed p then s.now - u.fonFrom else 0)
  if n = 0 then s
  else (s.modUnit p (fun u => { u with fonTicks := n % secTicks, fonFrom := s.now })).bump (LIFE_FON p) (n / secTicks)

/-- round(w × 2^32 / 3,600) of R440 for EA in meV, TREF and Tj in 1/16 °C; a free value where Tj is not above absolute zero, or w is
above e^60, which the record could not hold. -/
def arrheniusAdd (ea tref : Nat) (tj : Int) : Nat :=
  let a : Int := 100 * tref + 437040
  let b : Int := 100 * tj + 437040
  let num : Int := ea * 160000000000 * (b - a)
  let den : Nat := (8617333 * a * b).toNat
  if b ≤ 0 || 60 * (den : Int) < num then Config.arrhenius ea tref tj
  else ((2 * 2 ^ 32 * expReal num den + 3600 * oneFix) / (2 * 3600 * oneFix)).toNat

/-- OPERATING_SECOND (R439 to R442), at the next whole second. -/
def State.operatingSecond (s : State) : State :=
  let s1 := s.advance (nextMultiple secTicks s.now)
  let v := s1.pkgTherm
  let w := arrheniusAdd (s1.rdF LIFE_ARR_CFG LIFE_ARR_CFG.EA) (s1.rdF LIFE_ARR_CFG LIFE_ARR_CFG.TREF) v
  let s2 := (s1.wr64 LIFE_OPS_LO ((s1.rd64 LIFE_OPS_LO + 1) % 2 ^ 64)).wr64 LIFE_ARR_LO ((s1.rd64 LIFE_ARR_LO + w) % 2 ^ 64)
  let c := cycleStep s.hub.life.cycle v
  let sum := s.hub.life.tjSum + v
  let ops := s2.rd64 LIFE_OPS_LO
  let s3 := (s2.modHub (fun h => { h with life := { tjSum := sum, cycle := some c.1 } })).wrN LIFE_TJ_MEAN
    (unsigned 16 (roundFree sum (max 1 ops)))
  let s4 := if c.2 then s3.bump LIFE_CYCLES 1 else s3
  let s5 := if 1600 * (ops : Int) < sum && !s4.bit LIFE_COND 10 then s4.breach 2 else s4
  s5.each (List.range 256) State.forceOn

def execOperatingSecond (s : State) : Out := .next s.operatingSecond

/-! ### The conditions of the promise -/

/-- Scrubbing of die `d` is within its condition (R442). -/
def State.scrubOk (s : State) (d : Nat) : Bool := bitOf (s.rdN (DIE_ECC_CTRL d)) 0 && s.rdN (DIE_SCRUB_INT d) % 4096 ≤ 600

/-- Condition `c` is breached at present (R442). -/
def State.breached (s : State) (c : Nat) : Bool :=
  match c with
  | 0 => s.rdF PWR_STAT PWR_STAT.WARN ≠ 0
  | 1 => (List.range 16).any (fun t => (mapGet {} t s.hub.thermRgn).throttle)
  | 2 => 1600 * (s.rd64 LIFE_OPS_LO : Int) < s.hub.life.tjSum
  | 3 => (List.range 64).any (fun k => s.is (pilStat k) MEA_PIL_STAT.SUBST || s.is (pilStat k) MEA_PIL_STAT.PILOT_FAIL)
  | 4 => !(List.range 4).all s.scrubOk
  | _ => (List.range 545).any (fun n => s.is (FLT_SRC_STAT n) FLT_SRC_STAT.OVERDUE)

/-- LIFE_COND_RECENT_END (R442): 24 h after the last breach of condition `c`, its RECENT bit clears, unless the condition is
still breached. -/
def State.recentEnd (s : State) (c : Nat) : State :=
  if s.bit LIFE_COND (8 + c) && !s.breached c then
    (s.advance (mapGet 0 c s.hub.breaches + 86400 * secTicks)).wrBit LIFE_COND (8 + c) false
  else s

def execLifeCondRecentEnd (c : Fin 6) (s : State) : Out := .next (s.recentEnd c)

end Sys2Proof.Machine
end

