-- ==== Sys2Proof/Machine/FaultRows.lean ====
section
/-! DEFINITION. Commands of the fault hub, the scrubber, the configuration check and the injection (R416, R420 to R423, R428 to
R431 of 14_faults_availability_life.md). -/

namespace Sys2Proof.Machine

/-! ### Latches -/

/-- Source `n` latches again in an acknowledgement: COUNT = 1, the last cause as the first one, with the timestamp `t` and the bits of
`o`. -/
def State.latchAgain (s : State) (n t : Nat) (o : Occ) : State :=
  let a := FLT_SRC_STAT n
  ((((((s.flag a FLT_SRC_STAT.LATCHED true).wrF a FLT_SRC_STAT.COUNT 1).flag a FLT_SRC_STAT.CONSEQ o.conseq).flag a FLT_SRC_STAT.INJ
    o.inj).wr (FLT_FIRST_CAUSE n) (s.rd (FLT_LAST_CAUSE n))).wr64 (FLT_FIRST_TS_LO n) t).setOcc n { o with at' := t }

/-- A source is acknowledged (R421): in the PCLK cycle of an occurrence, the occurrence wins (R444); while LIVE, the source latches
again at once, from the last cause, without a reaction. DESIGN CHOICE: that latching has the severity programmed then. -/
def State.acknowledge (s : State) (n : Nat) : State :=
  let a := FLT_SRC_STAT n
  let live := s.is a FLT_SRC_STAT.LIVE
  let s1 := ((s.wrN a (b2n live)).wr (FLT_FIRST_CAUSE n) 0#32).wr64 (FLT_FIRST_TS_LO n) 0
  if s.is a FLT_SRC_STAT.LATCHED && s.inCycle (s.occ n).at' then s1.latchAgain n (s.occ n).at' { s.occ n with sev := s.sevOf n }
  else if live then s1.latchAgain n s.now { sev := s.sevOf n }
  else s1

/-- A write of FLT_SRC_STAT_n (R421, R448). -/
def State.statWrite (s : State) (n : Nat) (v : Word) : State :=
  if getFld v FLT_SRC_STAT.LATCHED = 1 then s.acknowledge n else s

def execLatched (f : Fin 8) (n : Fin 545) (s : State) : Out :=
  .next (s.hostWrite f (FLT_SRC_STAT n) 2#32 (fun s => s.statWrite n 2#32))

/-- OVERDUE (R422, R442): 1 s after source `n` latched with severity 1 or higher. -/
def State.overdue (s : State) (n : Nat) : State :=
  let a := FLT_SRC_STAT n
  if s.is a FLT_SRC_STAT.LATCHED && !s.is a FLT_SRC_STAT.OVERDUE && 1 ≤ (s.occ n).sev && n ≠ srcNum .availCond 0 then
    let s1 := (s.advance (s.rd64 (FLT_FIRST_TS_LO n) + secTicks)).flag a FLT_SRC_STAT.OVERDUE true
    ((s1.breach 5).setCause 0 causeOverdue).raisePkg .availCond n
  else s

def execOverdue (n : Fin 545) (s : State) : Out := .next (s.overdue n)

/-- PATH of source `n` cannot be written (R417). -/
def pathFixed (n : Nat) : Bool := n = srcNum .pllUnlock 0 || n = srcNum .thermShutdown 0

/-- A write of FLT_SRC_CFG_n (R416, R417); a reserved source number has no register (R10, R415). -/
def State.severityWrite (s : State) (n : Nat) (v : Word) : State :=
  if kindOf n = none then s
  else
    let a := FLT_SRC_CFG n
    let fl := s.rdF a FLT_SRC_CFG.FLOOR
    let x := getFld v FLT_SRC_CFG.SEV
    let s1 := s.wrF a FLT_SRC_CFG.SEV (max x fl)
    let s2 := if pathFixed n then s1 else s1.wrF a FLT_SRC_CFG.PATH (getFld v FLT_SRC_CFG.PATH)
    if x < fl then s2.flag FLT_STAT FLT_STAT.SEV_CLIP true else s2

def execSeverityWrite (f : Fin 8) (n : Fin 545) (v : Word) (s : State) : Out :=
  .next (s.hostWrite f (FLT_SRC_CFG n) v (fun s => s.severityWrite n v))

/-! ### Shadows -/

/-- SETTLE_US in ticks; 0 acts as 1 (R447). -/
def State.shadowTicks (s : State) : Nat := usTicks * max 1 (s.rdF FLT_CFG FLT_CFG.SETTLE_US)

/-- The reaction of a shadow of severity 2, 3, 5 or 6 has ended (R423). -/
def State.shadowMet (s : State) (h : Shadow) : Bool :=
  (unitsIn h.level h.inst).all (fun p => !s.closed p && (s.unit p).safe = .none) &&
    (h.sev ≤ 3 || (List.range 4).all (fun d => !within 3 d h.level h.inst || !(s.die d).sen))

/-- When it ended: the last opening of a covered unit since the shadow began. -/
def State.shadowEndAt (s : State) (h : Shadow) : Nat :=
  ((unitsIn h.level h.inst).map (fun p => (s.unit p).openedAt)).foldl max h.start

/-- A shadow is over: its stop has its duration (R439, R443). -/
def State.endShadow (s : State) (h : Shadow) : State :=
  s.modHub (fun x =>
    { x with
      shadows := x.shadows.erase h
      stops := match h.stop with
        | some i => x.stops.modify i (fun r => { r with dur := some (s.now - r.start) })
        | none => x.stops })

/-- SHADOW_END (R423): SETTLE_US after the end of the reaction. A restart's shadow ends with RESTART_RESUME. -/
def State.shadowEnd (s : State) (level inst : Nat) : State :=
  match s.hub.shadows.find? (fun h => h.level = level && h.inst = inst && h.sev ≠ 4) with
  | some h => if s.shadowMet h then (s.advance (s.shadowEndAt h + s.shadowTicks)).endShadow h else s
  | none => s

def execShadowEnd (level : Fin 5) (inst : Fin 256) (s : State) : Out := .next (s.shadowEnd level inst)

/-! ### The scrubber -/

/-- The scrubber of die `d`, or of the hub at 4. -/
def State.scrubber (s : State) (d : Nat) : ScrubState := mapGet {} d s.hub.scrub

/-- The state with it changed. -/
def State.modScrub (s : State) (d : Nat) (g : ScrubState → ScrubState) : State :=
  s.modHub (fun h => { h with scrub := mapPut {} d (g (s.scrubber d)) h.scrub })

/-- The next word of scrubber `d`. -/
def State.scrubPos (s : State) (d : Nat) : Nat := if d < 4 then s.rdN (DIE_SCRUB_POS d) % 2 ^ 21 else (s.scrubber 4).pos

/-- Words that scrubber `d` visits. -/
def scrubWords (d : Nat) : Nat := if d < 4 then 2 ^ 21 else 2 ^ 20

/-- The interval of die `d` in ticks (R449). -/
def State.scrubInterval (s : State) (d : Nat) : Nat := secTicks * max 10 (min 3600 (s.rdN (DIE_SCRUB_INT d) % 4096))

/-- The instant at which word `i` falls due (R428). -/
def ScrubState.due (x : ScrubState) (i n : Nat) : Nat := ((x.start + (i * (2 ^ 21 / n) * x.intv : Nat) + (2 ^ 21 - 1)) / 2 ^ 21).toNat

/-- A word is read by the scrubber and written back where it was corrected (R428); whether it is uncorrectable. -/
def State.scrubWord (s : State) (w : Nat) : State × Bool :=
  let r := s.readWord w 0 8
  (if r.2.corr then (r.1.setBytes (8 * w) r.2.bytes).setEcc w 0 else r.1, r.2.bad)

/-- A pass of scrubber `d` ends (R428). -/
def State.passEnd (s : State) (d : Nat) : State :=
  let x := s.scrubber d
  let late := x.start + 2 * x.intv * 2 ^ 21 < s.now * 2 ^ 21
  let next := if d < 4 then s.scrubInterval d else x.intv
  let s1 := s.modScrub d (fun y => { y with start := max (s.now * 2 ^ 21 : Int) (y.start + (y.intv * 2 ^ 21 : Nat)), intv := next })
  if d < 4 then
    let s2 := (s1.bump (DIE_SCRUB_PASSES d) 1).emit d 0xC38 s.now
    if late then s2.raise .scrubLate d 3 d else s2
  else s1

/-- SCRUB_READ (R428): scrubber `d` reads its next word when it is due; `upset` is what hardware faults have done to the word's
codeword since it was written. -/
def State.scrubRead (s : State) (d upset : Nat) : State :=
  if d < 4 && !bitOf (s.rdN (DIE_ECC_CTRL d)) 0 then s
  else
    let i := s.scrubPos d
    let n := scrubWords d
    let w := (if d < 4 then dieMem d 0 else hubMem) / 8 + i
    let s1 := s.advance ((s.scrubber d).due i n)
    let s2 := ((if upset = 0 then s1 else s1.setEcc w (s1.eccErr w ^^^ upset)).scrubWord w).1.bankCheck
    let j := if i + 1 < n then i + 1 else 0
    let s3 := if d < 4 then s2.wrN (DIE_SCRUB_POS d) j else s2.modScrub d (fun y => { y with pos := j })
    if j = 0 then s3.passEnd d else s3

def execScrubRead (d : Fin 5) (upset : BitVec 88) (s : State) : Out := .next (s.scrubRead d upset.toNat)

/-- A write of DIE_ECC_CTRL (R428, R442): 1 after 0 resumes the pass from POS. -/
def State.scrubEnWrite (s : State) (d : Nat) (v : Word) : State :=
  let was := bitOf (s.rdN (DIE_ECC_CTRL d)) 0
  let now := bitOf v.toNat 0
  let s1 := s.wrN (DIE_ECC_CTRL d) (b2n now)
  let s2 := if now && !was then s1.modScrub d (fun x => { x with start := s.now * 2 ^ 21 - (s.scrubPos d * x.intv : Nat) }) else s1
  if s.scrubOk d && !s2.scrubOk d then s2.breach 4 else s2

def execScrubEnWrite (f : Fin 8) (d : Fin 4) (v : Word) (s : State) : Out :=
  .next (s.hostWrite f (DIE_ECC_CTRL d) v (fun s => s.scrubEnWrite d v))

/-- A write of DIE_SCRUB_INT (R442, R449). -/
def State.scrubIntWrite (s : State) (d : Nat) (v : Word) : State :=
  let s1 := s.wrN (DIE_SCRUB_INT d) (v.toNat % 4096)
  if s.scrubOk d && !s1.scrubOk d then s1.breach 4 else s1

/-! ### Configuration -/

/-- The configuration block that register `a` belongs to: die (4 for the hub) and block number (R430); none for a register of no
block. -/
def cfgBlockOf (a : Nat) : Option (Nat × Nat) :=
  if imageMask a = 0#32 then none
  else
    match blockOf a with
    | some (.evt, d, o) =>
      if 0x2000 ≤ o && o < 0x6000 then some (d, 3 * ((o - 0x2000) / 0x1000) + 2) else some (d, 12)
    | some (.eng, t, o) => some (t / 4, 3 * (t % 4) + (if 0x100 ≤ o && o < 0x200 then 1 else 0))
    | _ =>
      match blockRegion a with
      | some t => some (t / 4, 3 * (t % 4))
      | none => if dieOf a = none then some (4, 16) else none

/-- Register `a` has been changed by a hardware fault and has the value put there still: its value as it was applied (R430). -/
def State.cfgGood (s : State) (a : Nat) : Word :=
  match s.hub.cfgFlips.find? (fun x => x.1 = a) with
  | some x => if x.2.2 = s.rd a &&& imageMask a then x.2.1 else s.rd a &&& imageMask a
  | none => s.rd a &&& imageMask a

/-- The registers of block `b` of die `d` that differ from what they hold without an image. -/
def State.cfgRegs (s : State) (d b : Nat) : List Nat :=
  (s.regs.map (·.1) ++ s.hub.cfgFlips.map (·.1)).eraseDups.filter (fun a => cfgBlockOf a = some (d, b))

/-- The CRC-32 of a block (R430, R494) over the registers that hold what no image gives, with the value that `val` gives each. DESIGN
CHOICE: neither rule states which bytes it covers; a write that the host or an image makes brings it up to date. -/
def State.cfgCrc (s : State) (d b : Nat) (val : Nat → Word) : Nat :=
  crc32 ((s.cfgRegs d b).flatMap (fun a => leBytes 4 a ++ leBytes 4 (val a).toNat))

/-- The stored CRC of a block, computed when it was applied, differs from the recomputed one (R430); `inv` inverts the stored one
(R431). -/
def State.cfgDiffers (s : State) (d b : Nat) (inv : Bool) : Bool :=
  let now := s.cfgCrc d b (fun a => s.rd a &&& imageMask a)
  let stored := s.cfgCrc d b s.cfgGood
  if inv then now ≠ 2 ^ 32 - 1 - stored else now ≠ stored

/-- Hardware faults flip the bits `x.2` of register `x.1`, where they belong to a configuration block (R430). -/
def State.cfgFlip (s : State) (x : Nat × Word) : State :=
  let m := imageMask x.1
  if cfgBlockOf x.1 = none || x.2 &&& m = 0#32 then s
  else
    let v := s.rd x.1 ^^^ (x.2 &&& m)
    (s.modHub (fun h => { h with cfgFlips := (x.1, s.cfgGood x.1, v &&& m) :: h.cfgFlips.filter (fun y => y.1 ≠ x.1) })).wr x.1 v

/-- A block whose CRC mismatches (R430). -/
def State.cfgMismatch (s : State) (d b : Nat) : State :=
  let s1 := s.modHub (fun h => { h with cfgBad := if h.cfgBad.contains (d, b) then h.cfgBad else h.cfgBad ++ [(d, b)] })
  if 4 ≤ d then s1.raise .hubCfgCrc 0 4 0 16
  else if b < 12 then s1.raise .cfgCrc d 2 (4 * d + b / 3) b
  else s1.raise .cfgCrc d 3 d b

/-- The block that the armed inversion of a stored CRC names (R431). -/
def State.cfgArmed (s : State) : Option (Nat × Nat) :=
  match s.hub.inject with
  | some j => if j.checker = 2 then (if j.target % 256 = 16 then some (4, 16) else some (j.die, j.target % 256)) else none
  | none => none

/-- CFG_CRC_CHECK (R430), at the next multiple of 10 ms: `upset` lists the registers and bits that hardware faults have flipped since
the last check; every block is recomputed. -/
def State.cfgCheck (s : State) (upset : List (Nat × Word)) : State :=
  let s1 := (s.advance (nextMultiple (10 * msTicks) s.now)).each upset State.cfgFlip
  let armed := s1.cfgArmed
  let s2 := match armed with
    | some x =>
      let q := s1.injectDone
      if s1.cfgDiffers x.1 x.2 true then (q.modHub (fun h => { h with injected := true })).cfgMismatch x.1 x.2 else q
    | none => s1
  let bs := (s1.hub.cfgFlips.filterMap (fun x => cfgBlockOf x.1)).eraseDups
  s2.each (bs.filter (fun x => armed ≠ some x && s1.cfgDiffers x.1 x.2 false)) (fun s x => s.cfgMismatch x.1 x.2)

def execCfgCrcCheck (upset : List (Nat × BitVec 32)) (s : State) : Out := .next (s.cfgCheck upset)

/-- A register of a block takes its value from the configuration shadow (R430). -/
def State.cfgRestore (s : State) (a : Nat) : State :=
  let m := imageMask a
  (s.wr a ((s.rd a &&& ~~~ m) ||| s.cfgGood a)).modHub (fun h => { h with cfgFlips := h.cfgFlips.filter (fun x => x.1 ≠ a) })

/-- CFG_RELOAD (R430): the block is reloaded from the configuration shadow at the next loop boundary of its region, or at the next LCLK
edge. -/
def State.cfgReload (s : State) (d b : Nat) : State :=
  if s.hub.cfgBad.contains (d, b) then
    let at' := if d < 4 && b < 12 then s.boundary (4 * d + b / 3) else nextMultiple usTicks s.now
    let s1 := (s.advance at').modHub (fun h => { h with cfgBad := h.cfgBad.erase (d, b) })
    let s2 := s1.each ((s1.hub.cfgFlips.map (·.1)).filter (fun a => cfgBlockOf a = some (d, b))) State.cfgRestore
    if d < 4 then (s2.bump (DIE_CFG_RELOAD d) 1).emit d 0xC39 s2.now else s2
  else s

def execCfgReload (d : Fin 5) (b : Fin 17) (s : State) : Out := .next (s.cfgReload d b)

/-! ### Injection -/

/-- A write of FLT_INJ_CTRL (R431): ARM arms unless an inversion waits already. -/
def State.writeInjCtrl (s : State) (v : Word) : State :=
  let s1 := s.wrF FLT_INJ_CTRL FLT_INJ_CTRL.MODE (getFld v FLT_INJ_CTRL.MODE)
  let s2 := s1.w1c FLT_INJ_CTRL (w32 (2 ^ FLT_INJ_CTRL.DONE.lo)) v
  if getFld v FLT_INJ_CTRL.ARM = 0 || s2.is FLT_INJ_CTRL FLT_INJ_CTRL.ARM then s2 else s2.arm

def execArm (f : Fin 8) (v : Word) (s : State) : Out := .next (s.hostWrite f FLT_INJ_CTRL v (fun s => s.writeInjCtrl v))

end Sys2Proof.Machine
end

