-- ==== Sys2Proof/Machine/Thermal.lean ====
section
/-! DEFINITION. Temperature, throttling and supplies (R393 to R412 of 13_thermal_and_supply.md). Temperatures are in units of
1/16 °C. -/

namespace Sys2Proof.Machine

/-! ### Sensors -/

/-- Sensor `k` is excluded (R400). -/
def State.sensorOff (s : State) (k : Nat) : Bool := s.bit (TMP_EXCL_0 + 4 * (k / 32)) (k % 32)

/-- What the hub holds of sensor `k`. -/
def State.sensor (s : State) (k : Nat) : SensorState := mapGet {} k s.hub.sensors

/-- The sensors on the die of sensor `k`: channel die k div 20, or the hub die. -/
def sensorDie (k : Nat) : List Nat :=
  if k < 80 then (List.range 20).map (fun j => k / 20 * 20 + j) else (List.range 8).map (fun j => 80 + j)

/-- The neighbours of sensor `k` (R393). -/
def neighbours (k : Nat) : List Nat :=
  (if k < 80 then (List.range 5).map (fun c => k / 5 * 5 + c) else (List.range 8).map (fun j => 80 + j)).filter (· ≠ k)

/-- The readings of the included ones of some sensors. -/
def State.included (s : State) (l : List Nat) : List Int := (l.filter (fun j => !s.sensorOff j)).map (fun j => (s.sensor j).raw)

/-- The substitute of sensor `k` (R400); on a die with no included sensor the spec states none. -/
def State.substituteOf (s : State) (k : Nat) : Int :=
  let n := s.included (neighbours k)
  let d := s.included (sensorDie k)
  if n ≠ [] then maxI 0 n + 80 else if d ≠ [] then maxI 0 d + 80 else (Config.lostDieTemp k).toInt

/-- TMP_RD of sensor `k` shows its value (R413). -/
def State.showSensor (s : State) (k : Nat) : State :=
  let e := s.sensorOff k
  s.wrN (TMP_RD k) (unsigned 16 (if e then s.substituteOf k else (s.sensor k).raw) + (if e then 0x30000 else 0))

/-- TMP_RD of sensor `k`, and of every excluded sensor. -/
def State.showSensors (s : State) (k : Nat) : State :=
  s.each ((List.range 88).filter (fun j => j = k || s.sensorOff j)) State.showSensor

/-- Twice the median of a list: the sum of the two middle values, which are one for an odd length. -/
def median2 (l : List Int) : Int :=
  let x := l.mergeSort (fun a b => decide (a ≤ b))
  x.getD ((x.length - 1) / 2) 0 + x.getD (x.length / 2) 0

/-- XCHK_C in 1/16 °C (R413). -/
def State.xchk (s : State) : Nat := 16 * max 1 (s.rdF TMP_CFG TMP_CFG.XCHK_C)

/-- The level and the instance of sensor `k` in a cause word: its cluster, its region, or the package. -/
def sensorInst (k : Nat) : Nat × Nat :=
  if 80 ≤ k then (4, 0) else if k % 5 = 4 then (2, k / 5) else (1, 4 * (k / 5) + k % 5)

/-! ### Thermal records -/

/-- A thermal record of sensor `k` goes to ring 0 (R409). -/
def State.thermRecord (s : State) (k : Nat) : State :=
  let enf := k < 80 && s.rdF (TMP_RGN (k / 5)) TMP_RGN.ENF ≠ 0
  let bs := RecFields.bytes
    { ts := (s.sensor k).at', value := (f64OfRat (s.sensorVal k) 16).toNat, chan := 0x1000 + k, site := 0xFFFF,
      kind := 14 + 16 * 2 + 64 * 2, range := 0, flags := (if s.sensorOff k then flSubst else 0) ||| (if enf then flEnf else 0),
      seq := s.hub.pkgSeq, step := noStep }
  (s.modHub (fun h => { h with pkgSeq := (h.pkgSeq + 1) % 2 ^ 32 })).ringPut 0 bs

/-- The record of a threshold crossing of region `t` (R409): of the first of its sensors with its thermal value. -/
def State.crossing (s : State) (t : Nat) : State :=
  if s.is TMP_CFG TMP_CFG.REC_EN then
    match (sensorsOf t).find? (fun k => s.sensorVal k = s.thermVal t) with
    | some k => s.thermRecord k
    | none => s
  else s

/-- THERMAL_RECORD (R409): one record per sensor every INT_S seconds, where REC_EN allows it. DESIGN CHOICE: at the timestamps
that are multiples of INT_S seconds. -/
def State.thermalRecords (s : State) : State :=
  if s.is TMP_CFG TMP_CFG.REC_EN then
    (s.advance (nextMultiple (max 1 (s.rdF TMP_REC ⟨0, 8⟩) * secTicks) s.now)).each (List.range 88) State.thermRecord
  else s

def execThermalRecord (s : State) : Out := .next s.thermalRecords

/-! ### Enforcement -/

/-- What the hub holds of region `t`. -/
def State.therm (s : State) (t : Nat) : ThermRegion := mapGet {} t s.hub.thermRgn

/-- The state with it changed. -/
def State.modTherm (s : State) (t : Nat) (g : ThermRegion → ThermRegion) : State :=
  s.modHub (fun h => { h with thermRgn := mapPut {} t (g (s.therm t)) h.thermRgn })

/-- Steps in force in region `t` (R398). -/
def State.enfSteps (s : State) (t : Nat) : Nat := s.rdF (TMP_RGN t) TMP_RGN.ENF

/-- The steps in force become `n`: THERM_ENFORCE, ENF_g, the interrupt; a region enters and leaves step 3 with its own factor at 1
(R398, R399, R467). -/
def State.setEnf (s : State) (t n : Nat) : State :=
  let o := s.enfSteps t
  if o = n then s
  else
    let v := s.thermVal t
    let s1 := (s.wrF (TMP_RGN t) TMP_RGN.ENF n).modTherm t (fun x =>
      { x with stepAt := s.now, stepVal := if o < n then v else x.stepVal })
    let s2 := if o = 3 || n = 3 then s1.modRegion t (fun r => { r with govK := 0x8000, power := [] }) else s1
    let s3 := if o = 0 || n = 0 then s2.modRegion t (fun r => { r with enfAt := some s.now }) else s2
    ((s3.raiseRegion .thermEnforce t).emit (t / 4) (0xC20 + t % 4) s.now).regionCause t causeThermal

/-- STEP_MS in ticks; 0 acts as 1 (R413). -/
def State.stepTicks (s : State) : Nat := msTicks * max 1 (s.rdF TMP_ENF_CFG TMP_ENF_CFG.STEP_MS)

/-- The grace time in ticks (R413). -/
def State.graceTicks (s : State) : Nat := msTicks * max 10 (min 60000 (s.rdF TMP_GRACE ⟨0, 16⟩))

/-- An excluded sensor of region `t`, or of the hub, keeps it enforced under LEGACY_BROKEN_HOT (R402). -/
def State.legacyHot (s : State) (t : Nat) : Bool :=
  s.is TMP_CFG TMP_CFG.LEGACY_BROKEN_HOT && (sensorsOf t).any s.sensorOff

/-- Steps 1 to 3 at once where R402 asks for them. -/
def State.legacyCheck (s : State) (t : Nat) : State := if s.legacyHot t then s.setEnf t 3 else s

/-- The grace timer of region `t` stops. -/
def State.stopGrace (s : State) (t : Nat) : State :=
  (s.modTherm t (fun x => { x with grace := none })).flag (TMP_RGN t) TMP_RGN.GRACE false

/-- GRACE_EXPIRY (R398): steps 1 to REQ. -/
def State.graceExpiry (s : State) (t : Nat) : State :=
  match (s.therm t).grace with
  | none => s
  | some g =>
    let s1 := (s.advance g).stopGrace t
    s1.setEnf t (max (s1.enfSteps t) (s1.rdF (TMP_RGN t) TMP_RGN.REQ))

def execGraceExpiry (t : Fin 16) (s : State) : Out := .next (s.graceExpiry t)

/-- ENF_STEP_ADD (R398): STEP_MS after the last change or test, the next step is added, unless the thermal value has fallen by at
least 1 °C since the last one was. -/
def State.stepAdd (s : State) (t : Nat) : State :=
  let n := s.enfSteps t
  let x := s.therm t
  if n = 0 || n = 3 || s.rdF (TMP_RGN t) TMP_RGN.REQ = 0 then s
  else
    let s1 := s.advance (x.stepAt + s.stepTicks)
    if s1.thermVal t ≤ x.stepVal - 16 then s1.modTherm t (fun x => { x with stepAt := s1.now })
    else s1.setEnf t (n + 1)

def execEnfStepAdd (t : Fin 16) (s : State) : Out := .next (s.stepAdd t)

/-- ENF_STEP_REMOVE (R398, R402): the last step is removed once the thermal value has stayed below 100 °C for HOLD_MS, five times
STEP_MS, and STEP_MS after the change before; not while a request is in force. -/
def State.stepRemove (s : State) (t : Nat) : State :=
  let n := s.enfSteps t
  let x := s.therm t
  match x.coolFrom with
  | none => s
  | some c =>
    if n = 0 || s.rdF (TMP_RGN t) TMP_RGN.REQ ≠ 0 || s.legacyHot t then s
    else (s.advance (max (c + 5 * s.stepTicks) (x.stepAt + s.stepTicks))).setEnf t (n - 1)

def execEnfStepRemove (t : Fin 16) (s : State) : Out := .next (s.stepRemove t)

/-! ### Readings -/

/-- The exclusion of sensor `k` is set or lifted, and journaled (R400, R436). -/
def State.sensorMark (s : State) (k : Nat) (b : Bool) : State :=
  let a := TMP_EXCL_0 + 4 * (k / 32)
  s.setting a ((s.wrBit a (k % 32) b).rd a)

/-- Sensor `k` is excluded (R400, R402). -/
def State.exclude (s : State) (k : Nat) : State :=
  let i := sensorInst k
  let s1 := ((s.sensorMark k true).raise .sensorFail 0 i.1 i.2).emitHub 0x44
  let s2 := if (sensorDie k).all s1.sensorOff then
      s1.raise .sensorDieLost 0 (if k < 80 then 3 else 4) (if k < 80 then k / 20 else 0) else s1
  (s2.showSensors k).each ((List.range 16).filter (fun t => (sensorsOf t).contains k)) State.legacyCheck

/-- The reading of sensor `k` whose count converts to `x` before trim, in 1/16 °C (R394, R414): the slope and the offset of its trim, and
the correction for its supply, which DESIGN CHOICE is nought at the nominal VDD and while the monitor has measured none. DESIGN CHOICE:
the hub's sensors, whose trims no register shows, are trimmed already. -/
def State.sensorConv (s : State) (k : Nat) (x : Int) : Int :=
  let w := (if k < 80 then s.rd (TMP_TRIM (k / 20) (k % 20)) else 0#32).toNat
  let mv := s.rdN (PWR_RAIL 0)
  let supply : Int := if mv = 0 || mv = 750 then 0 else (Config.tempSupply x mv).toInt
  (satS 16 (roundFree (x * (65536 + signed 16 (w / 65536))) 65536 + signed 16 (w % 65536) + supply)).1

/-- SENSOR_READING (R394, R400): the reading of sensor `k` at the next millisecond, cross-checked; `count` is what its count converts to
before trim. That of a die's sensor crosses the spine (R431). -/
def State.sensorReading (s0 : State) (k : Nat) (count : Int) : State :=
  let s := if k < 80 then s0.spineXfer (k / 20) 0 else s0
  let raw := s.sensorConv k count
  let s1 := s.advance (nextMultiple msTicks s.now)
  let n := s1.included (neighbours k)
  let x := s1.sensor k
  let off := raw < -880 || 2800 < raw
  let far := n ≠ [] && 2 * (s1.xchk : Int) < (2 * raw - median2 n).natAbs
  let y : SensorState :=
    if s1.sensorOff k then { x with raw := raw, at' := s1.now }
    else { raw := raw, at' := s1.now, out := if off then x.out + 1 else 0, diff := if far then x.diff + 1 else 0 }
  let s2 := (s1.modHub (fun h => { h with sensors := mapPut {} k y h.sensors })).showSensors k
  if !s1.sensorOff k && (3 ≤ y.out || 100 ≤ y.diff) then s2.exclude k else s2

def execSensorReading (k : Fin 88) (raw : BitVec 16) (s : State) : Out := .next (s.sensorReading k raw.toInt)

/-! ### Thresholds -/

/-- A condition of region `t` has ended: LIVE of its source clears unless it holds for another region. -/
def State.unliveRegion (s : State) (k : FaultKind) (c : Nat → Bool) : State :=
  if (List.range 16).any c then s else s.unlive k 0

/-- A threshold with hysteresis: set once the quantity reaches it, cleared below the clear value. -/
def hysteresis (was set clear : Bool) : Bool := if set then true else if clear then false else was

/-- The rate of rise of region `t`, in 1/16 °C/s, once 110 ms of values exist (R395). -/
def ThermRegion.rate (x : ThermRegion) : Option Int :=
  if x.hist.length < 110 then none else some ((x.hist.take 10).sum - (x.hist.drop 100).sum)

/-- Twarn of region `t` (R396). -/
def State.warnStep (s : State) (t : Nat) (v : Int) : State :=
  let was := s.is (TMP_RGN t) TMP_RGN.WARN
  let now := hysteresis was (1520 ≤ v) (v < 1472)
  let s1 := s.flag (TMP_RGN t) TMP_RGN.WARN now
  if now && !was then ((s1.raiseRegion .thermWarn t 0 true).emitHub 0x40).crossing t
  else if was && !now then
    (s1.unliveRegion .thermWarn (fun r => s1.is (TMP_RGN r) TMP_RGN.WARN)).crossing t
  else s1

/-- The rate warning of region `t` (R396). -/
def State.rateStep (s : State) (t : Nat) (rate : Option Int) : State :=
  let was := (s.therm t).rateWarn
  let w : Int := max 1 (s.rdF TMP_RATE TMP_RATE.WARN)
  let now := match rate with
    | some q => hysteresis was (16 * w ≤ q) (10 * q < 128 * w)
    | none => was
  let s1 := s.modTherm t (fun x => { x with rateWarn := now })
  if now && !was then (s1.raiseRegion .thermRate t 0 true).crossing t
  else if was && !now then (s1.unliveRegion .thermRate (fun r => (s1.therm r).rateWarn)).crossing t
  else s1

/-- The requested level (R397). -/
def reqLevel (throttle rateThr : Bool) (v : Int) : Nat :=
  if rateThr then 3 else if !throttle then 0 else if 1840 ≤ v then 3 else if 1760 ≤ v then 2 else 1

/-- Tthrottle and the rate throttle of region `t`, and its request (R396 to R398, R442). -/
def State.throttleStep (s : State) (t : Nat) (v : Int) (rate : Option Int) : State :=
  let x := s.therm t
  let thr : Int := max 1 (s.rdF TMP_RATE TMP_RATE.THR)
  let hot := hysteresis x.throttle (1680 ≤ v) (v < 1600)
  let fast := match rate with
    | some q => hysteresis x.rateThr (16 * thr ≤ q) (q < 12 * thr)
    | none => x.rateThr
  let was := s.rdF (TMP_RGN t) TMP_RGN.REQ
  let req := reqLevel hot fast v
  let s1 := (s.modTherm t (fun x => { x with throttle := hot, rateThr := fast })).wrF (TMP_RGN t) TMP_RGN.REQ req
  let s2 := if hot ≠ x.throttle then s1.crossing t else s1
  let s3 := if fast ≠ x.rateThr then s2.crossing t else s2
  let s4 := if hot && !x.throttle then s3.breach 1 else s3
  let s5 := if was = 0 && req ≠ 0 then
      (((((s4.modTherm t (fun x => { x with grace := some (s.now + s.graceTicks) })).flag (TMP_RGN t) TMP_RGN.GRACE true).raiseRegion
        .throttleReq t 0 true).emitHub 0x41).emit (t / 4) (0xC24 + t % 4) s.now).regionCause t causeThermal
    else if was ≠ 0 && req = 0 then
      (s4.stopGrace t).unliveRegion .throttleReq (fun r => r ≠ t && s4.rdF (TMP_RGN r) TMP_RGN.REQ ≠ 0)
    else s4
  if fast && !x.rateThr then (s5.stopGrace t).setEnf t 3 else s5

/-- The evaluation of region `t` (R395 to R398, R402). -/
def State.evalRegion (s : State) (t : Nat) : State :=
  let v := s.thermVal t
  let s1 := s.modTherm t (fun x =>
    { x with hist := pushHist 110 v x.hist
             coolFrom := if 1600 ≤ v then none else if x.coolFrom = none then some s.now else x.coolFrom })
  let rate := (s1.therm t).rate
  (((s1.warnStep t v).rateStep t rate).throttleStep t v rate).legacyCheck t

/-! ### The dissipation governor -/

/-- The dissipation of unit `p` over the present millisecond, in nW (R399): from the mean of its samples, in 0.25 V and nA over
0x1_8000. -/
def State.unitPower (s : State) (p : Nat) : State × Nat :=
  let u := s.unit p
  let quiet : Nat := if s.closed p then 35000000 else 15000000
  if s.isBoost p then (s, quiet)
  else if u.pwN = 0 then (s.drew, Config.unsampledPower s.freeCtr)
  else
    let m : Int := u.pwN * 0x18000
    let room := if 0 ≤ u.pwI then 60 * m - u.pwV else 60 * m + u.pwV
    (s, ((roundFree (u.pwI.natAbs * room) (4 * m * m)).toNat) + quiet)

/-- The millisecond of unit `p` ends. -/
def State.powerTick (s : State) (p : Nat) : State :=
  let x := s.unitPower p
  x.1.modUnit p (fun u => { u with power := x.2, pwV := 0, pwI := 0, pwN := 0 })

/-- The dissipation of some units in nW. -/
def State.powerOf (s : State) (ps : List Nat) : Nat := (ps.map (fun p => (s.unit p).power)).sum

/-- The estimates of the present millisecond enter the running means (R399). -/
def State.powerMs (s : State) : State :=
  let s1 := s.each (List.range 256) State.powerTick
  let s2 := s1.each (List.range 16) (fun s t =>
    let w := s.powerOf (unitsOf t)
    s.modRegion t (fun r => { r with power := pushHist 10 w r.power }))
  let h := pushHist 10 (s2.powerOf (List.range 256)) s2.hub.power
  (s2.modHub (fun x => { x with power := h })).wrF PWR_EST ⟨0, 16⟩
    (min 65535 (roundFree (16 * h.sum) (max 1 h.length * 1000000000)).toNat)

/-- A factor after an update (R399): `sum` nW over `n` milliseconds against a budget in nW. -/
def govStep (k : Nat) (sum n budget : Nat) : Nat :=
  if budget * n < sum then max (roundFree 0x8000 20).toNat (roundFree (k * (budget * n)) (max 1 sum)).toNat
  else if 100 * sum < 95 * (budget * n) then min 0x8000 (roundFree (k * 105) 100).toNat
  else k

/-- The package budget in nW (R413). -/
def State.budget (s : State) : Nat := 1000000000 * max 10 (min 80 (s.rdF PWR_BUDGET ⟨0, 8⟩))

/-- The capped budget of a region under step 3, in nW (R398). -/
def State.capBudget (s : State) : Nat := s.budget * max 5 (min 100 (s.rdF TMP_ENF_CFG TMP_ENF_CFG.FRAC)) / 1600

/-- Who was over budget at an update: DISS_LIMIT begins at bit `j` where `above` begins, and its LIVE ends with the last. -/
def State.govFlag (s : State) (j : Nat) (above : Bool) : State :=
  let was := bitOf s.hub.govOver j
  let s1 := s.modHub (fun h => { h with govOver := if above then withBit h.govOver j else withoutBit h.govOver j })
  if above && !was then (if j = 16 then s1.raisePkg .dissLimit 0 true else s1.raiseRegion .dissLimit j 0 true)
  else if was && s1.hub.govOver = 0 then s1.unlive .dissLimit 0
  else s1

/-- GOVERNOR_UPDATE (R399), at the next multiple of 10 ms. -/
def State.governorUpdate (s : State) : State :=
  let s1 := s.advance (nextMultiple (10 * msTicks) s.now)
  let h := s1.hub.power
  let k := s1.rdF PWR_GOV PWR_GOV.K
  let k' := govStep k h.sum h.length s1.budget
  let s2 := (s1.wrN PWR_GOV (k' + (if k' < 0x8000 then 0x10000 else 0))).govFlag 16 (s1.budget * h.length < h.sum)
  let s3 := if k = 0x8000 && k' < 0x8000 then s2.emitHub 0x45 else s2
  s3.each (List.range 16) (fun s t =>
    let r := s.region t
    if s.enfSteps t = 3 then
      (s.modRegion t (fun r => { r with govK := govStep r.govK r.power.sum r.power.length s.capBudget })).govFlag t
        (s.capBudget * r.power.length < r.power.sum)
    else s.govFlag t false)

def execGovernorUpdate (s : State) : Out := .next s.governorUpdate

/-- THERMAL_EVALUATION (R395, R396, R399), at the next millisecond: the thresholds of every region, and the dissipation of the
millisecond. -/
def State.thermalEvaluation (s : State) : State :=
  (((s.advance (nextMultiple msTicks s.now)).each (List.range 16) State.evalRegion)).powerMs

def execThermalEvaluation (s : State) : Out := .next s.thermalEvaluation

/-! ### Shutdown and restart -/

/-- Trestart, its 10 s apart (R396, R410): every included sensor at or below 95 °C, and no rail below its warning threshold. -/
def State.restartCool (s : State) : Bool :=
  (s.included (List.range 88)).all (fun v => v ≤ 1520) && s.rdF PWR_STAT PWR_STAT.WARN = 0

/-- The instant 10 s after the last shutdown. -/
def State.restartFrom (s : State) : Nat := s.hub.shuts.headD 0 + 10 * secTicks

/-- The windows, each with its step, that are open in region `t` though their step is not the confirmed one: those of a HALT step
(R201). -/
def State.looseWins (s : State) (t : Nat) : List (Nat × Nat) :=
  (((unitsOf t).flatMap (fun p => (s.unit p).mea.wins.map (fun w => (w.win, w.step)))).filter (fun x =>
    (s.seq t).conf.map ConfStep.num ≠ some x.2)).eraseDups

/-- They close early (R227, R404); those of the confirmed step close with it. -/
def State.closeLoose (s : State) (t : Nat) : State :=
  s.each (s.looseWins t) (fun s x => s.closeWindow t x.1 s.now (s.winUnits t x.1 x.2) true)

/-- THERM_SHUTDOWN (R403, R404): the comparator of an included sensor trips, or the substitute of an excluded one reaches 125 °C. The
crossing of Tshut has its record (R409). A trip during a restart shuts down anew. -/
def State.thermShutdown (s : State) (k : Nat) : State :=
  if (s.is TMP_SHUT TMP_SHUT.SHUT && s.hub.restartTrims = none) || (s.sensorOff k && s.sensorVal k < 2000) then s
  else
    let shuts := s.now :: s.hub.shuts.filter (fun t => s.now < t + 3600 * secTicks)
    let s1 := s.modHub (fun h => { h with shuts := shuts, restartTrims := none })
    let s2 := (((s1.wrF TMP_SHUT TMP_SHUT.SENSOR k).flag TMP_SHUT TMP_SHUT.SHUT true).bumpSat TMP_SHUT TMP_SHUT.COUNT 1).flag TMP_SHUT
      TMP_SHUT.NO_AUTO (3 ≤ shuts.length)
    let s3 := s2.each (List.range 4) (fun s d => s.wrN (TMP_DSTAT d) 3)
    let s4 := ((((s3.bump LIFE_SHUT 1).raisePkg .thermShutdown 0 true).each (List.range 16) State.closeLoose).emitHub 0x42).allCause
      causeShutdown
    if s4.is TMP_CFG TMP_CFG.REC_EN then s4.thermRecord k else s4

def execThermShutdown (k : Fin 88) (s : State) : Out := .next (s.thermShutdown k)

/-- A write of TMP_CTRL (R400, R405): READMIT re-admits SENSOR; RESTART is kept where it finds Trestart met in a shutdown. -/
def State.writeTmpCtrl (s : State) (v : Word) : State :=
  let k := getFld v TMP_CTRL.SENSOR
  let s1 := s.wrF TMP_CTRL TMP_CTRL.SENSOR k
  let s2 := if getFld v TMP_CTRL.RESTART = 1 && s1.is TMP_SHUT TMP_SHUT.SHUT && s1.restartCool && s1.restartFrom ≤ s1.now then
      s1.flag TMP_CTRL TMP_CTRL.RESTART true else s1
  if getFld v TMP_CTRL.READMIT = 1 && k < 88 && s2.sensorOff k then
    ((s2.sensorMark k false).modHub (fun h =>
      { h with sensors := mapPut {} k { s2.sensor k with out := 0, diff := 0 } h.sensors })).showSensors k
  else s2

def execReadmit (f : Fin 8) (k : Fin 128) (s : State) : Out :=
  .next (s.hostWrite f TMP_CTRL (w32 (256 + k)) (fun s => s.writeTmpCtrl (w32 (256 + k))))

def execTmpRestartWrite (f : Fin 8) (k : Fin 128) (s : State) : Out :=
  .next (s.hostWrite f TMP_CTRL (w32 (128 + k)) (fun s => s.writeTmpCtrl (w32 (128 + k))))

/-- Self-trim phase 0 of the pilot of cluster `k` at a restart (R405). DESIGN CHOICE: a handover that the shutdown interrupted is given up,
its slice back in its role with the trims it had before. -/
def State.restartTrim (s : State) (k : Nat) : State :=
  let c := s.cluster k
  let s1 := if s.inPhase k 4 then s.wrN (MEA_TRIM (k / 4) (k % 4) (s.pilSlice k)) c.oldTrim else s
  let s2 := if s.is (pilStat k) MEA_PIL_STAT.SUBST then s1 else s1.sliceResumes k
  (s2.modCluster k (fun c => { c with busy := true, only := true, restoring := false, failed := false, phaseAt := s.now })).pilPhase k 0

/-- The restart ends (R405) once every pilot has been trimmed and the skew calibration is complete: SHUT clears, TRESTART is emitted. -/
def State.restartEnd (s : State) : State :=
  if s.hub.restartTrims = some [] && s.hub.clk.skewN = none then
    let s1 := ((s.modHub (fun h => { h with restartTrims := none })).flag TMP_SHUT TMP_SHUT.SHUT false).flag TMP_SHUT TMP_SHUT.NO_AUTO false
    let s2 := s1.each (List.range 16) (fun s t =>
      s.modTherm t (fun x => { x with stepAt := s.now, stepVal := s.thermVal t,
                                      coolFrom := x.coolFrom.map (fun _ => s.now) }))
    ((s2.unlive .thermShutdown 0).emitHub 0x43).allCause causeShutdown
  else s

/-- The pilot of cluster `k` has been trimmed. -/
def State.restartTrimmed (s : State) (k : Nat) : State :=
  (s.modHub (fun h => { h with restartTrims := h.restartTrims.map (fun l => l.filter (· ≠ k)) })).restartEnd

/-- PILOT_SELF_TRIM_DONE (R238, R241, R244, R405). -/
def execPilotSelfTrimDone (k : Fin 64) (off : Int) (gain : Int) (refs : List Int) (s : State) : Out :=
  .next (if s.inPhase k 0 then (s.selfTrimDone k off gain refs).restartTrimmed k else s)

/-- SKEW_CAL_DONE (R56, R374, R405). -/
def execSkewCalDone (s : State) : Out := .next s.skewCalDone.bootResume.restartEnd

/-- The record of the crossing of Trestart (R409). DESIGN CHOICE: of the hottest included sensor, which is the last to cross. -/
def State.restartRecord (s : State) : State :=
  let on := (List.range 88).filter (fun k => !s.sensorOff k)
  match on.find? (fun k => (s.sensor k).raw = maxI (s.sensor k).raw (s.included (List.range 88))) with
  | some k => if s.is TMP_CFG TMP_CFG.REC_EN then s.thermRecord k else s
  | none => s

/-- THERMAL_RESTART (R405): with Trestart met, and AUTO_RESTART without NO_AUTO or the host's request, the analog domains return, and 20 ms
later the trims and the skew calibration begin. -/
def State.thermalRestart (s : State) : State :=
  let auto := s.is TMP_CFG TMP_CFG.AUTO_RESTART && !s.is TMP_SHUT TMP_SHUT.NO_AUTO
  if s.is TMP_SHUT TMP_SHUT.SHUT && s.hub.restartTrims = none && s.restartCool && (auto || s.is TMP_CTRL TMP_CTRL.RESTART) then
    let s1 := (s.restartRecord.flag TMP_CTRL TMP_CTRL.RESTART false).advance (max s.now s.restartFrom + 20 * msTicks)
    let s2 := s1.each (List.range 4) (fun s d => s.wrN (TMP_DSTAT d) 0)
    ((s2.each (List.range 64) State.restartTrim).each (List.range 256) (fun s p =>
      s.modMea p (fun m => { m with v := m.v.clear, i := m.i.clear, refilter := true }))).skewCalibration.modHub (fun h =>
        { h with restartTrims := some (List.range 64) })
  else s

def execThermalRestart (s : State) : Out := .next s.thermalRestart

/-! ### Supplies -/

/-- The thresholds of rail `r` in 100 µV: warning below, warning clears above, reset below, reset releases above, over-voltage above
(R406). -/
def railLimits (r : Nat) : Nat × Nat × Nat × Nat × Nat :=
  ([(7125, 7275, 6750, 6975, 7875), (8075, 8245, 7650, 7905, 8925), (17100, 17460, 16200, 16740, 18900),
    (47500, 48500, 45000, 46500, 52500)] : List (Nat × Nat × Nat × Nat × Nat)).getD r (140000, 143000, 130000, 135000, 157500)

/-- The magnitude of rail `r` (R413): what its comparators see through their filters (R406). -/
def State.setRail (s : State) (r : Nat) (mv : BitVec 16) : State := s.wrN (PWR_RAIL r) mv.toNat

/-- A supply warning interrupts a WRITE_SLOT (R373). DESIGN CHOICE: the operation ends with code 13; R493 gives the interruption no
code of its own. -/
def State.supplyCut (s : State) : State :=
  match s.hub.imgOp with
  | some x => if x.op = 2 then s.writeCut.imgEnd x 13 else s
  | none => s

/-- SUPPLY_WARN (R406, R407, R442): rail `r` falls to `mv`, and crosses its warning threshold where that lies below it. -/
def State.supplyWarn (s : State) (r : Nat) (mv : BitVec 16) : State :=
  let s1 := s.setRail r mv
  if s1.bit PWR_STAT r || (railLimits r).1 ≤ 10 * mv.toNat then s1
  else
    let s2 := ((s1.wrBit PWR_STAT r true).wrBit PWR_STAT (8 + r) true).bump PWR_WARN_CNT 1
    (((((s2.breach 0).raisePkg .supplyWarn 0 true).emitHub (0x50 + r)).allCause causeSupply).supplyCut.modHub (fun h =>
      { h with flushDue := true })).flushWhenSafe

def execSupplyWarn (r : Fin 6) (mv : BitVec 16) (s : State) : Out := .next (s.supplyWarn r mv)

/-- SUPPLY_WARN_CLEAR (R406, R407): rail `r` rises to `mv`; above its release value it holds the package in reset no longer (R408). -/
def State.supplyClear (s : State) (r : Nat) (mv : BitVec 16) : State :=
  let l := railLimits r
  let s0 := s.setRail r mv
  let s1 := if l.2.2.2.1 < 10 * mv.toNat then s0.modHub (fun h => { h with held := h.held.filter (· ≠ r) }) else s0
  if 10 * mv.toNat ≤ l.2.1 then s1
  else
    let s2 := s1.wrBit PWR_STAT r false
    if s2.rdF PWR_STAT PWR_STAT.WARN = 0 then s2.unlive .supplyWarn 0 else s2

def execSupplyWarnClear (r : Fin 6) (mv : BitVec 16) (s : State) : Out := .next (s.supplyClear r mv)

/-- SUPPLY_OV (R406, R407, R442): rail `r` rises to `mv`, and crosses its over-voltage threshold where that lies between its last value and
`mv`. -/
def State.supplyOver (s : State) (r : Nat) (mv : BitVec 16) : State :=
  let s1 := s.setRail r mv
  if 10 * mv.toNat ≤ (railLimits r).2.2.2.2 || (railLimits r).2.2.2.2 < 10 * s.rdN (PWR_RAIL r) then s1
  else ((s1.wrBit PWR_STAT (16 + r) true).breach 0).raisePkg .supplyOv

def execSupplyOv (r : Fin 6) (mv : BitVec 16) (s : State) : Out := .next (s.supplyOver r mv)

/-- PWR_FLUSH_EST (R407, R413): 4 ms, and 4 µs for each changed context, rounded up to milliseconds. -/
def State.flushEst (s : State) : Nat :=
  4 + ceilDiv (4 * ((List.range 4).map (fun d => (s.die d).changed.length)).sum) 1000

/-! ### Alarm pins -/

/-- THERM_N is driven low (R396). -/
def State.thermLow (s : State) : Bool :=
  s.is TMP_SHUT TMP_SHUT.SHUT || (List.range 16).any (fun t => s.rdF (TMP_RGN t) TMP_RGN.REQ ≠ 0 || s.enfSteps t ≠ 0)

/-- PWR_WARN_N is driven low (R407). -/
def State.pwrWarnLow (s : State) : Bool := s.rdF PWR_STAT PWR_STAT.WARN ≠ 0

end Sys2Proof.Machine
end

