-- ==== Sys2Proof/Machine/Reads.lean ====
section
/-! DEFINITION. Host reads of registers: what each register shows (the register tables of every chapter), the shadows that a
LO-first read latches (R47, R50, R277, R386, R459), read-to-clear fields (R9), requests of several DWORDs (R456), refused
reads (R460) and reads of a die whose spine is down (R350). -/

namespace Sys2Proof.Machine

/-! ### What a register shows -/

/-- The TAI second and the UTC second at the present tick (R54). -/
def State.utcSecond (s : State) : Nat := unsigned 48 ((s.calendar.1 : Int) - leapOffset s.hub.clk.leap s.calendar.1)

/-- A register of the time block (R70). -/
def State.timeShows (s : State) (a : Nat) : Word :=
  if a = HUB_TS_LO then w32 (s.now % 2 ^ 32)
  else if a = HUB_TS_HI then w32 (s.now / 2 ^ 32)
  else if a = HUB_KA_STAT then setFld (s.rd a) HUB_KA_STAT.OFFSET s.kaOffset
  else if a = HUB_CAL_FRAC then w32 (calFrac s.calendar.2)
  else if a = HUB_CAL_SEC_LO then w32 (s.calendar.1 % 2 ^ 32)
  else if a = HUB_CAL_SEC_HI then w32 (s.calendar.1 / 2 ^ 32 % 2 ^ 16)
  else if a = HUB_UTC_SEC_LO then w32 (s.utcSecond % 2 ^ 32)
  else if a = HUB_UTC_SEC_HI then
    w32 (s.utcSecond / 2 ^ 32 + 2 ^ 16 * unsigned 16 (leapOffset s.hub.clk.leap s.calendar.1))
  else s.rd a

/-- A register of the identity block (R464). -/
def State.idShows (s : State) (a : Nat) : Word :=
  if a = HUB_ID then w32 (0x00092560 + Config.dieRev.toNat)
  else if a = HUB_SERIAL_LO then w32 (Config.serial.toNat % 2 ^ 32)
  else if a = HUB_SERIAL_HI then w32 (Config.serial.toNat / 2 ^ 32)
  else s.rd a

/-- A register of the life block (R314, R450): those that show a selected relay or area. -/
def State.lifeShows (s : State) (a : Nat) : Word :=
  let r := s.rdN LIFE_RW_SEL
  let k := s.rdN LIFE_NVM_SEL
  if a = LIFE_RW_CNT then w32 (mapGet 0 r s.hub.relayCnt)
  else if a = LIFE_RW_CLASS then w32 (mapGet 0 r s.hub.relayClass)
  else if a = LIFE_NVM_ERASE then w32 (s.wearHigh k)
  else if a = LIFE_NVM_MEAN then w32 (s.wearMean k)
  else if a = LIFE_NVM_SPARE then w32 s.nvm.spare
  else if a = LIFE_JSTAT then w32 (min s.jRecent.length 4095)
  else s.rd a

/-- A register of the data-movement block (R359, R362): those of the auditor show the selected pool
at the last audit, all zero before the first (DESIGN CHOICE for the total, whose reset value R362 gives as 0). -/
def State.dmaShows (s : State) (a : Nat) : Word :=
  let n := s.rdN DMA_AUD_SEL
  let x : Nat × Nat × Nat × Nat := mapGet (0, 0, 0, 0) n s.hub.audit
  if a = DMA_AUD_TOTAL then w32 x.1
  else if a = DMA_AUD_HELD then w32 x.2.1
  else if a = DMA_AUD_INFL then w32 x.2.2.1
  else if a = DMA_AUD_RET then w32 x.2.2.2
  else if a = DMA_AUD_STAT then setFld (s.rd a) DMA_AUD_STAT.MISM (min 1 (mapGet 0 n s.hub.auditMism))
  else s.rd a

/-- The data of the head message of the mailbox. -/
def State.mbxData (s : State) : Nat := ((s.hub.mbx.head?.map (fun m => m.data.toNat))).getD 0

/-- A register of the ROPE block (R364). -/
def State.ropeShows (s : State) (a : Nat) : Word :=
  if a = ROPE_MBX_RXD_LO then w32 (s.mbxData % 2 ^ 32)
  else if a = ROPE_MBX_RXD_HI then w32 (s.mbxData / 2 ^ 32)
  else if a = ROPE_MBX_RXC then s.mbxHead
  else s.rd a

/-- The bits of a 32-channel word that function `f` may read (R326). -/
def State.readable (s : State) (f d k m : Nat) : Nat :=
  (List.range 32).foldl (fun x j => if bitOf m j && s.chanRight f d (32 * k + j) = none then x + 2 ^ j else x) 0

/-- Register `o` of the event block of die `d`, as function `f` sees it (R326, R332, R336, R337). -/
def State.evtShows (s : State) (f d o a : Nat) : Word :=
  let i := (o - 0x2000) / 16
  if 0x80 ≤ o && o < 0xC0 then w32 (s.readable f d ((o - 0x80) / 4) (s.rdN a))
  else if 0xC0 ≤ o && o < 0x100 then w32 (s.readable f d ((o - 0xC0) / 4) (s.levelWord d ((o - 0xC0) / 4)))
  else if 0x2000 ≤ o && o < 0x6000 && o % 16 = 0 && 0x10 ≤ i % 0x100 && i % 0x100 < 0x20 then
    setFld (s.rd a) EVT_IN_CFG.SEL
      (s.rdF (ENG_RC_CFG (16 * (4 * d + i / 0x100) + (i % 0x100 - 0x10))) ENG_RC_CFG.SRC_CH)
  else if 0xB000 ≤ o && o < 0xB100 && o % 16 = 0 then w32 (s.cntAt d ((o - 0xB000) / 16) s.now)
  else if 0xB200 ≤ o && o < 0xB220 && s.is a EVT_EVIO.DIR then
    let k := (o - 0xB200) / 4
    setFld (s.rd a) EVT_EVIO.PIN (b2n (
      if s.is a EVT_EVIO.LVL then s.selLevel d (s.rdF (EVT_IN_CFG d (0x400 + k)) EVT_IN_CFG.SEL) (s.now - 1) != s.is a EVT_EVIO.INV
      else (s.die d).pulses.any (fun x => x.1 = k && x.2.1 ≤ s.now && s.now < x.2.2)))
  else s.rd a

/-- The fields of SEQ_FOOTHOLD_PC, STAT and SWP that are not reserved (R214, R215). -/
def footholdMask (o : Nat) : Word :=
  match o % 16 with
  | 0 => 0x3FFF#32
  | 4 => 0xE3#32
  | 8 => 0x3FFFF#32
  | _ => 0#32

/-- One bit per unit of region `t` for which `p` holds. -/
def unitBits (t : Nat) (p : Nat → Bool) : Nat :=
  (List.range 16).foldl (fun m u => if p (16 * t + u) then m + 2 ^ u else m) 0

/-- SEQ_CTRL of region `t`: STOP and ABORT read 1 from the write until the confirmed step has closed (R9, R207, R214). -/
def State.seqCtrlShows (s : State) (t : Nat) : Word :=
  let q := s.seq t
  let aborts := (q.conf.map (fun c => (c.closing.map (fun x => x.1 == 2)).getD false)).getD false ||
    q.late.any (fun x => match x.1 with
      | .abort _ => true
      | _ => false)
  setFld (setFld (s.rd (SEQ_CTRL t)) SEQ_CTRL.STOP (if q.stopReq then 1 else 0)) SEQ_CTRL.ABORT (if aborts then 1 else 0)

/-- SEQ_STAT of region `t`: WAIT_GATE at the present instant (R214). -/
def State.seqStatShows (s : State) (t : Nat) : Word :=
  setFld (s.rd (SEQ_STAT t)) SEQ_STAT.WAIT_GATE (b2n (s.seqRunning t && s.gateWaits t))

/-- What the register at `a` holds for function `f` at the present instant, before any shadow: a register that shows something
else's state is computed, every other one reads as stored. -/
def State.shows (s : State) (f a : Nat) : Word :=
  match blockOf a with
  | some (.time, _, _) => s.timeShows a
  | some (.id, _, _) => s.idShows a
  | some (.life, _, _) => s.lifeShows a
  | some (.dma, _, _) => s.dmaShows a
  | some (.rope, _, _) => s.ropeShows a
  | some (.flt, _, _) => if a = FLT_SEV_PEND then w32 s.sevPend else s.rd a
  | some (.tmp, _, _) => if a = PWR_FLUSH_EST then w32 (min s.flushEst (2 ^ 32 - 1)) else s.rd a
  | some (.msix, _, o) => s.msix f o
  | some (.die, d, o) =>
    if o = 0 then w32 (d + 16 * Config.dieRev.toNat)
    else if 0x110 ≤ o && o < 0x120 then w32 (s.spineQuota (4 * d + (o - 0x110) / 4))
    else s.rd a
  | some (.dtmp, d, o) => if o < 0x50 then s.rd (TMP_RD (20 * d + o / 4)) else s.rd a
  | some (.evt, d, o) => s.evtShows f d o a
  | some (.site, d, o) =>
    if 0x400 ≤ o && o < 0x800 && o % 0x100 = 0x18 then s.wsTotal d ((o - 0x400) / 0x100) else (s.portCatch d).rd a
  | some (.seq, t, o) =>
    if 0x100 ≤ o && o < 0x140 then Config.footholdShadow s.freeCtr &&& footholdMask o
    else if o = 0 then s.seqCtrlShows t
    else if o = 4 then s.seqStatShows t
    else s.rd a
  | some (.rdc, t, o) =>
    let p := 16 * t + (o - 0x100) / 0x40
    if o < 0x100 || 0x500 ≤ o then s.rd a
    else if o % 0x40 = 0x20 then w32 (s.flight p % 2 ^ 32)
    else if o % 0x40 = 0x24 then w32 (s.flight p / 2 ^ 32 % 2 ^ 32)
    else s.rd a
  | some (.eng, t, _) => if a = ENG_STAT t then s.engStat t else s.rd a
  | some (.prf, t, _) =>
    if a = PRF_STALL_LO t then w32 (s.stalled t % 2 ^ 32)
    else if a = PRF_STALL_HI t then w32 (s.stalled t / 2 ^ 32)
    else if a = PRF_SEQT_LO t then w32 (s.seqTime t % 2 ^ 32)
    else if a = PRF_SEQT_HI t then w32 (s.seqTime t / 2 ^ 32)
    else if a = PRF_LIM_SUM t then w32 (unitBits t (fun p => s.is (PRF_USTAT p) PRF_USTAT.PROFILE_LIMITED))
    else s.rd a
  | some (.mea, t, _) =>
    if a = MEA_STAT t then
      setFld (s.rd a) ⟨0, 16⟩
        (unitBits t (fun p => s.is (MEA_U_STAT p) MEA_U_STAT.OVR_V || s.is (MEA_U_STAT p) MEA_U_STAT.OVR_I))
    else s.rd a
  | _ => s.rd a

/-! ### Shadows -/

/-- The registers that a read of `a` latches into the shadows of the reading function (R47, R50, R186, R250, R277, R336, R386,
R448, R450, R464). -/
def latchedBy (a : Nat) : List Nat :=
  match blockOf a with
  | some (.time, _, 0) => [a + 4]
  | some (.time, _, 0x20) => [a + 4, a + 8]
  | some (.id, _, 8) => [a + 4]
  | some (.prf, _, 0x48) => [a + 4]
  | some (.life, _, o) => if o = 0 || o = 8 || o = 0x48 then [a + 4] else []
  | some (.mea, _, o) =>
    if 0x1000 ≤ o && o < 0x9000 && ((o - 0x1000) % 0x800 = 0x10 || (o - 0x1000) % 0x800 = 0x18) then [a + 4] else []
  | some (.rdc, _, o) =>
    if 0x100 ≤ o && o < 0x500 && o % 0x40 = 0 then (List.range 9).map (fun k => a + 4 + 4 * k) else []
  | some (.evt, _, o) => if 0xB100 ≤ o && o < 0xB180 && o % 16 = 0 then [a + 4] else []
  | some (.img, _, o) =>
    if 0x1000 ≤ o && o < 0x3000 && o % 0x20 = 0 then (List.range 5).map (fun k => a + 4 + 4 * k) else []
  | some (.flt, _, o) => if 0x1000 ≤ o && o % 0x20 = 0xC && (o - 0x1000) / 0x20 < 545 then [a + 4] else []
  | _ => []

/-- Register `a` reads from a shadow: some register at most nine before it latches it. -/
def fromShadow (a : Nat) : Bool := (List.range 9).any (fun k => (latchedBy (a - 4 - 4 * k)).contains a)

/-- What a read of register `a` in the PCLK cycle of an increment or a setting leaves in its RC fields (R9): the increments of a
counter, a flag that was set. The RC field of HUB_INT_RGN_f is 16 flags, every other one is one counter. -/
def State.rcKept (s : State) (r : RegRow) (a : Nat) : Word :=
  if w32 r.rc = 0xFFFF#32 then s.rd a &&& s.setNow a &&& w32 r.rc
  else ((s.rd a &&& w32 r.rc) - (s.rdCyc a &&& w32 r.rc)) &&& w32 r.rc

/-- The RC fields `m` of register `a` have been read in this cycle: another read of it returns 0 in them and keeps what the first one
kept (R9). -/
def State.rcRead (s : State) (a : Nat) (m : Word) : State :=
  { s with cycRegs := mapPut (resetOf a) a (s.rdCyc a &&& ~~~ m) s.cycRegs }

/-- What a read of register `a` returns in its RC fields in that cycle (R9): the value before the increment or the setting. -/
def State.rcShown (s : State) (a : Nat) (v : Word) : Word :=
  match regRow a with
  | some r => if r.rc = 0 || a = ROPE_MBX_RXC then v else (v &&& ~~~ w32 r.rc) ||| (s.rdCyc a &&& w32 r.rc)
  | none => v

/-- What a read of register `a` by function `f` returns (R9, R10, R459). -/
def State.view (s : State) (f a : Nat) : Word :=
  match blockOf a with
  | some (.msix, _, _) => s.shows f a
  | _ =>
    match regRow a with
    | none => 0#32
    | some r => if fromShadow a then s.shadow f a else s.rcShown a (s.shows f a) &&& ~~~ w32 r.wo

/-! ### Reads -/

/-- The side effects of a carried-out read of `a` by `f`: shadows latched, read-to-clear fields cleared, a capture read, a
mailbox entry taken and its credit returned (R9, R328, R356, R357, R459). -/
def State.readEffects (s : State) (f a : Nat) : State :=
  let s1 := s.each (latchedBy a) (fun s' h => s'.latch f h (s.shows f h))
  let s2 := match regRow a with
    | some r => if r.rc = 0 || a = ROPE_MBX_RXC then s1 else (s1.wr a ((s1.rd a &&& ~~~ w32 r.rc) ||| s.rcKept r a)).rcRead a (w32 r.rc)
    | none => s1
  match blockOf a with
  | some (.evt, d, o) =>
    if 0xB100 ≤ o && o < 0xB180 && o % 16 = 0 then
      s2.modDie d (fun y => { y with capUnread := withoutBit y.capUnread ((o - 0xB100) / 16) })
    else s2
  | some (.seq, _, o) => if 0x100 ≤ o && o < 0x140 then s2.drew else s2
  | some (.rope, _, 0x28) =>
    let s3 := s2.modHub (fun h => { h with mbx := h.mbx.tail })
    match s.hub.mbx.head?.bind MbxMsg.port with
    | some p => s3.ropeReturn p 3
    | none => s3
  | _ => s2

/-- A carried-out read of one register. -/
def State.readDone (s : State) (f a : Nat) : State := (s.answer f (s.view f a)).readEffects f a

/-- A read of the DWORD at `a` by function `f`: refused with 0 (R460), all ones at a die whose spine is down (R350), waiting
in an outage before that (R458), or carried out. -/
def State.hostRead (s : State) (f a : Nat) : State :=
  match s.refusal f a false 0#32 with
  | some r => (s.refuse f a false false r).answer f 0#32
  | none =>
    match dieOf a with
    | none => s.readDone f a
    | some d =>
      if s.spineDown d then s.accessTimeout f d true
      else if s.spineOut d then s.spineHold d (.read f a)
      else ((s.spineXfer d 1).readDone f a).spineXfer d 0

/-- DWORDs `a`, `a + 4`, … of one request, in ascending order (R456). -/
def State.hostReads (s : State) (f a : Nat) : Nat → State
  | 0 => s
  | n + 1 => State.hostReads (s.hostRead f a) f (a + 4) n

/-- A read request of function `f` for the register at `a` and the `more` DWORDs that follow it: one that is longer than 16 DWORDs
or crosses a 64-byte boundary is refused as a whole (R456); a fenced function meets FENCED first (R461). A package in reset answers
none (R408, R465). -/
def State.readRequest (s : State) (f a more : Nat) : State :=
  if !s.accepts then s
  else if 16 ≤ a % 64 / 4 + more then
    (s.refuse f a false false (if s.fenced f then rsnFenced else rsnSize)).answer f 0#32
  else s.hostReads f a (more + 1)

/-! ### The rows -/

/-- TS_LO_READ (R47), and the read requests for registers without a row of their own that follow it (R456): a read of an issue counter, of
TAKEN, OVF or BLK, of levels, of any other register (R9, R326, R336 to R338). -/
def execTsLoRead (f : Fin 8) (more : Nat × List (Fin 8 × Fin 134217728 × Nat)) (s : State) : Out :=
  .next ((s.readRequest f HUB_TS_LO more.1).each more.2 (fun s x => s.readRequest x.1 x.2.1 x.2.2))

/-- CAL_FRAC_READ (R50). -/
def execCalFracRead (f : Fin 8) (more : Nat) (s : State) : Out := .next (s.readRequest f HUB_CAL_FRAC more)

/-- RDC_PROD_LO_READ (R277). -/
def execRdcProdLoRead (f : Fin 8) (p : Fin 256) (more : Nat) (s : State) : Out :=
  .next (s.readRequest f (RDC_PROD_LO p) more)

/-- EVT_CAP_LO_READ (R328, R336). -/
def execEvtCapLoRead (f : Fin 8) (d : Fin 4) (m : Fin 8) (more : Nat) (s : State) : Out :=
  .next (s.readRequest f (EVT_CAP_LO d m) more)

/-- MBX_RXC_READ (R357): the control word is answered and the head entry removed. -/
def execMbxRxcRead (f : Fin 8) (more : Nat) (s : State) : Out := .next (s.readRequest f ROPE_MBX_RXC more)

/-- IMG_NL_MIN_LO_READ (R386). -/
def execImgNlMinLoRead (f : Fin 8) (p : Fin 256) (more : Nat) (s : State) : Out :=
  .next (s.readRequest f (IMG_NL_MIN_LO p) more)

/-- SERIAL_LO_READ (R464). -/
def execSerialLoRead (f : Fin 8) (more : Nat) (s : State) : Out := .next (s.readRequest f HUB_SERIAL_LO more)

/-- PRF_SEQT_LO_READ (R181, R186). -/
def execPrfSeqtLoRead (f : Fin 8) (t : Fin 16) (more : Nat) (s : State) : Out := .next (s.readRequest f (PRF_SEQT_LO t) more)

/-- MEA_U_LASTV_LO_READ (R250). -/
def execMeaULastvLoRead (f : Fin 8) (p : Fin 256) (more : Nat) (s : State) : Out :=
  .next (s.readRequest f (MEA_U_LASTV_LO p) more)

/-- MEA_U_LASTI_LO_READ (R250). -/
def execMeaULastiLoRead (f : Fin 8) (p : Fin 256) (more : Nat) (s : State) : Out :=
  .next (s.readRequest f (MEA_U_LASTI_LO p) more)

/-- FLT_FIRST_TS_LO_READ (R448). -/
def execFltFirstTsLoRead (f : Fin 8) (n : Fin 545) (more : Nat) (s : State) : Out :=
  .next (s.readRequest f (FLT_FIRST_TS_LO n) more)

/-- LIFE_OPS_LO_READ (R450). -/
def execLifeOpsLoRead (f : Fin 8) (more : Nat) (s : State) : Out := .next (s.readRequest f LIFE_OPS_LO more)

/-- LIFE_ARR_LO_READ (R450). -/
def execLifeArrLoRead (f : Fin 8) (more : Nat) (s : State) : Out := .next (s.readRequest f LIFE_ARR_LO more)

/-- LIFE_LAST_STOP_TS_LO_READ (R450). -/
def execLifeLastStopTsLoRead (f : Fin 8) (more : Nat) (s : State) : Out := .next (s.readRequest f LIFE_LAST_STOP_TS_LO more)

end Sys2Proof.Machine
end

