-- ==== Sys2Proof/Machine/Reducer.lean ====
section
/-! DEFINITION. The reducer of a region (08_reduction_engines.md): jobs (R252 to R254), contexts (R257), the kernel machine
(R259 to R266), verdicts (R267, R268), records (R269) and the check of the counts (R271). An instruction's row carries it out
where it is the next instruction of the section in execution. -/

namespace Sys2Proof.Machine

/-! ### Instruction words -/

/-- Fields of a kernel instruction (R262). -/
def kOp (w : Nat) : Nat := w / 2 ^ 26 % 64
def kD (w : Nat) : Nat := w / 2 ^ 19 % 128
def kA (w : Nat) : Nat := w / 2 ^ 12 % 128
def kB (w : Nat) : Nat := w / 2 ^ 5 % 128
def kI (w : Nat) : Nat := w % 32

/-- A block of `n` registers from operand code `c` lies wholly in the accumulators below `st` or wholly in Y0 to Y7 (R259). -/
def regBlock (st c n : Nat) : Bool := c + n ≤ st || (0x40 ≤ c && c + n ≤ 0x48)

/-- A source operand code (R259). -/
def srcOk (st c : Nat) : Bool := c < st || (0x40 ≤ c && c ≤ 0x5C)

/-- The word is a legal instruction in a context with STATE = `st` and HBINS = `hb` (R259, R262). -/
def kLegal (st hb w : Nat) : Bool :=
  let d := kD w
  let a := kA w
  let b := kB w
  let i := kI w
  let dst (n : Nat) : Bool := regBlock st d n
  let no (x : Nat) : Bool := x == 0
  match kOp w with
  | 0x00 => no d && no a && no b && no i
  | 0x01 | 0x07 | 0x0A => dst 1 && srcOk st a && no b && no i
  | 0x02 | 0x03 | 0x04 | 0x05 | 0x06 | 0x08 | 0x09 => dst 1 && srcOk st a && srcOk st b && no i
  | 0x0B | 0x0C => dst 2 && srcOk st a && no b && no i
  | 0x0D => dst 3 && srcOk st a && no b && no i
  | 0x0E => dst 2 && regBlock st a 3 && no b && no i
  | 0x0F => dst 5 && no a && no b && no i
  | 0x10 => dst 2 && regBlock st a 5 && no b && no i
  | 0x11 => no d && srcOk st a && no b && i < 15 && hb ≠ 0
  | 0x12 => dst 7 && no a && no b && i ≠ 0
  | 0x13 => dst 7 && srcOk st a && no b && no i
  | 0x14 => dst 4 && regBlock st a 7 && no b && no i
  | 0x15 | 0x16 => no d && no a && no b && i < 16
  | 0x17 => no d && srcOk st a && srcOk st b && no i
  | 0x18 => d < 16 && srcOk st a && no b && i < 16
  | 0x19 => d < 16 && srcOk st a && no b && no i
  | 0x1A => no d && no a && no b && i < 4
  | 0x1B | 0x1D => no d && srcOk st a && no b && i < 8
  | 0x1C => dst 1 && no a && no b && i < 8
  | 0x1E => no d && no a && no b && i < 8
  | 0x1F => no d && no a && no b && i < 8
  | _ => false

/-! ### The section in execution -/

/-- ECLK cycles of execution are counted for RDC_LOAD (R254). -/
def State.kCycles (s : State) (t n : Nat) : State := s.modRed t (fun r => { r with cycles := r.cycles + n })

/-- The reducer of region `t` begins nothing more: a kernel record waits (R349), or, under enforcement step 1, it has executed for
TMP_ENF_CFG.RDC ‰ of the 400,000 ECLK cycles of the present millisecond (R398). DESIGN CHOICE: the share is counted over the
milliseconds of RDC_LOAD, and what has begun is completed. -/
def State.kHeld (s : State) (t : Nat) : Bool :=
  (s.red t).waiting ≠ [] ||
    (1 ≤ s.rdF (TMP_RGN t) TMP_RGN.ENF && 400 * s.rdF TMP_ENF_CFG TMP_ENF_CFG.RDC ≤ (s.red t).cycles)

/-- What the next instruction of a section is: a legal word, an illegal one, or an uncorrectable one (R263, R427). -/
inductive KFetch where
  | ok (w : Nat)
  | illegal
  | bad
  deriving DecidableEq, Repr

/-- The instruction at `pc` of the kernel store, for a section of kernel `k` (R255, R263). -/
def State.kFetch (s : State) (t : Nat) (k : KernRef) (pc : Nat) : State × KFetch :=
  if 0x1FFF < pc then (s, .illegal)
  else
    let m := s.memGet (dieMem (t / 4) (k.base + 4 * pc)) 4
    (m.1, if m.2.2 then .bad else if kLegal k.state k.bins m.2.1 then .ok m.2.1 else .illegal)

/-- The context `key` is poisoned for the rest of its window (R263). -/
def State.poisonCtx (s : State) (t key : Nat) : State :=
  (s.modCtx t key (fun c => { c with poisoned := true, v := withBit c.v 15 })).ctxStore t key [80]

/-- An instruction that cannot be executed poisons the context; an illegal one raises RDC_ILLEGAL (R263). -/
def State.kReject (s : State) (t key : Nat) (illegal : Bool) : State :=
  let s1 := s.poisonCtx t key
  if illegal then (s1.flag (RDC_STAT t) RDC_STAT.ILLEGAL true).raiseRegion .rdcIllegal t else s1

/-- V of a context that a close job has finished joins the verdict of the step numbered `step` (R268). -/
def State.joinVerdict (s : State) (t step v : Nat) : State :=
  let q := s.seq t
  let mine := match q.conf with
    | some c => c.num == step
    | none => false
  if mine then s.modSeq t (fun q => { q with verdOpen := q.verdOpen ||| v })
  else if q.verdStep = step then s.modSeq t (fun q => { q with verdAcc := q.verdAcc ||| v })
  else s

/-- The close of context `key` is done: its verdict counts, and the context ends (R257, R268). -/
def State.ctxDone (s : State) (t key step : Nat) : State :=
  (s.joinVerdict t step (s.kctx t key).v).modRed t (fun r => { r with ctxs := mapDel key r.ctxs })

/-- A close job of the step numbered `step` completes (R268, R274). -/
def State.jobDone (s : State) (t : Nat) : State :=
  (((s.modRed t (fun r => { r with run := none })).refreshQueue t).emitRegion t evRdcClose).verdictCopy t

/-- The section that a close job begins on context `key` (R254, R260). -/
def State.closeRun (s : State) (t key step at' : Nat) (early : Bool) (left : List Nat) : KRun :=
  let c := s.kctx t key
  { close := true, key := key, kern := c.kern, unit := c.unit, qty := c.qty
    pc := c.kern.close, y := List.replicate 8 0#64
    f := c.flags % 4096 + (if early then 2 ^ 13 else 0) + 2 ^ 15
    x := f64Zero, ts := at', counted := false, left := left, early := early, step := step }

/-- The close job goes on with the contexts `l` (R254, R263). -/
def State.closeFrom (s : State) (t step at' : Nat) (early : Bool) : List Nat → State
  | [] => s.jobDone t
  | key :: rest =>
    let s1 := s.kCycles t 4
    if (s.kctx t key).poisoned then State.closeFrom (s1.ctxDone t key step) t step at' early rest
    else
      let r := s1.closeRun t key step at' early rest
      let m := s1.kFetch t r.kern r.pc
      match m.2 with
      | .ok _ => m.1.modRed t (fun x => { x with run := some r })
      | .illegal => State.closeFrom ((m.1.kReject t key true).ctxDone t key step) t step at' early rest
      | .bad => State.closeFrom ((m.1.kReject t key false).ctxDone t key step) t step at' early rest

/-- The section `r` ends (R254): a value job completes as RONLY, a close job goes on with its next context. -/
def State.kFinish (s : State) (t : Nat) (r : KRun) : State :=
  if r.close then (s.ctxDone t r.key r.step).closeFrom t r.step r.ts r.early r.left
  else
    let s1 := (s.modRed t (fun x => { x with run := none })).refreshQueue t
    if r.counted then s1.itemsRonly r.unit 1 else s1

/-- The section goes on at `pc`, or ends there because that instruction cannot be executed (R263). -/
def State.kGo (s : State) (t : Nat) (r : KRun) (pc : Nat) : State :=
  let m := s.kFetch t r.kern pc
  match m.2 with
  | .ok _ => m.1.modRed t (fun x => { x with run := x.run.map (fun y => { y with pc := pc }) })
  | .illegal => (m.1.kReject t r.key true).kFinish t r
  | .bad => (m.1.kReject t r.key false).kFinish t r

/-- The next instruction is skipped where `c` holds, in one cycle (R254, R263). -/
def State.kSkip (s : State) (t : Nat) (r : KRun) (c : Bool) : State :=
  if c then
    let m := (s.kCycles t 1).kFetch t r.kern (r.pc + 1)
    match m.2 with
    | .ok _ => m.1.kGo t r (r.pc + 2)
    | .illegal => (m.1.kReject t r.key true).kFinish t r
    | .bad => (m.1.kReject t r.key false).kFinish t r
  else s.kGo t r (r.pc + 1)

/-! ### Jobs -/

/-- The record flags exclude a value from kernel `k` (R261). -/
def KernRef.excludes (k : KernRef) (flags : Nat) : Bool := getFld k.hdr RDC_KHDR.EXCL &&& (flags % 4096) ≠ 0

/-- VALUE_JOB (R254, R260, R261, R263). -/
def State.valueJob (s : State) (t : Nat) : State :=
  match (s.red t).queue, (s.red t).run, s.kHeld t with
  | .value key unit qty x ts flags _ counted :: rest, none, false =>
    let s1 := ((s.modRed t (fun r => { r with queue := rest })).kCycles t 4).modCtx t key (fun c =>
      { c with jobs := c.jobs + 1, flags := c.flags ||| flags % 4096 })
    let c := s1.kctx t key
    let ex := c.kern.excludes flags
    let z := getFld c.kern.hdr RDC_KHDR.ZFILL = 1
    let r : KRun :=
      { close := false, key := key, kern := c.kern, unit := unit, qty := qty, pc := c.kern.entry
        y := List.replicate 8 0#64
        f := flags % 4096 + (if ex then 2 ^ 12 else 0) + (if c.early then 2 ^ 13 else 0) + (if c.runs = 0 then 2 ^ 14 else 0)
        x := if ex then f64Zero else x, ts := ts, counted := counted }
    if c.poisoned || (ex && !z) then s1.kFinish t r
    else
      (((s1.modCtx t key (fun c => { c with runs := c.runs + 1, tfirst := if c.runs = 0 then ts else c.tfirst })).ctxStore t key
        [81]).modRed t (fun q => { q with run := some r })).kGo t r r.pc |>.refreshQueue t
  | _, _, _ => s

def execValueJob (t : Fin 16) (s : State) : Out := .next (s.valueJob t)

/-- CLOSE_JOB (R254, R258, R260). -/
def State.closeJob (s : State) (t : Nat) : State :=
  match (s.red t).queue, (s.red t).run, s.kHeld t with
  | .close win step at' early keys :: rest, none, false =>
    (((s.modRed t (fun r => { r with queue := rest })).slotFree t win).closeFrom t step at' early keys).refreshQueue t
  | _, _, _ => s

def execCloseJob (t : Fin 16) (s : State) : Out := .next (s.closeJob t)

/-! ### Operands -/

/-- DT of unit `p` in seconds (R259): the output period of its measurement stream. -/
def State.outPeriod (s : State) (p : Nat) : DWord :=
  let v := (s.unit p).mea.filt
  f64OfRat (s.period (p / 16) * filtM v * filtF v) secTicks

/-- The operand `c` in the section `r` (R259). -/
def State.kRead (s : State) (t : Nat) (r : KRun) (c : Nat) : DWord :=
  let x := s.kctx t r.key
  if c < 0x40 then x.a.getD c 0
  else if c < 0x48 then ((s.red t).run.map (fun y => y.y.getD (c - 0x40) 0)).getD 0
  else if c < 0x58 then x.k.getD (c - 0x48) 0
  else
    match c with
    | 0x58 => r.x
    | 0x59 => if r.close then Config.closeT r.ts x.tfirst else f64OfRat ((r.ts : Int) - x.tfirst) secTicks
    | 0x5A => s.outPeriod r.unit
    | 0x5C => f64One
    | _ => f64Zero

/-- `v` into the register with code `c` (R259). -/
def State.kWrite (s : State) (t : Nat) (r : KRun) (c : Nat) (v : DWord) : State :=
  if c < 0x40 then (s.modCtx t r.key (fun x => { x with a := x.a.set c v })).ctxStore t r.key [c]
  else s.modRed t (fun x => { x with run := x.run.map (fun y => { y with y := y.y.set (c - 0x40) v }) })

/-- Values into the registers from code `c` on. -/
def State.kWrites (s : State) (t : Nat) (r : KRun) (c : Nat) (l : List DWord) : State :=
  l.zipIdx.foldl (fun s x => s.kWrite t r (c + x.2) x.1) s

/-- Bit `i` of V of the section's context (R267). -/
def State.setV (s : State) (t : Nat) (r : KRun) (i : Nat) (on : Bool) : State :=
  (s.modCtx t r.key (fun x => { x with v := if on then withBit x.v i else withoutBit x.v i })).ctxStore t r.key [80]

/-- The BAR2 offset of the site context of the section, where the context has a valid site (R262, R282), and whether the word with its
flags could be read (R263). -/
def State.kSite (s : State) (t : Nat) (r : KRun) : State × Option Nat × Bool :=
  match (s.kctx t r.key).site with
  | some i =>
    let a := s.ctxAt (t / 4) i
    let m := s.memGet (a + 4) 1
    (m.1, if m.2.1 % 2 = 1 then some a else none, !m.2.2)
  | none => (s, none, true)

/-! ### Effects -/

/-- What an instruction does: the state it leaves, or none where a word it reads is uncorrectable (R263). -/
abbrev KEffect := State → Nat → KRun → Nat → State × Bool

/-- An effect that always completes. -/
def kPure (g : State → Nat → KRun → Nat → State) : KEffect := fun s t r w => (g s t r w, true)

/-- An effect on the site context: none without a valid site, where `no` gives what is left; not completed where the context's flags
cannot be read. -/
def kOnSite (no : State → Nat → KRun → Nat → State) (g : State → Nat → KRun → Nat → Nat → State × Bool) : KEffect := fun s t r w =>
  let c := s.kSite t r
  if !c.2.2 then (c.1, false)
  else
    match c.2.1 with
    | none => (no c.1 t r w, true)
    | some a => g c.1 t r w a

/-- The context words that hold the operand codes `l` (R257, R259): accumulators, constants, TFIRST for T. -/
def codeWords (l : List Nat) : List Nat :=
  l.filterMap (fun c => if c < 0x40 then some c else if 0x48 ≤ c && c < 0x58 then some (c - 8) else if c = 0x59 then some 81 else none)

/-- The words of its context that instruction `w` reads, with `hb` counters (R262). -/
def kReads (hb w : Nat) : List Nat :=
  let d := kD w
  let a := kA w
  let blk (c n : Nat) : List Nat := codeWords ((List.range n).map (c + ·))
  match kOp w with
  | 0x01 | 0x07 | 0x0A | 0x1B | 0x1D => codeWords [a]
  | 0x02 | 0x03 | 0x04 | 0x06 | 0x08 | 0x09 | 0x17 => codeWords [a, kB w]
  | 0x05 => codeWords [d, a, kB w]
  | 0x0B | 0x0C => blk d 2 ++ codeWords [a]
  | 0x0D => blk d 3 ++ codeWords [a]
  | 0x0E => blk a 3
  | 0x0F => blk d 5 ++ [81]
  | 0x10 => blk a 5
  | 0x11 => codeWords [a] ++ blk (0x48 + kI w) 2 ++ (List.range ((hb + 1) / 2)).map (82 + ·)
  | 0x13 => blk d 7 ++ codeWords [a] ++ [81]
  | 0x14 => blk a 7
  | 0x18 => codeWords [a] ++ (if bitOf (kI w) 3 then blk (0x48 + 2 * (kI w % 8)) 2 else []) ++ [80]
  | 0x19 => codeWords [a] ++ [80]
  | 0x1A => [80]
  | 0x1E => if bitOf (kI w) 2 then [80] else []
  | 0x1F => (List.range ((hb + 1) / 2)).map (82 + ·)
  | _ => []

/-- The row of opcode `op` with its cycles and its effect: carried out where the next instruction of the running section is
that one and nothing holds the reducer (R254, R263, R349, R398). An instruction that reads an uncorrectable word of its context does not
complete. -/
def State.kRow (s : State) (t op cycles : Nat) (g : KEffect) : State :=
  match (s.red t).run, s.kHeld t with
  | some r, false =>
    let m := s.kFetch t r.kern r.pc
    match m.2 with
    | .ok w =>
      if kOp w = op then
        let c := (s.kCycles t cycles).ctxLoad t r.key (kReads r.kern.bins w)
        let x := if c.2 then (c.1, false) else g c.1 t r w
        if x.2 then x.1.kGo t r (r.pc + 1) else (x.1.kReject t r.key false).kFinish t r
      else s
    | _ => s
  | _, _ => s

/-- A skip's row (R262). -/
def State.kSkipRow (s : State) (t op : Nat) (c : State → KRun → Nat → Bool) : State :=
  match (s.red t).run, s.kHeld t with
  | some r, false =>
    let m := s.kFetch t r.kern r.pc
    match m.2 with
    | .ok w =>
      if kOp w = op then
        let x := (s.kCycles t 1).ctxLoad t r.key (kReads r.kern.bins w)
        if x.2 then (x.1.kReject t r.key false).kFinish t r else x.1.kSkip t r (c x.1 r w)
      else s
    | _ => s
  | _, _ => s

/-- d ← g(a). -/
def kUnary (g : DWord → DWord) : KEffect := kPure fun s t r w => s.kWrite t r (kD w) (g (s.kRead t r (kA w)))

/-- d ← g(a, b). -/
def kBinary (g : DWord → DWord → DWord) : KEffect :=
  kPure fun s t r w => s.kWrite t r (kD w) (g (s.kRead t r (kA w)) (s.kRead t r (kB w)))

/-- END (R262): the section ends. -/
def State.kEndRow (s : State) (t : Nat) : State :=
  match (s.red t).run, s.kHeld t with
  | some r, false =>
    let m := s.kFetch t r.kern r.pc
    match m.2 with
    | .ok w => if kOp w = 0 then (s.kCycles t 1).kFinish t r else s
    | _ => s
  | _, _ => s

def execKEnd (t : Fin 16) (s : State) : Out := .next (s.kEndRow t)

def execKMov (t : Fin 16) (s : State) : Out := .next (s.kRow t 0x01 1 (kUnary id))

def execKAdd (t : Fin 16) (s : State) : Out := .next (s.kRow t 0x02 1 (kBinary f64Add))

def execKSub (t : Fin 16) (s : State) : Out := .next (s.kRow t 0x03 1 (kBinary f64Sub))

def execKMul (t : Fin 16) (s : State) : Out := .next (s.kRow t 0x04 1 (kBinary f64Mul))

/-- FMA: d ← d + a × b, rounded once. -/
def kFma : KEffect :=
  kPure fun s t r w => s.kWrite t r (kD w) (f64Fma (s.kRead t r (kA w)) (s.kRead t r (kB w)) (s.kRead t r (kD w)))

def execKFma (t : Fin 16) (s : State) : Out := .next (s.kRow t 0x05 1 kFma)

def execKDiv (t : Fin 16) (s : State) : Out := .next (s.kRow t 0x06 8 (kBinary f64Div))

def execKSqrt (t : Fin 16) (s : State) : Out := .next (s.kRow t 0x07 8 (kUnary f64Sqrt))

def execKMin (t : Fin 16) (s : State) : Out := .next (s.kRow t 0x08 1 (kBinary f64Min))

def execKMax (t : Fin 16) (s : State) : Out := .next (s.kRow t 0x09 1 (kBinary f64Max))

def execKAbs (t : Fin 16) (s : State) : Out := .next (s.kRow t 0x0A 1 (kUnary f64Abs))

/-- Neumaier's compensated addition of `a` to the pair at `d` (R262). -/
def State.kNeumaier (s : State) (t : Nat) (r : KRun) (d : Nat) (a : DWord) : State :=
  let x := s.kRead t r d
  let c := s.kRead t r (d + 1)
  let sum := f64Add x a
  let e := if f64Le (f64Abs a) (f64Abs x) then f64Add (f64Sub x sum) a else f64Add (f64Sub a sum) x
  s.kWrites t r d [sum, f64Add c e]

def kKsum : KEffect := kPure fun s t r w => s.kNeumaier t r (kD w) (s.kRead t r (kA w))

def execKKsum (t : Fin 16) (s : State) : Out := .next (s.kRow t 0x0B 2 kKsum)

/-- CHG (R262, R266). -/
def kChg : KEffect := kPure fun s t r w => s.kNeumaier t r (kD w) (f64Mul (s.kRead t r (kA w)) (s.outPeriod r.unit))

def execKChg (t : Fin 16) (s : State) : Out := .next (s.kRow t 0x0C 2 kChg)

/-- WELF (R262). -/
def kWelf : KEffect := kPure fun s t r w =>
  let d := kD w
  let a := s.kRead t r (kA w)
  let n := f64Add (s.kRead t r d) f64One
  let m := s.kRead t r (d + 1)
  let m' := f64Add m (f64Div (f64Sub a m) n)
  s.kWrites t r d [n, m', f64Add (s.kRead t r (d + 2)) (f64Mul (f64Sub a m) (f64Sub a m'))]

def execKWelf (t : Fin 16) (s : State) : Out := .next (s.kRow t 0x0D 3 kWelf)

/-- VARF (R262). -/
def kVarf : KEffect := kPure fun s t r w =>
  let a := kA w
  let n := s.kRead t r a
  let m := s.kRead t r (a + 1)
  let q := s.kRead t r (a + 2)
  let var := if f64Lt n (f64OfInt 2) then f64Nan n q else f64Div q (f64Sub n f64One)
  s.kWrites t r (kD w) [var, f64Sqrt (f64Add (f64Mul m m) (f64Div q n))]

def execKVarf (t : Fin 16) (s : State) : Out := .next (s.kRow t 0x0E 8 kVarf)

/-- LINR (R262). -/
def kLinr : KEffect := kPure fun s t r w =>
  let d := kD w
  let x := r.x
  let u := s.kRead t r 0x59
  let g (j : Nat) : DWord := s.kRead t r (d + j)
  s.kWrites t r d
    [f64Add (g 0) f64One, f64Add (g 1) u, f64Add (g 2) x, f64Add (g 3) (f64Mul u u), f64Add (g 4) (f64Mul u x)]

def execKLinr (t : Fin 16) (s : State) : Out := .next (s.kRow t 0x0F 3 kLinr)

/-- LINF (R262). -/
def kLinf : KEffect := kPure fun s t r w =>
  let g (j : Nat) : DWord := s.kRead t r (kA w + j)
  let n := g 0
  let den := f64Sub (f64Mul n (g 3)) (f64Mul (g 1) (g 1))
  let slope := f64Div (f64Sub (f64Mul n (g 4)) (f64Mul (g 1) (g 2))) den
  if f64Lt n (f64OfInt 2) || f64IsZero den then s.kWrites t r (kD w) [f64Nan n den, f64Nan n den]
  else s.kWrites t r (kD w) [slope, f64Div (f64Sub (g 2) (f64Mul slope (g 1))) n]

def execKLinf (t : Fin 16) (s : State) : Out := .next (s.kRow t 0x10 12 kLinf)

/-- The bin of a histogram (R262). -/
def histBin (hb : Nat) (q : DWord) : Nat :=
  match f64u q with
  | .nan => hb - 1
  | .inf neg => if neg then 0 else hb - 1
  | .fin _ => (clampI 0 ((hb : Int) - 1) (f64Floor q + 1)).toNat

/-- HIST (R262). -/
def kHist : KEffect := kPure fun s t r w =>
  let k := kI w
  let hb := r.kern.bins
  let q := f64Div (f64Sub (s.kRead t r (kA w)) (s.kRead t r (0x48 + k))) (s.kRead t r (0x49 + k))
  let b := histBin hb q
  (s.modCtx t r.key (fun c => { c with hb := c.hb.set b (min 0xFFFFFFFF (c.hb.getD b 0 + 1)) })).ctxStore t r.key [82 + b / 2]

def execKHist (t : Fin 16) (s : State) : Out := .next (s.kRow t 0x11 4 kHist)

/-- 2π and π and π/2 in binary64. -/
def twoPi : DWord := 0x401921FB54442D18#64
def piD : DWord := 0x400921FB54442D18#64
def halfPi : DWord := 0x3FF921FB54442D18#64

/-- GCOEF (R264). -/
def kGcoef : KEffect := kPure fun s t r w =>
  let h := f64OfInt (kI w)
  let f := f64OfRat ((s.unit r.unit).nco.ftw * 200000000 : Nat) (2 ^ 48)
  let om := f64Mul (f64Mul (f64Mul twoPi h) f) (s.outPeriod r.unit)
  let s1 := s.kWrites t r (kD w)
    [f64Zero, f64Zero, f64Mul (f64OfInt 2) (f64Cos om), om, f64Zero, f64Zero, h]
  if f64Le piD om then s1.flag (RDC_STAT t) RDC_STAT.ALIAS true else s1

def execKGcoef (t : Fin 16) (s : State) : Out := .next (s.kRow t 0x12 8 kGcoef)

/-- The reference phase ρ of harmonic `h` at TFIRST (R264). -/
def State.goertzelRef (s : State) (t : Nat) (r : KRun) (h : DWord) : DWord :=
  let u := s.unit r.unit
  let phi := ncoPhase u.nco.ftw (s.rdN (CH_NCO_PHASE r.unit) % 2 ^ 16) (s.kctx t r.key).tfirst
  f64Mul (f64Mul h twoPi) (f64OfRat phi (2 ^ 48))

/-- GRTZ (R264). -/
def kGrtz : KEffect := kPure fun s t r w =>
  let d := kD w
  let g (j : Nat) : DWord := s.kRead t r (d + j)
  let s0 := f64Sub (f64Add (s.kRead t r (kA w)) (f64Mul (g 2) (g 0))) (g 1)
  let s1 := if f64IsZero (g 4) then s.kWrite t r (d + 5) (s.goertzelRef t r (g 6)) else s
  (s1.kWrites t r d [s0, g 0]).kWrite t r (d + 4) (f64Add (g 4) f64One)

def execKGrtz (t : Fin 16) (s : State) : Out := .next (s.kRow t 0x13 2 kGrtz)

/-- An angle wrapped to the range −π to π (R265). -/
def wrapPi (a : DWord) : DWord := f64Sub a (f64Mul twoPi (f64OfInt (f64Floor (f64Div (f64Add a piD) twoPi))))

/-- GFIN (R265). -/
def kGfin : KEffect := kPure fun s t r w =>
  let g (j : Nat) : DWord := s.kRead t r (kA w + j)
  let n := g 4
  if f64IsZero n then s.kWrites t r (kD w) (List.replicate 4 (f64Nan n n))
  else
    let th := f64Mul (g 3) (f64Sub n f64One)
    let re := f64Sub (g 0) (f64Mul (f64Cos (g 3)) (g 1))
    let im := f64Mul (f64Sin (g 3)) (g 1)
    let yr := f64Add (f64Mul re (f64Cos th)) (f64Mul im (f64Sin th))
    let yi := f64Sub (f64Mul im (f64Cos th)) (f64Mul re (f64Sin th))
    let amp := f64Div (f64Mul (f64OfInt 2) (f64Sqrt (f64Add (f64Mul yr yr) (f64Mul yi yi)))) n
    let psi := wrapPi (f64Sub (f64Add (f64Arg yi yr) halfPi) (g 5))
    s.kWrites t r (kD w) [amp, psi, f64Mul amp (f64Cos psi), f64Mul amp (f64Sin psi)]

def execKGfin (t : Fin 16) (s : State) : Out := .next (s.kRow t 0x14 24 kGfin)

def execKSkf (t : Fin 16) (s : State) : Out := .next (s.kSkipRow t 0x15 (fun _ r w => bitOf r.f (kI w)))

def execKSknf (t : Fin 16) (s : State) : Out := .next (s.kSkipRow t 0x16 (fun _ r w => !bitOf r.f (kI w)))

def execKSklt (t : Fin 16) (s : State) : Out :=
  .next (s.kSkipRow t 0x17 (fun s r w => f64Lt (s.kRead t r (kA w)) (s.kRead t r (kB w))))

/-- A value lies outside a limit pair, or a NaN is among them (R262, R267, R281). -/
def limFails (lo hi a : DWord) : Bool := !(f64Le lo a && f64Le a hi)

/-- LIM (R262, R267): 4 cycles with a site pair, 1 with a constant pair. -/
def kLim : KEffect := fun s t r w =>
  let a := s.kRead t r (kA w)
  let j := kI w % 8
  if bitOf (kI w) 3 then
    ((s.kCycles t 1).setV t r (kD w) (limFails (s.kRead t r (0x48 + 2 * j)) (s.kRead t r (0x49 + 2 * j)) a), true)
  else
    kOnSite (fun s _ _ _ => s) (fun s t r w c =>
      let m := s.memGet (c + 0x48 + 8 * j) 8
      (if m.2.2 then m.1
        else m.1.setV t r (kD w) (limFails (f64OfF32 (w32 m.2.1)) (f64OfF32 (w32 (m.2.1 / 2 ^ 32))) a), !m.2.2)) (s.kCycles t 4) t r w

def execKLim (t : Fin 16) (s : State) : Out := .next (s.kRow t 0x18 0 kLim)

/-- VSET (R262). -/
def kVset : KEffect := kPure fun s t r w =>
  let a := s.kRead t r (kA w)
  s.setV t r (kD w) (f64IsNan a || !f64IsZero a)

def execKVset (t : Fin 16) (s : State) : Out := .next (s.kRow t 0x19 1 kVset)

/-- The bin that V gives (R267). -/
def verdictBin (v : Nat) : Nat := ((List.range 16).find? (fun i => bitOf v i)).elim 0 (· + 1)

/-- A reducer write of the `n`-byte number `v` at BAR2 offset `a`: where the host has written the 32-bit word in the same PCLK cycle, its
value stays (R281, R306). -/
def State.redPut (s : State) (a n v : Nat) : State := if s.hostWroteMem (a / 4 * 4) 4 then s else s.memPut a n v

/-- BINV (R262, R267). -/
def kBinv : KEffect := kOnSite (fun s _ _ _ => s) fun s t r w c =>
  (s.redPut (c + 0x24 + kI w) 1 (verdictBin (s.kctx t r.key).v), true)

def execKBinv (t : Fin 16) (s : State) : Out := .next (s.kRow t 0x1A 4 kBinv)

/-- STS (R262, R281). -/
def kSts : KEffect := kOnSite (fun s _ _ _ => s) fun s t r w c =>
  (s.redPut (c + 0x28 + 4 * kI w) 4 (f32OfF64 (s.kRead t r (kA w))).toNat, true)

def execKSts (t : Fin 16) (s : State) : Out := .next (s.kRow t 0x1B 4 kSts)

/-- LDSS (R262). -/
def kLdss : KEffect := kOnSite (fun s t r w => s.kWrite t r (kD w) (f64Nan 0 0)) fun s t r w c =>
  let m := s.memGet (c + 0x28 + 4 * kI w) 4
  if m.2.2 then (m.1, false) else (m.1.kWrite t r (kD w) (f64OfF32 (w32 m.2.1)), true)

def execKLdss (t : Fin 16) (s : State) : Out := .next (s.kRow t 0x1C 4 kLdss)

/-- A record of the section's context (R269). -/
def State.kRecord (s : State) (t : Nat) (r : KRun) (kind value : Nat) : State :=
  let c := s.kctx t r.key
  s.produceRec r.unit
    { ts := r.ts, value := value, chan := s.leadOf r.unit, site := pkgSite (t / 4) c.site, kind := kind + 16 * (1 - r.qty),
      range := s.rangeByte r.unit, flags := r.f % 4096 ||| (if c.lost then flDropSince else 0), seq := 0, step := c.step }
    none true

/-- EMIT (R262, R269). -/
def kEmit : KEffect := kPure fun s t r w => s.kRecord t r (2 + kI w) (s.kRead t r (kA w)).toNat

def execKEmit (t : Fin 16) (s : State) : Out := .next (s.kRow t 0x1D 2 kEmit)

/-- EVT (R262). -/
def kEvt : KEffect := kPure fun s t r w =>
  if bitOf (kI w) 2 && (s.kctx t r.key).v = 0 then s else s.emitRegion t (evRdcVevt + kI w % 4)

def execKEvt (t : Fin 16) (s : State) : Out := .next (s.kRow t 0x1E 1 kEvt)

/-- HEMIT (R262, R269): 2 cycles for each bin, 1 without bins. -/
def kHemit : KEffect := kPure fun s t r w =>
  let hb := r.kern.bins
  ((List.range hb).foldl (fun s b =>
    s.kRecord t r 10 ((s.kctx t r.key).hb.getD b 0 + 2 ^ 32 * (b + 256 * kI w))) s).kCycles t (if hb = 0 then 1 else 2 * hb)

def execKHemit (t : Fin 16) (s : State) : Out := .next (s.kRow t 0x1F 0 kHemit)

/-! ### The check of the counts -/

/-- PROD − DELIV − RONLY − DROP − FLIGHT of unit `p` (R271). -/
def State.countDiff (s : State) (p : Nat) : Int :=
  (s.rd64 (RDC_PROD_LO p) : Int) - (s.rd64 (RDC_DELIV_LO p) + s.rd64 (RDC_RONLY_LO p) + s.rd64 (RDC_DROP_LO p) +
    s.flight p)

/-- The check of one unit (R271). -/
def State.countCheckUnit (s : State) (p : Nat) : State :=
  let d := (satS 32 (s.countDiff p)).1
  let old := s.rdI (RDC_DIFF p)
  let s1 := s.wr (RDC_DIFF p) (s32 d)
  if d = 0 || d = old then s1 else (s1.wrBit (RDC_CHK (p / 16)) (p % 16) true).raiseUnit .countMismatch p

/-- RDC_LOAD of region `t` over the millisecond that ends (R254). -/
def State.loadTick (s : State) (t : Nat) : State :=
  (s.wrN (RDC_LOAD t) (min 1000 ((s.red t).cycles / 400))).modRed t (fun r => { r with cycles := 0 })

/-- COUNT_CHECK (R271), at a timestamp that is a multiple of 800,000. -/
def State.countCheck (s : State) : State :=
  ((s.advance (nextMultiple msTicks s.now)).each (List.range 16) State.loadTick).each (List.range 256) State.countCheckUnit

def execCountCheck (s : State) : Out := .next s.countCheck

end Sys2Proof.Machine
end

