-- ==== Sys2Proof/Machine/Resets.lean ====
section
/-! DEFINITION. Resets: what survives each (R432, R433, R435 of 14_faults_availability_life.md), the package resets (R408, R465), and
the restart of a region (R429, R434, R466). -/

namespace Sys2Proof.Machine

/-- Every bit. -/
def allBits : Word := 0xFFFFFFFF#32

/-! ### What survives -/

/-- Bits of register `a` that the NVM holds without a journal and every reset keeps: the slots of images and the sensors' factory
trims (R373, R414, R436). -/
def keepNvm (a : Nat) : Word :=
  if (List.range 17).any (fun t => a = IMG_SLOTINFO t) then 7#32
  else if (List.range 17).any (fun t => a = IMG_SEQ_A t || a = IMG_SEQ_B t) then allBits
  else
    match blockOf a with
    | some (.dtmp, _, o) => if 0x100 ≤ o && o < 0x150 then allBits else 0#32
    | _ => 0#32

/-- Bits of register `a` that hold calibration banks with their ACT and JPEND, trims and substitutions, which every reset but POR
keeps (R433, R435). -/
def State.keepCal (s : State) (a : Nat) : Word :=
  match blockOf a with
  | some (.mea, _, o) =>
    if o = 4 then 0xFF0000#32
    else if 0x1000 ≤ o then
      let q := (o - 0x1000) % 0x800
      if q = 8 then 5#32 else if 0x100 ≤ q && q < 0x500 then allBits else 0#32
    else if 0x200 ≤ o && o < 0x300 then
      let q := o % 0x40
      if q = 4 then (if s.is a MEA_PIL_STAT.SUBST then 0x1F10F#32 else 0x1F100#32)
      else if 0x18 ≤ q && q < 0x3C then allBits else 0#32
    else 0#32
  | _ => 0#32

/-- The pilots of clusters under a permanent substitution stay in their role; every other handover ends with its slice back. -/
def State.clustersKept (s : State) (ks : List Nat) : State :=
  s.each ks (fun s k =>
    s.modCluster k (fun c => { c with
      lfsr := (ClusterState.init k).lfsr, busy := false, only := false, onlyUnit := none, onlyWait := [], testUnit := none, failed := false, retrim := false
      tickWait := false, restoring := false, suspUntil := none, suspLast := none
      inRole := s.is (pilStat k) MEA_PIL_STAT.SUBST }))

/-- Force-on time of unit `p` not yet in its register, all else at its reset value (R433). -/
def State.unitAfter (s : State) (m : List (Nat × UnitState)) (p : Nat) : List (Nat × UnitState) :=
  mapPut {} p { fonTicks := (s.unit p).fonTicks } m

/-- What a package reset that keeps the site contexts leaves of die `d`: the contexts that have changed since their last record
(R288, R433), those included whose record waits. -/
def State.dieAfter (s : State) (m : List (Nat × DieState)) (d : Nat) : List (Nat × DieState) :=
  let wait := s.nvm.queue.filterMap (fun r => match r with
    | .site e i _ _ => if e = d then some i else none
    | _ => none)
  mapPut {} d { changed := wait.foldl (fun l i => insertRising i l) (s.die d).changed } m

/-- A bank record that waits for the journal (R435). -/
def JRec.isBank : JRec → Bool
  | .bank _ _ => true
  | _ => false

/-- What a package reset leaves in the hub beside its registers (R433): the learned keep-alive fit, the calendar of the last
journal record, the life records. -/
def State.hubAfter (s : State) (por : Bool) : HubState :=
  let life := if por then s.nvm.life else ([], s.hub.life, s.hub.stops)
  let rel := if por then s.nvm.relays else (s.hub.relayCnt, s.hub.relayClass, s.hub.relayWarned)
  { clk := { kaFit := s.nvm.kaFit.1, kaSecs := s.nvm.kaFit.2, calSec := s.nvm.cal.1, calStart := -(s.nvm.cal.2 : Int) }
    relayCnt := rel.1, relayClass := rel.2.1, relayWarned := rel.2.2
    stops := life.2.2, life := life.2.1
    breaches := s.hub.breaches.map (fun x => (x.1, 0))
    jTimes := s.jRecent.map (fun _ => 0)
    jtag := if por then 0 else s.hub.jtag
    boundary := if por then [] else s.hub.boundary
    restore := por || s.hub.restore
    held := s.hub.held
    loadCut := match s.hub.imgOp with
      | some x => if x.op = 3 then some x.target else s.hub.loadCut
      | none => s.hub.loadCut }

/-- Banks and trims from their newest journal records (R224, R240, R433). -/
def State.calFromNvm (s : State) : State :=
  let s1 := s.each s.nvm.banks (fun s x =>
    match x.2 with
    | b :: ws =>
      (s.flag (MEA_U_BANK x.1) MEA_U_BANK.ACT (b = 1#32)).each (ws.zipIdx) (fun s y =>
        s.wr (bankReg x.1 b.toNat (y.2 / 6) (y.2 % 6)) y.1)
    | [] => s)
  s1.each s.nvm.trims (fun s x =>
    match x.2 with
    | st :: ws =>
      let sub := bitOf st 8
      let s2 := s.wrN (pilStat x.1) (s.rdN (pilStat x.1) &&& 0x70 ||| st ||| (if sub then st / 2 ^ 12 % 16 else 0))
      let s3 := (s2.flag (MEA_STAT (x.1 / 4)) ⟨16 + x.1 % 4, 1⟩ sub).flag (MEA_STAT (x.1 / 4)) ⟨20 + x.1 % 4, 1⟩ (bitOf st 16)
      s3.each (ws.zipIdx) (fun s y => s.wrN (MEA_TRIM (x.1 / 4) (x.1 % 4) y.2) y.1)
    | [] => s)

/-- The settings area's registers, and LEARNED with the learned fit (R43, R372, R400, R436). -/
def State.settingsFromNvm (s : State) : State :=
  (s.each s.nvm.settings (fun s x => s.wr x.1 x.2)).flag HUB_KA_STAT HUB_KA_STAT.LEARNED (3600 ≤ s.nvm.kaFit.2)

/-- A package reset (R432, R433): `cause` is that of FLT_RESET_CAUSE, `rail` that of a supply reset. Boot follows as a command. -/
def State.packageReset (s : State) (por : Bool) (cause : Nat) (rail : Option Nat) : State :=
  let s1 := (s.each (List.range 256) State.openNow).writeCut
  let s2 := if por then s1 else s1.each (List.range 4) State.foldDie
  let keep (a : Nat) : Word :=
    keepNvm a ||| (if por then 0#32 else s2.keepCal a) ||| (if !por && lifeRegs.contains a then allBits else 0#32)
  let s3 := { s2 with imgVals := [] }.resetMasked (fun _ => true) keep
  let s4 : State :=
    { s3 with
      now := 0, cycRegs := s3.regs, cycWrote := [], cycSet := [], cycMem := [], perFn := [], blocks := [], regions := []
      dies := if por then [] else (List.range 4).foldl s3.dieAfter []
      mem := if por then [] else s3.mem
      ecc := if por then [] else s3.ecc
      units := (List.range 256).foldl s3.unitAfter []
      clusters := []
      hub := s3.hubAfter por
      nvm := { s3.nvm with queue := if por then [] else s3.nvm.queue.filter JRec.isBank, part := 0 } }
  let s5 := (if por then (s4.nvm.life.1.foldl (fun s x => s.wr x.1 x.2) s4).calFromNvm else s4).settingsFromNvm
  let s6 := s5.clustersKept ((List.range 64).filter (fun k => s5.is (pilStat k) MEA_PIL_STAT.SUBST))
  (s6.wrN FLT_RESET_CAUSE cause).modHub (fun h => { h with supplyRst := rail, porStop := por && rail.isNone })

/-- POR (R432): power-up. -/
def execPor (s : State) : Out := .next (s.packageReset true 0 none)

/-- PERST (R432). -/
def execPerst (s : State) : Out := .next (s.packageReset false 1 none)

/-- SUPPLY_RESET (R406, R408): rail `r` falls to `low`, and rises to `high` while the package is held in reset: VDD and VDDM act as a
POR, the other rails as a software package reset; boot reports it. DESIGN CHOICE: the command covers the time in reset up to `high`; where
that does not lie above the release value, boot waits until a SUPPLY_WARN_CLEAR of the rail finds it above. -/
def State.supplyReset (s : State) (r : Nat) (low high : BitVec 16) : State :=
  let l := railLimits r
  if l.2.2.1 ≤ 10 * low.toNat then s.setRail r low
  else
    ((s.packageReset (r < 2) 3 (some r)).setRail r high).modHub (fun h =>
      { h with held := if l.2.2.2.1 < 10 * high.toNat then h.held.filter (· ≠ r) else some r })

def execSupplyReset (r : Fin 6) (mv : BitVec 16 × BitVec 16) (s : State) : Out := .next (s.supplyReset r mv.1 mv.2)

/-- A write of HUB_RST_CTRL (R464, R465); the refusal without the key is the access's. The units that force take the ramped path; the
package enters reset at once where none does, else once they have ramped (`State.resetDue`). -/
def State.writeRst (s : State) (v : Word) : State :=
  if getFld v HUB_RST_CTRL.PKG_RST = 1 then
    let s1 := s.each (List.range 256) (fun s p => s.safePath p false)
    if s1.ramped then s1.packageReset false 2 none else s1.modHub (fun h => { h with rstWait := true })
  else s

/-- The software package reset that waits for the outputs to have ramped takes place (R465, step 4). -/
def State.resetDue (s : State) : State := if s.hub.rstWait && s.ramped then s.packageReset false 2 none else s

/-- BOOT (R374), after the package reset that it follows (R465). -/
def execBoot (s : State) : Out :=
  .next (if s.hub.rstWait && !s.ramped then s else s.resetDue.boot)

def execPkgRst (f : Fin 8) (key : BitVec 8) (s : State) : Out :=
  .next (s.hostWrite f HUB_RST_CTRL (w32 (1 + 2 ^ 24 * key.toNat)) (fun s => s.writeRst (w32 (1 + 2 ^ 24 * key.toNat))))

/-! ### Region restart -/

/-- A write of RGN_CTRL (R466): RESET joins a restart in progress, or begins one on the ramped path with a shadow and an excluded
stop (R443). -/
def State.writeRgnCtrl (s : State) (t : Nat) (v : Word) : State :=
  if getFld v RGN_CTRL.RESET = 0 then s
  else
    let s1 := s.flag (RGN_CTRL t) RGN_CTRL.RESET true
    if s.restarting t then s1
    else
      let n := Config.hostStopSource.toNat
      let x : Shadow := { level := 2, inst := t, sev := 4, src := n, start := s.now, stop := some s.hub.stops.length }
      (((s1.recordStop n t false).modHub (fun h => { h with shadows := addShadow x h.shadows })).restartPhase1 t false false).cutReports

def execRegionReset (f : Fin 8) (t : Fin 16) (s : State) : Out :=
  .next (s.hostWrite f (RGN_CTRL t) 1#32 (fun s => s.writeRgnCtrl t 1#32))

/-- Units of the counted items that the reducer of region `t` holds: in its queue, in its running section, in the result
buffer (R270, R272). -/
def State.itemsHeld (s : State) (t : Nat) : List Nat :=
  let r := s.red t
  r.queue.filterMap (fun j => match j with
    | .value _ u _ _ _ _ _ counted => if counted then some u else none
    | .close _ _ _ _ _ => none) ++
  (match r.run with
    | some x => if x.counted && !x.close then [x.unit] else []
    | none => []) ++ ((r.buf.filter (fun x => !x.nl)).map Rec.unit) ++ r.waiting.map Rec.unit

/-- Bits of a region's register `a` that its restart keeps: of its event inputs all but the configuration and the task slot (R270,
R272, R333, R433, R466). -/
def State.keepRegion (s : State) (a : Nat) : Word :=
  match blockOf a with
  | some (.rgn, _, o) => if o < 0xC then allBits else 0#32
  | some (.evt, _, o) => if 0x2000 ≤ o && o < 0x6000 then (if o % 16 = 4 then 0xFFFF000E#32 else if 8 ≤ o % 16 then allBits else 0#32) else 0#32
  | some (.rdc, _, o) => if o = 0x10 || (0x100 ≤ o && o < 0x500) then allBits else 0#32
  | _ => s.keepCal a

/-- RESTART_CLEAR (R434 phase 2): once the last switch has opened, the region's registers return to reset, and what its engines
hold is discarded, items as dropped. The shadows of its reads go (R459), and its walker streams restart (R306). Until its image
applies again the region is in nightlight mode (R384). -/
def State.restartClear (s : State) (t : Nat) : State :=
  if (s.region t).restart ≠ 1 || !(unitsOf t).all (fun p => !s.closed p && (s.unit p).safe = .none) then s
  else
    let s1 := (s.cutApply t).each (unitsOf t) State.foldUnit
    let s2 := s1.each (s1.itemsHeld t) (fun s p => s.itemsDrop p 1)
    let s3 := s2.resetMasked (fun a => blockRegion a = some t || regionScope t a) s2.keepRegion
    let s4 := s3.each (unitsOf t) (fun s p => s.modUnit p (fun u =>
      { fonTicks := u.fonTicks, openedAt := u.openedAt, skewApplied := u.skewApplied }))
    let s5 := s4.clustersKept ((List.range 4).map (fun c => 4 * t + c))
    let s6 := s5.modRegion t (fun r =>
      { restart := 2, restartEcc := r.restartEcc, img := r.img, bank := r.bank, userTaps := r.userTaps, stage := r.stage, quotaUse := r.quotaUse,
        govK := r.govK, power := r.power })
    let s7 := s6.each ((List.range 4).filter (fun k => s6.wsOf t k)) (fun s k => (s.wsSquash (t / 4) k).wsRewind (t / 4) k)
    { (s7.flag (RGN_INFO t) RGN_INFO.NL true).takeRate t with perFn := s7.perFn.filter (fun x => blockRegion (x.1 % 2 ^ 28) ≠ some t) }

def execRestartClear (t : Fin 16) (s : State) : Out := .next (s.restartClear t)

/-- Region `t` has no image that it could load: nightlight mode (R384, R434). -/
def State.toNightlight (s : State) (t : Nat) : State :=
  ((((s.applyVals (regionScope t) []).modRegion t (fun r => { r with img := none, userTaps := [], stage := (0, 0) })).takeRate t).setRun t
    none).raise .imgNightlight 0 2 t

/-- The image of the RUN slot, where it passes the checks (R434 phase 3). -/
def State.runSlot (s : State) (t : Nat) : Option ImgContent :=
  if s.rdF (IMG_SLOTINFO t) ⟨4, 2⟩ ≠ 0 then none
  else
    let bs := s.slotImage t (b2n (s.bit (IMG_SLOTINFO t) 3))
    if bs ≠ [] && s.imgCheck (s.rd IMG_KEY_STAT) bs 0x100000 t = 0 then some (imgContent bs) else none

/-- Region `t` takes the image `c` into its active bank. -/
def State.reload (s : State) (t : Nat) (c : ImgContent) : State :=
  (((s.writeBank t (s.region t).bank c).setBank t (s.region t).bank).takeContent t c).leaveNightlight t

/-- Region `t` is loaded from its RUN slot (R376 phases 1 to 3), or is left in nightlight mode where that fails its checks (R434). -/
def State.reloadRun (s : State) (t : Nat) : State :=
  match s.runSlot t with
  | some x => s.reload t x
  | none => s.toNightlight t

/-- The scrub of R429 over the words of region `t` whose codewords have errors: what is still uncorrectable is replaced. -/
def State.scrubRegion (s : State) (t : Nat) : State :=
  let d := t / 4
  let ws := (s.ecc.map Prod.fst).filter (fun w => !inHub (8 * w) && 8 * w / 0x2000000 = d && s.memRegion d (8 * w % 0x2000000) = some t)
  let shadowBad := ws.any (fun w => s.partOf d (8 * w % 0x2000000) = 7 && (eccDecode (s.eccErr w % 2 ^ 88)).isNone)
  let s1 := s.each ws (fun s w =>
    let r := s.scrubWord w
    if !r.2 then r.1
    else
      let o := 8 * w % 0x2000000
      let k := r.1.partOf d o
      if k = 7 then r.1.setEcc w 0
      else
        let s1 := (r.1.setBytes (8 * w) (List.replicate 8 0#8)).setEcc w 0
        if k = 1 then
          let i := (o - s1.rdN (DIE_PART_BASE d 1)) / 256
          s1.restoreCtx d i (fun _ => true)
        else s1)
  if shadowBad && (s1.region t).img ≠ none then s1.reloadRun t else s1

/-- RESTART_RELOADED (R434 phases 3 and 4): `shadowOk` says whether the configuration shadow passed its CRC. The scrub of R429
and the skew calibration run, the latter for 256 µs. -/
def State.restartReloaded (s : State) (t : Nat) (shadowOk : Bool) : State :=
  if (s.region t).restart ≠ 2 then s
  else
    let s1 := match (s.region t).img with
      | none => s
      | some c =>
        if shadowOk then s.reload t c else s.reloadRun t
    let s2 := if (s.region t).restartEcc then s1.scrubRegion t else s1
    s2.skewCalibration.modRegion t (fun r => { r with restart := 3, restartDone := s.now + 256 * usTicks, skewWait := true })

def execRestartReloaded (t : Fin 16) (shadowOk : Bool) (s : State) : Out := .next (s.restartReloaded t shadowOk)

/-- An APPLY that waited for the restart of its region to end is requested now (R388). -/
def State.waitingApply (s : State) (t : Nat) : State :=
  match s.applyIn 4 with
  | some x => if x.target = t && x.reqAt = none then s.imgRequest x else s
  | none => s

/-- RESTART_RESUME (R423, R434 phase 5): SETTLE_US after phase 4, unless a reaction of higher severity still covers the region,
the shadow ends and the region starts its image. -/
def State.restartResume (s : State) (t : Nat) : State :=
  if (s.region t).restart ≠ 3 || (s.region t).skewWait || s.hub.shadows.any (fun h => 4 < h.sev && within 2 t h.level h.inst) then s
  else
    let s1 := s.advance ((s.region t).restartDone + s.shadowTicks)
    let s2 := s1.each (s1.hub.shadows.filter (fun h => h.level = 2 && h.inst = t && h.sev = 4)) State.endShadow
    let s3 := ((s2.modRegion t (fun r => { r with restart := 0, restartEcc := false })).flag (RGN_CTRL t) RGN_CTRL.RESET false).restRgnState t
    let s4 := (s3.emit (t / 4) (0xC34 + t % 4) s3.now).regionCause t causeRestartDone
    (s4.enterImage t).waitingApply t

def execRestartResume (t : Fin 16) (s : State) : Out := .next (s.restartResume t)

end Sys2Proof.Machine
end

