-- ==== Sys2Proof/Machine/Smb.lean ====
section
/-! DEFINITION. The management view over SMBus (R471 of 15_register_maps.md) and the JTAG instructions (R489 of
16_pins_and_electrical.md). -/

namespace Sys2Proof.Machine

/-! ### SMBus -/

/-- One bit step of the CRC-8 of an SMBus PEC, x⁸ + x² + x + 1. PRESUMED: R489 names SMBus 3.x, whose polynomial this is. -/
def pecBit (c : Nat) : Nat := if 128 ≤ c % 256 then (2 * c % 256) ^^^ 7 else 2 * c % 256

/-- The PEC over a list of bytes, from 0. -/
def pec (bs : List (BitVec 8)) : BitVec 8 :=
  BitVec.ofNat 8 (bs.foldl (fun c b =>
    pecBit (pecBit (pecBit (pecBit (pecBit (pecBit (pecBit (pecBit (c ^^^ b.toNat))))))))) 0)

/-- The first byte of a transaction with this device, a write or a read: its address of R489 and the direction. -/
def smbAddrByte (read : Bool) : BitVec 8 := BitVec.ofNat 8 (2 * (0x58 + Config.smbAddr.toNat) + b2n read)

/-- The answer to a Block Read of command `code` with a register's value: a byte count of 4, the value little-endian, the PEC
(R471), which covers the whole transaction. -/
def smbAnswer (code : Nat) (v : Word) : List (BitVec 8) :=
  let bs := 4#8 :: leBytes 4 v.toNat
  bs ++ [pec ([smbAddrByte false, BitVec.ofNat 8 code, smbAddrByte true] ++ bs)]

/-- The state after a Block Read: it has no side effect on the device (R471). A package held in reset does not acknowledge it (R472). -/
def State.smbRead (s : State) (code : Nat) (v : Word) : State :=
  s.modOut (fun o => { o with smb := if s.hub.held = none then smbAnswer code v else [] })

/-- The reading of sensor `k` as a signed number of 1/16 °C. -/
def State.shownTemp (s : State) (k : Nat) : Int := signed 16 (s.rdN (TMP_RD k))

/-- The sensor with the greatest reading, the first of equals. -/
def State.hottest (s : State) : Nat :=
  (List.range 88).foldl (fun m k => if s.shownTemp m < s.shownTemp k then k else m) 0

def execSmbHubId (s : State) : Out := .next (s.smbRead 0x00 (s.shows 0 HUB_ID))

/-- SMB_SERIAL_LO (R471): no shadow is latched. -/
def execSmbSerialLo (s : State) : Out := .next (s.smbRead 0x01 (s.shows 0 HUB_SERIAL_LO))

def execSmbSerialHi (s : State) : Out := .next (s.smbRead 0x02 (s.shows 0 HUB_SERIAL_HI))

def execSmbBootStat (s : State) : Out := .next (s.smbRead 0x03 (s.rd HUB_BOOT_STAT))

/-- SMB_MAX_TEMP (R471): the TMP_RD word of the greatest reading, substitutes included. -/
def execSmbMaxTemp (s : State) : Out := .next (s.smbRead 0x10 (s.rd (TMP_RD s.hottest)))

def execSmbTmpShut (s : State) : Out := .next (s.smbRead 0x11 (s.rd TMP_SHUT))

def execSmbPwrStat (s : State) : Out := .next (s.smbRead 0x12 (s.rd PWR_STAT))

def execSmbSevPend (s : State) : Out := .next (s.smbRead 0x13 (s.shows 0 FLT_SEV_PEND))

def execSmbLifeCond (s : State) : Out := .next (s.smbRead 0x14 (s.rd LIFE_COND))

def execSmbImgStat (s : State) : Out := .next (s.smbRead 0x15 (s.rd IMG_STAT))

/-- SMB_OTHER_COMMAND (R471): a byte count of 0. -/
def execSmbOtherCommand (_code : BitVec 8) (s : State) : Out :=
  .next (s.modOut (fun o => { o with smb := if s.hub.held = none then [0#8] else [] }))

/-- SMB_WRITE (R471): acknowledged and discarded. -/
def execSmbWrite (_code : BitVec 8) (_data : List (BitVec 8)) (s : State) : Out := .next s

/-! ### JTAG -/

/-- Who drives the balls of the boundary register (R489): the device, the boundary register, or nobody. -/
inductive PinDrive where
  | device
  | boundary (cells : List Bool)
  | float
  deriving DecidableEq, Repr

/-- EXTEST, CLAMP and HIGHZ take the pins only in nightlight mode; below the reset threshold of VIO nothing drives them (R481). -/
def State.pinDrive (s : State) : PinDrive :=
  if s.hub.held = some 2 then .float
  else if !s.is IMG_STAT IMG_STAT.NL then .device
  else
    match s.hub.jtag with
    | 2 | 3 => .boundary s.hub.boundary
    | 4 => .float
    | _ => .device

/-- The TAP takes instruction `n`; a boot that waits before its step 3 goes on once none of EXTEST, CLAMP and HIGHZ is in
force. -/
def State.setJtag (s : State) (n : Nat) : State :=
  let s1 := s.modHub (fun h => { h with jtag := n })
  if n < 2 && 2 ≤ s.hub.jtag && s.rdF HUB_BOOT_STAT HUB_BOOT_STAT.STEP = 2 then s1.boot else s1

/-- JTAG_BYPASS (R489): every unassigned code acts as BYPASS. -/
def execJtagBypass (_code : BitVec 8) (s : State) : Out := .next (s.setJtag 0)

/-- JTAG_SAMPLE_PRELOAD (R489): the cells that it shifts in are preloaded. -/
def execJtagSamplePreload (cells : List Bool) (s : State) : Out :=
  .next ((s.setJtag 1).modHub (fun h => { h with boundary := cells }))

def execJtagExtest (s : State) : Out := .next (s.setJtag 2)

def execJtagClamp (s : State) : Out := .next (s.setJtag 3)

def execJtagHighz (s : State) : Out := .next (s.setJtag 4)

end Sys2Proof.Machine
end

