-- ==== Sys2Proof/Machine/Sync.lean ====
section
/-! DEFINITION. SYNC_PULSE (R48, R55, R56, R62 of 02_clocks_time_alignment.md; R285 of 09_sites_and_site_walker.md). -/

namespace Sys2Proof.Machine

/-- The correction of the hub phase interpolator by at most one ROOT/64 step (R62). -/
def ClockState.slewStep (c : ClockState) : ClockState := { c with interp := c.interp + sgn c.slew, slew := c.slew - sgn c.slew }

/-- The next LCLK edge that has had no SYNC pulse (R55). -/
def State.nextSync (s : State) : Nat :=
  nextMultiple usTicks (match s.hub.clk.lastSync with
    | some t => max s.now (t + 1)
    | none => s.now)

/-- SYNC_PULSE (R55) at the next LCLK edge: `cmp` and `hops` are the comparisons of the units and hops in 6.25 ps units,
`drift` the replicas that a hardware fault sets wrong after this pulse, which the next one corrects. -/
def State.syncPulse (s : State) (cmp hops : List Int) (drift : List (Fin 4 × DWord)) : State :=
  let s1 := (s.advance s.nextSync).each (List.range 4) State.syncStress
  (((s1.modClk (fun c => { c.slewStep with lastSync := some s1.now })).skewPulse cmp hops).timeSlips).replicaDrift drift

def execSyncPulse (cmp : List Int) (hops : List Int) (drift : List (Fin 4 × DWord)) (s : State) : Out :=
  .next (s.syncPulse cmp hops drift)

end Sys2Proof.Machine
end

