-- ==== Sys2Proof/Machine/Writes.lean ====
section
/-! DEFINITION. Host writes: what a write of each register does (R9 and the chapters' register tables), requests of several
DWORDs (R456), the fence (R463), interrupts and the MSI-X area (R468 to R470), and BAR2 writes (R455, R457). -/

namespace Sys2Proof.Machine

/-! ### Interrupts, MSI-X and the fence -/

/-- A write of HUB_INT_EN_f: a message for each cause whose enable rises while its STAT bit is 1 (R468). -/
def State.intEnWrite (s : State) (f : Nat) (v : Word) : State :=
  let s1 := s.store (HUB_INT_EN f) v
  s1.each (indices 12 (fun c => s1.bit (HUB_INT_EN f) c && !s.bit (HUB_INT_EN f) c && s.bit (HUB_INT_STAT f) c))
    (fun s c => s.sendCause f c)

/-- A W1C write of HUB_INT_STAT_f, in the PCLK cycle of which the causes `met` set anew (R468): a bit of 1 that was set again in the
cycle stays 1 with a new message; one that rose in it has sent its own. -/
def State.intStatWrite (s : State) (f : Nat) (v : Word) (met : Nat) : State :=
  let a := HUB_INT_STAT f
  let again := v &&& mapGet 0#32 a s.cycSet &&& s.rdCyc a &&& s.rd a
  (s.wr a (s.rd a &&& ~~~ (v &&& w32 (causeMask f) &&& s.rdCyc a))).each (indices 12 (fun c => bitOf met c || bitOf again.toNat c))
    (fun s c => s.setCause f c)

/-- The bits of DWORD `o` of the MSI-X area that a write stores (R470, the PCI Express layout): table entries hold a DWORD-aligned
address, its high half, the data and one mask bit; the PBA takes no write. -/
def msixMask (o : Nat) : Word :=
  if o < 0x400 then (if o % 16 = 0 then 0xFFFFFFFC#32 else if o % 16 = 12 then 1#32 else 0xFFFFFFFF#32) else 0#32

/-- A write of DWORD `o` of function `f`'s MSI-X area: unmasking a vector sends the message it withheld, once (R468). -/
def State.msixWrite (s : State) (f o : Nat) (v : Word) : State :=
  let s1 := if msixMask o = 0#32 then s else s.setMsix f o (v &&& msixMask o)
  let n := o / 16
  if o < 0x400 && s.masked f n && !s1.masked f n && bitOf (s1.msix f (pbaOff n)).toNat (n % 32) then
    (s1.setMsix f (pbaOff n) (setFld (s1.msix f (pbaOff n)) ⟨n % 32, 1⟩ 0)).post (.msix f n)
  else s1

/-- A write of HUB_FN_CTRL_g (R463): FENCED follows once no access of the function is in flight; function 0 has no fence. -/
def State.fenceWrite (s : State) (g : Nat) (on : Bool) : State :=
  if g = 0 then s
  else (s.flag (HUB_FN_CTRL g) HUB_FN_CTRL.FENCE on).flag (HUB_FN_CTRL g) HUB_FN_CTRL.FENCED (on && !s.inFlight g)

/-! ### Registers, block by block -/

/-- A register of unit `p` (R99, R112). -/
def State.writeUnit (s : State) (p o a : Nat) (v : Word) : State :=
  match o with
  | 0x00 => s.writeCtrl p v
  | 0x04 => s.modeWrite p v
  | 0x08 => s.setptWrite p v
  | 0x0C => s.cmplWrite p v
  | 0x50 => s.writeNcoCtrl p v
  | 0x60 => s.putAmp p v.toNat
  | _ => s.store a v

/-- A register of the control engine of region `t` (R149, R150). -/
def State.writeEng (s : State) (t o a : Nat) (v : Word) : State :=
  if o = 0 then s.rateWrite t v
  else if 0x100 ≤ o && o < 0x200 && 0x10 ≤ o % 0x20 then s.supWrite t ((o - 0x100) / 0x20) ((o % 0x20 - 0x10) / 4) v
  else if 0x400 ≤ o && o < 0xC00 then
    let p := 16 * t + (o - 0x400) / 0x80
    let i := o % 0x80
    if i = 0 then s.writeUctrl p v
    else if i = 0x0C then s.manualWrite p v
    else if 0x10 ≤ i && i < 0x38 then s.coefWrite p ((i - 0x10) / 4) v
    else if i = 0x50 then s.plCfgWrite p v
    else if i = 0x54 then s.plLoadWrite p false v
    else if i = 0x58 then s.plLoadWrite p true v
    else if s.follower p && i ≠ 8 then s
    else s.store a v
  else s.store a v

/-- A register of the profile block of region `t` (R186 to R188). -/
def State.writePrf (s : State) (t o a : Nat) (v : Word) : State :=
  if o = 0 then s.writePrfCtrl t v
  else if o = 8 then s.writeWfJump t v
  else if o = 0x28 then s.strPost t (v.toNat % 2 ^ 13)
  else if 0x800 ≤ o && o < 0xC00 then
    let p := 16 * t + (o - 0x800) / 0x40
    let i := o % 0x40
    if 0x08 ≤ i && i < 0x20 then s.profileLimitWrite p ((i - 8) / 4) v
    else if s.follower p && i ≠ 4 then s
    else if i = 0 && !bitOf v.toNat 0 then
      (s.store a v).modUnit p (fun u => { u with gen := { u.gen with keep := none } })
    else s.store a v
  else if (o = 0x20 || o = 0x24) && s.playing t then s
  else s.store a v

/-- A register of the measurement block of region `t` (R224, R242, R249 to R251). -/
def State.writeMea (s : State) (t o a : Nat) (v : Word) : State :=
  if o = 0x10 then s.writeMeaReq t v
  else if 0x200 ≤ o && o < 0x300 && o % 0x40 = 0x14 then
    (if bitOf v.toNat 0 then s.pilotRestore (4 * t + (o - 0x200) / 0x40) else s)
  else if 0x1000 ≤ o && o < 0x9000 then
    let p := 16 * t + (o - 0x1000) / 0x800
    let i := o % 0x800
    if i = 0 then s.filtWrite p v
    else if i = 8 then (if bitOf v.toNat 1 then s.bankCommit p else s)
    else if 0x100 ≤ i && i < 0x500 then if (regRow a).isNone then s else s.bankWrite p ((i - 0x100) / 0x200) a v
    else s.store a v
  else s.store a v

/-- A register of the site block of die `d` (R287, R288, R303, R309). -/
def State.writeSite (s : State) (d o a : Nat) (v : Word) : State :=
  if 0x30 ≤ o && o < 0x40 then (s.syncStress d).store a v
  else if o = 0x44 then s.writeAccCtrl d v
  else if o = 0x6C then (if bitOf v.toNat 0 then s.siteGo d else s)
  else if 0x400 ≤ o && o < 0x800 then
    let k := (o - 0x400) / 0x100
    let s1 := s.wsSquash d k
    if o % 0x100 = 0x1C then (if bitOf v.toNat 0 then s1.wsRewind d k else s1) else s1.store a v
  else s.store a v

/-- A register of the event block of die `d`, by function `f` (R325, R326, R336). -/
def State.writeEvt (s : State) (f d o a : Nat) (v : Word) : State :=
  if o = 0 then s.fire d (v.toNat % 512) s.nextPclk 0
  else if 0x40 ≤ o && o < 0x80 then s.fireSet f d ((o - 0x40) / 4) v
  else if 0x80 ≤ o && o < 0xC0 then s.slvlWrite f d ((o - 0x80) / 4) v
  else if 0xB000 ≤ o && o < 0xB100 then s.cntWrite d ((o - 0xB000) / 16) a v
  else s.store a v

/-- A register of the time block (R51, R53, R67, R68, R70). -/
def State.writeTime (s : State) (a : Nat) (v : Word) : State :=
  if a = HUB_CAL_CTRL then
    let s1 := if s.isMember then s else s.flag HUB_CAL_CTRL HUB_CAL_CTRL.SYNC_IN_SET (bitOf v.toNat 2)
    let s2 := if bitOf v.toNat 0 then s1.calSet else s1
    if bitOf v.toNat 1 then s2.leapCommit else s2
  else if a = HUB_ALN_STAT then
    (if bitOf v.toNat 7 && !s.is HUB_ALN_CFG HUB_ALN_CFG.AUTO_JOIN then s.flag HUB_ALN_STAT HUB_ALN_STAT.JOIN true else s)
  else s.store a v

/-- A register of the data-movement block (R341, R359, R362, R363). -/
def State.writeDma (s : State) (o a : Nat) (v : Word) : State :=
  if 0x1000 ≤ o && o < 0x2000 then
    let r := (o - 0x1000) / 0x40
    let i := o % 0x40
    if i = 0 then s.ringCtrl r v
    else if i = 0x18 then s.ringHead r v
    else if 4 ≤ i && i < 0x18 && s.ringOn r then s
    else s.store a v
  else if a = DMA_AUD_STAT then
    (if bitOf v.toNat 0 && !s.inCycle (mapGet 0 (s.rdN DMA_AUD_SEL) s.hub.auditMism - 1) then
      s.modHub (fun h => { h with auditMism := mapPut 0 (s.rdN DMA_AUD_SEL) 0 h.auditMism }) else s)
  else s.store a v

/-- A register of the image loader (R372, R373, R391, R392). -/
def State.writeImg (s : State) (o a : Nat) (v : Word) : State :=
  if o = 0 then s.imgCmdWrite v
  else if o = 0x24 then s.keyCtrl v
  else if 0x40 ≤ o && o < 0x80 then s.wr a v
  else if 0x100 ≤ o && o < 0x200 && o % 16 = 12 then s.minSeq ((o - 0x100) / 16) v
  else s.store a v

/-- A register of the fault hub (R417, R421, R431, R448). -/
def State.writeFlt (s : State) (o a : Nat) (v : Word) : State :=
  if o = 0x24 then s.writeInjCtrl v
  else if 0x1000 ≤ o && o % 0x20 = 0 then s.severityWrite ((o - 0x1000) / 0x20) v
  else if 0x1000 ≤ o && o % 0x20 = 4 then s.statWrite ((o - 0x1000) / 0x20) v
  else s.store a v

/-- A register of the life block (R305, R314, R450). -/
def State.writeLife (s : State) (a : Nat) (v : Word) : State :=
  if a = LIFE_RW_CTRL then (if bitOf v.toNat 0 then s.clrCnt else s)
  else if a = LIFE_RW_CLASS then
    s.modHub (fun h => { h with relayClass := mapPut 0 (s.rdN LIFE_RW_SEL) (v.toNat % 16) h.relayClass })
  else if a = LIFE_CTRL then s.writeLifeCtrl v
  else s.store a v

/-- What a write of `v` to register `a` by function `f` does where it is carried out: a register without an action of its own is
stored by its access codes (R9). -/
def State.writeReg (s : State) (f a : Nat) (v : Word) : State :=
  match blockOf a with
  | none => s
  | some (b, k, o) =>
    if b ≠ .msix && regRow a = none then s
    else
      match b with
      | .unit => s.writeUnit k o a v
      | .eng => s.writeEng k o a v
      | .prf => s.writePrf k o a v
      | .seq => if o = 0 then s.writeSeqCtrl k v else s.store a v
      | .mea => s.writeMea k o a v
      | .site => s.writeSite k o a v
      | .evt => s.writeEvt f k o a v
      | .hevt =>
        if o = 0 then s.pfire (v.toNat % 256) else if o = 4 then s.sfire f (v.toNat % 64) else s.store a v
      | .time => s.writeTime a v
      | .dma => s.writeDma o a v
      | .rope => if a = ROPE_MBX_TX then s.mbxTxWrite v else s.store a v
      | .img => s.writeImg o a v
      | .tmp => if a = TMP_CTRL then s.writeTmpCtrl v else s.store a v
      | .flt => s.writeFlt o a v
      | .life => s.writeLife a v
      | .mem => if o = 0 then s.scrubEnWrite k v else if o = 4 then s.scrubIntWrite k v else s.store a v
      | .own => if 0x10 ≤ o && o < 0x30 then s.fenceWrite ((o - 0x10) / 4) (bitOf v.toNat 0) else s.store a v
      | .id => if o = 0x14 then s.writeRst v else s.store a v
      | .rgn => if o = 4 then s.writeRgnCtrl k v else s.store a v
      | .int =>
        if o % 0x100 = 0 then s.intStatWrite (o / 0x100) v 0
        else if o % 0x100 = 4 then s.intEnWrite (o / 0x100) v
        else s.store a v
      | .msix => s.msixWrite f o v
      | .die | .dtmp | .rdc => s.store a v

/-- A refusal of a whole request of function `f` with reason SIZE, or FENCED where the function is fenced (R456, R461). -/
def State.refuseSize (s : State) (f a : Nat) : State :=
  s.refuse f a true false (if s.fenced f then rsnFenced else rsnSize)

/-- The DWORDs `vs` of one request, written from `a` on in ascending order, each checked on its own (R456). -/
def State.hostWrites (s : State) (f a : Nat) : List Word → State
  | [] => s
  | v :: vs => State.hostWrites (s.hostWrite f a v (fun s => s.writeReg f a v)) f (a + 4) vs

/-- REGISTER_WRITE (R9, R456): a request of the DWORDs `vs` from the DWORD of offset `a` on, with byte enables `be`. -/
def State.writeRequest (s : State) (f a : Nat) (be : BitVec 4) (vs : List Word) : State :=
  let b := a / 4 * 4
  if !s.accepts then s
  else if 16 < b % 64 / 4 + vs.length || be ≠ 0xF#4 then s.refuseSize f b else s.hostWrites f b vs

def execRegisterWrite (f : Fin 8) (a : Fin 134217728) (be : BitVec 4) (vs : List Word) (s : State) : Out :=
  .next (s.writeRequest f a be vs)

/-- FENCE (R463): function `f` fences function `g`. -/
def execFence (f g : Fin 8) (s : State) : Out :=
  .next (s.hostWrite f (HUB_FN_CTRL g) 1#32 (fun s => s.fenceWrite g true))

/-- FENCE_LIFT (R463). -/
def execFenceLift (f g : Fin 8) (s : State) : Out :=
  .next (s.hostWrite f (HUB_FN_CTRL g) 0#32 (fun s => s.fenceWrite g false))

/-- INT_EN_WRITE (R468): of function `g`'s register. -/
def execIntEnWrite (f g : Fin 8) (v : Word) (s : State) : Out :=
  .next (s.hostWrite f (HUB_INT_EN g) v (fun s => s.intEnWrite g v))

/-- INT_STAT_CLEAR (R468): the causes `met` set anew in the cycle of the write. -/
def execIntStatClear (f g : Fin 8) (v : Word) (met : BitVec 12) (s : State) : Out :=
  .next (s.hostWrite f (HUB_INT_STAT g) v (fun s => s.intStatWrite g v met.toNat))

/-- MSIX_UNMASK (R468): vector `v` of the function's own table. -/
def execMsixUnmask (f : Fin 8) (v : Fin 64) (s : State) : Out :=
  .next (s.hostWrite f (0xF0000 + 16 * v + 12) 0#32 (fun s => s.msixWrite f (16 * v + 12) 0#32))

/-! ### BAR2 -/

/-- The package is in nightlight mode (R384). -/
def State.packageNight (s : State) : Bool := s.is IMG_STAT IMG_STAT.NL

/-- Whether a read or a write (`wr`) by function `f` may reach byte `a` of the BAR2 window: none, or the reason of its refusal (R384,
R455, R461). -/
def State.bar2Right (s : State) (f a : Nat) (wr : Bool) : Option Nat :=
  if f ≠ 0 && s.packageNight then some rsnSecure
  else if 0x8800000 ≤ a || (a < hubMem && dieSram ≤ a % 0x2000000) then none
  else if hubMem + 0x200000 ≤ a then some rsnWindow
  else if hubMem ≤ a then pf0Only f
  else
    let d := a / 0x2000000
    let o := a % 0x2000000
    match s.partOf d o with
    | 7 => if f ≠ 0 then some rsnSecure else if wr then some rsnWindow else none
    | 8 | 15 => pf0Only f
    | k =>
      match s.memRegion d o with
      | none => pf0Only f
      | some t =>
        if f ≠ 0 && f ≠ s.ownerOf t then some rsnOwner
        else if !wr then none
        else if k = 3 then some rsnWindow
        else if k = 5 then
          (if s.rdN (RDC_KS_BASE t) ≤ o && o < s.rdN (RDC_KS_BASE t) + 0x8000 then none else some rsnWindow)
        else if k = 6 then
          (if s.rdN (SEQ_PS_BASE t) ≤ o && o < s.rdN (SEQ_PS_BASE t) + 0x10000 then none else some rsnWindow)
        else none

/-- The reason of the refusal of a whole access to `n` bytes, by the order of R461. -/
def State.bar2Refusal (s : State) (f a n : Nat) (wr : Bool) : Option Nat :=
  if s.fenced f then some rsnFenced
  else
    let rs := (List.range n).filterMap (fun i => s.bar2Right f (a + i) wr)
    [rsnSecure, rsnOwner, rsnWindow].find? (fun r => rs.contains r)

/-- A window with RDC = 1 is open in region `t`, or its reducer is busy (R255). -/
def State.kernelBusy (s : State) (t : Nat) : Bool :=
  s.is (RDC_STAT t) RDC_STAT.BUSY ||
    (unitsOf t).any (fun p => (s.unit p).mea.wins.any (fun w => s.is (MEA_WIN_CFG t w.win) MEA_WIN_CFG.RDC))

/-- What becomes of a host byte `v` for the BAR2 offset `a`: the byte to store, or none where it is ignored, and the state with
what an ignored byte sets (R190, R255, R281, R373, R385, R455). -/
def State.bar2Byte (s : State) (a : Nat) (v : BitVec 8) : State × Option (BitVec 8) :=
  if 0x8800000 ≤ a || (a < hubMem && dieSram ≤ a % 0x2000000) then (s, none)
  else if hubMem ≤ a then
    (if s.stagingBusy then (s.flag IMG_STAT IMG_STAT.STG_WR true, none) else (s, some v))
  else
    let d := a / 0x2000000
    let o := a % 0x2000000
    if (s.memRegion d o).any s.nightlight then (s, none) else
    match s.partOf d o with
    | 1 =>
      let i := (o - s.rdN (DIE_PART_BASE d 1)) % 256
      if i = 4 then
        let old := BitVec.ofNat 8 (s.memGet a 1).2.1
        (s, some ((old &&& 0xC0#8) ||| (old &&& ~~~ v &&& 0x38#8) ||| (v &&& 7#8)))
      else if i = 5 || (0x0C ≤ i && i < 0x24) then (s, none)
      else (s, some v)
    | 5 =>
      match s.memRegion d o with
      | some t => if s.kernelBusy t then (s.flag (RDC_STAT t) RDC_STAT.KS_WR true, none) else (s, some v)
      | none => (s, some v)
    | 6 =>
      match s.memRegion d o with
      | some t => if s.seqRunning t then (s.flag (SEQ_STAT t) SEQ_STAT.PS_WR true, none) else (s, some v)
      | none => (s, some v)
    | _ => (s, some v)

/-- Bytes with their offsets, gathered into runs of adjacent ones: first offset and bytes. -/
def byteRuns : List (Nat × BitVec 8) → List (Nat × List (BitVec 8))
  | [] => []
  | (a, b) :: l =>
    match byteRuns l with
    | (c, bs) :: r => if c = a + 1 then (a, b :: bs) :: r else (a, [b]) :: (c, bs) :: r
    | [] => [(a, [b])]

/-- The bytes of a write that are stored, and the state after the ignored ones. -/
def State.bar2Bytes (s : State) (a : Nat) : List (BitVec 8) → State × List (Nat × BitVec 8)
  | [] => (s, [])
  | b :: bs =>
    let r := s.bar2Byte a b
    let q := State.bar2Bytes r.1 (a + 1) bs
    (q.1, match r.2 with
      | some v => (a, v) :: q.2
      | none => q.2)

/-- A run of bytes is stored: footholds that read any of it are squashed, and the stress of a site counts up to the write (R168,
R198, R285, R457). -/
def State.bar2Run (s : State) (a : Nat) (bs : List (BitVec 8)) : State :=
  let s1 :=
    if a < hubMem then
      let d := a / 0x2000000
      ((List.range 4).foldl (fun s g => s.hostSquash (4 * d + g) (fun x =>
        x.readsMem a bs.length)) s).syncStress d
    else s
  (s1.memWrite a bs).wroteMem a bs.length

/-- A BAR2 write that reaches its memory (R455, R457). -/
def State.bar2Store (s : State) (a : Nat) (bs : List (BitVec 8)) : State :=
  let q := (if a < hubMem then s.spineXfer (a / 0x2000000) 1 else s).bar2Bytes a bs
  (q.1.each (byteRuns q.2) (fun s x => s.bar2Run x.1 x.2)).bankCheck

/-- BAR2_WRITE (R455, R457, R460): rights apply to the access as a whole; a die whose spine is down discards it (R350), and in an
outage before that it waits (R30). -/
def State.bar2Write (s : State) (f a : Nat) (bs : List (BitVec 8)) : State :=
  if !s.accepts then s
  else
    match s.bar2Refusal f a bs.length true with
    | some r => s.refuse f a true true r
    | none =>
      let d := a / 0x2000000
      if a < hubMem && s.spineDown d then s.flag DMA_STAT DMA_STAT.REG_TMO true
      else if a < hubMem && s.spineOut d then s.spineHold d (.bar2 f a bs)
      else s.bar2Store a bs

/-- A BAR2 read of `n` bytes that reaches its memory (R455, R457): an uncorrectable word reads as 0, unpopulated memory too. `lost` says
that its completion is discarded. -/
def State.bar2Load (s : State) (f a n : Nat) (lost : Bool) : State :=
  let d := a / 0x2000000
  let s1 := if a < hubMem then (s.spineXfer d 1).syncStress d else s
  let r := s1.memRead a n
  let s2 := if lost then r.1 else r.1.answerMem f r.2.bytes
  (if a < hubMem then s2.spineXfer d 0 else s2).bankCheck

/-- A host read of `n` bytes of BAR2 (R455, R457, R460): a refused one returns 0, one of a die whose spine is down all ones (R350). -/
def State.bar2Read (s : State) (f a n : Nat) : State :=
  if !s.accepts then s
  else
    match s.bar2Refusal f a n false with
    | some r => (s.refuse f a false true r).answerMem f (List.replicate n 0#8)
    | none =>
      let d := a / 0x2000000
      if a < hubMem && s.spineDown d then (s.flag DMA_STAT DMA_STAT.REG_TMO true).answerMem f (List.replicate n 0xFF#8)
      else if a < hubMem && s.spineOut d then s.spineHold d (.mem f a n)
      else s.bar2Load f a n false

/-- BAR2_WRITE (R457): the write, and the reads of memory that follow it, which have no row of their own (R455, R457). -/
def execBar2Write (f : Fin 8) (a : Fin 268435456) (bs : List (BitVec 8) × List (Fin 8 × Fin 268435456 × Fin 4097)) (s : State) : Out :=
  .next ((if bs.1 = [] then s else s.bar2Write f a bs.1).each bs.2 (fun s x => s.bar2Read x.1 x.2.1 x.2.2))

/-! ### The end of a spine outage -/

/-- A waiting access to die `d` takes place, under the rights it was accepted with (R458, R462, R463); a read whose completion is
discarded still acts (R472). -/
def State.spineDo (s : State) (d : Nat) (x : SpineAcc) : State :=
  match x with
  | .write f a v => (s.spineXfer d 1).reachWrite a v (fun s => s.writeReg f a v)
  | .read f a lost =>
    let s1 := s.spineXfer d 1
    (if lost then s1.readEffects f a else s1.readDone f a).spineXfer d 0
  | .bar2 _ a bs => s.bar2Store a bs
  | .mem f a n lost => s.bar2Load f a n lost

/-- One message of class `g` that waits for die `d` leaves the hub: a transfer of class 2, the oldest access of class 3. -/
def State.spineLeave (s : State) (d g : Nat) : State :=
  match g, s.hopsWaiting (4 + d), s.hub.spineWait.find? (fun x => x.1 = d) with
  | 2, x :: _, _ => s.hopLeave (4 + d) s.now x
  | 3, _, some x => (s.modHub (fun h => { h with spineWait := h.spineWait.erase x })).spineDo d x.2
  | _, _, _ => s

/-- At most `n` grants to the messages that wait for die `d` (R348), each class having been passed over as often as `passed` says. -/
def State.spineDrain (s : State) (d : Nat) (passed : List Nat) : Nat → State
  | 0 => s
  | n + 1 =>
    let ready := (if s.hopsWaiting (4 + d) = [] then [] else [2]) ++ (if s.hub.spineWait.any (fun x => x.1 = d) then [3] else [])
    match linkGrant ready passed with
    | none => s
    | some g => (s.spineLeave d g).spineDrain d (passedAfter ready passed g) n

/-- The transfers and the accesses that waited for die `d` take place, the accesses in their order (R348, R458). -/
def State.spineFlush (s : State) (d : Nat) : State :=
  (s.spineDrain d [0, 0, 0, 0] (s.hub.spineWait.length + s.hub.hops.length)).fenceSettle

/-- SPINE_UP (R350, R458). -/
def execSpineUp (d : Fin 4) (s : State) : Out :=
  .next (if s.is (DIE_SPINE_STAT d) DIE_SPINE_STAT.UP then s else (s.spineUp d).spineFlush d)

end Sys2Proof.Machine
end

