-- ==== Sys2Proof/Machine/Dispatch.lean ====
section
/-! DEFINITION. The dispatch: one arm per command, each one call of its meaning. -/

namespace Sys2Proof.Machine

def exec (i : Instr) (s : State) : Host.Outcome State Fault Refusal :=
  match i with
  | .refinLost => Sys2Proof.Machine.execRefinLost s
  | .refinReturn => Sys2Proof.Machine.execRefinReturn s
  | .pllRelock => Sys2Proof.Machine.execPllRelock s
  | .kaMeasure offset => Sys2Proof.Machine.execKaMeasure offset s
  | .kaUncAccumulate => Sys2Proof.Machine.execKaUncAccumulate s
  | .pllUnlock => Sys2Proof.Machine.execPllUnlock s
  | .tsLoRead f more => Sys2Proof.Machine.execTsLoRead f more s
  | .syncPulse cmp hops slips => Sys2Proof.Machine.execSyncPulse cmp hops slips s
  | .calFracRead f more => Sys2Proof.Machine.execCalFracRead f more s
  | .calSet f => Sys2Proof.Machine.execCalSet f s
  | .calSetApply => Sys2Proof.Machine.execCalSetApply s
  | .leapCommit f => Sys2Proof.Machine.execLeapCommit f s
  | .calendarSecond => Sys2Proof.Machine.execCalendarSecond s
  | .calJournal => Sys2Proof.Machine.execCalJournal s
  | .skewCalibration => Sys2Proof.Machine.execSkewCalibration s
  | .skewCalDone => Sys2Proof.Machine.execSkewCalDone s
  | .hopCalibration => Sys2Proof.Machine.execHopCalibration s
  | .alignMarkerRx pkg sent turn => Sys2Proof.Machine.execAlignMarkerRx pkg sent turn s
  | .alignReturnRx back turn => Sys2Proof.Machine.execAlignReturnRx back turn s
  | .alignLoad sent tow up => Sys2Proof.Machine.execAlignLoad sent tow up s
  | .join f => Sys2Proof.Machine.execJoin f s
  | .ropeLinkUp port long offset => Sys2Proof.Machine.execRopeLinkUp port long offset s
  | .syncInEdge rising => Sys2Proof.Machine.execSyncInEdge rising s
  | .syncOutPulse => Sys2Proof.Machine.execSyncOutPulse s
  | .calendarSlotRx sec start => Sys2Proof.Machine.execCalendarSlotRx sec start s
  | .outReqSet f p => Sys2Proof.Machine.execOutReqSet f p s
  | .switchClose p => Sys2Proof.Machine.execSwitchClose p s
  | .outReqClear f p => Sys2Proof.Machine.execOutReqClear f p s
  | .safeRampEnd p => Sys2Proof.Machine.execSafeRampEnd p s
  | .switchMismatch p => Sys2Proof.Machine.execSwitchMismatch p s
  | .chModeWrite f p v => Sys2Proof.Machine.execChModeWrite f p v s
  | .rangeChange p => Sys2Proof.Machine.execRangeChange p s
  | .rangeSettled p => Sys2Proof.Machine.execRangeSettled p s
  | .setptWrite f p v => Sys2Proof.Machine.execSetptWrite f p v s
  | .cmplWrite f p v => Sys2Proof.Machine.execCmplWrite f p v s
  | .loopPeriod t vin iin pil sup => Sys2Proof.Machine.execLoopPeriod t vin iin pil sup s
  | .clampEngage p => Sys2Proof.Machine.execClampEngage p s
  | .clampRelease p => Sys2Proof.Machine.execClampRelease p s
  | .openLoad p => Sys2Proof.Machine.execOpenLoad p s
  | .ncoApply f p => Sys2Proof.Machine.execNcoApply f p s
  | .ncoFtwSwitch p => Sys2Proof.Machine.execNcoFtwSwitch p s
  | .ncoSoftZero p => Sys2Proof.Machine.execNcoSoftZero p s
  | .ncoSoftDone p => Sys2Proof.Machine.execNcoSoftDone p s
  | .ncoAmpWrite f p v => Sys2Proof.Machine.execNcoAmpWrite f p v s
  | .rateWrite f t v => Sys2Proof.Machine.execRateWrite f t v s
  | .rateChange t => Sys2Proof.Machine.execRateChange t s
  | .coefWrite f p c v => Sys2Proof.Machine.execCoefWrite f p c v s
  | .coefRelease f p => Sys2Proof.Machine.execCoefRelease f p s
  | .rcClr f p => Sys2Proof.Machine.execRcClr f p s
  | .autoClear f p => Sys2Proof.Machine.execAutoClear f p s
  | .manualTransfer p => Sys2Proof.Machine.execManualTransfer p s
  | .autoSet f p => Sys2Proof.Machine.execAutoSet f p s
  | .autoTransfer p => Sys2Proof.Machine.execAutoTransfer p s
  | .engManualWrite f p v => Sys2Proof.Machine.execEngManualWrite f p v s
  | .feedbackFrozen p => Sys2Proof.Machine.execFeedbackFrozen p s
  | .feedbackImplausible p => Sys2Proof.Machine.execFeedbackImplausible p s
  | .plLearned p => Sys2Proof.Machine.execPlLearned p s
  | .plLoadWrite f p c v => Sys2Proof.Machine.execPlLoadWrite f p c v s
  | .lofHold p => Sys2Proof.Machine.execLofHold p s
  | .lofSafeOpen p => Sys2Proof.Machine.execLofSafeOpen p s
  | .profileLimitWrite f p l v => Sys2Proof.Machine.execProfileLimitWrite f p l v s
  | .limitsApply p => Sys2Proof.Machine.execLimitsApply p s
  | .wfStart f t => Sys2Proof.Machine.execWfStart f t s
  | .wfSample t => Sys2Proof.Machine.execWfSample t s
  | .wfPassEnd t => Sys2Proof.Machine.execWfPassEnd t s
  | .wfJumpReq f t => Sys2Proof.Machine.execWfJumpReq f t s
  | .wfAbort f t => Sys2Proof.Machine.execWfAbort f t s
  | .wfWaitEnd t => Sys2Proof.Machine.execWfWaitEnd t s
  | .strPost f t v => Sys2Proof.Machine.execStrPost f t v s
  | .underrun t => Sys2Proof.Machine.execUnderrun t s
  | .stallResume t => Sys2Proof.Machine.execStallResume t s
  | .seqStart f t => Sys2Proof.Machine.execSeqStart f t s
  | .seqStopReq f t => Sys2Proof.Machine.execSeqStopReq f t s
  | .seqAbort f t => Sys2Proof.Machine.execSeqAbort f t s
  | .cont f t => Sys2Proof.Machine.execCont f t s
  | .seqNop t => Sys2Proof.Machine.execSeqNop t s
  | .seqHalt t => Sys2Proof.Machine.execSeqHalt t s
  | .seqGo t => Sys2Proof.Machine.execSeqGo t s
  | .seqSweep t => Sys2Proof.Machine.execSeqSweep t s
  | .seqUmask t => Sys2Proof.Machine.execSeqUmask t s
  | .seqSet t => Sys2Proof.Machine.execSeqSet t s
  | .seqForce t => Sys2Proof.Machine.execSeqForce t s
  | .seqMeas t => Sys2Proof.Machine.execSeqMeas t s
  | .seqRnga t => Sys2Proof.Machine.execSeqRnga t s
  | .seqSite t => Sys2Proof.Machine.execSeqSite t s
  | .seqSitew t => Sys2Proof.Machine.execSeqSitew t s
  | .seqWaitt t => Sys2Proof.Machine.execSeqWaitt t s
  | .seqWaittm t => Sys2Proof.Machine.execSeqWaittm t s
  | .seqFire t => Sys2Proof.Machine.execSeqFire t s
  | .seqLdc t => Sys2Proof.Machine.execSeqLdc t s
  | .seqAddc t => Sys2Proof.Machine.execSeqAddc t s
  | .seqLoop t => Sys2Proof.Machine.execSeqLoop t s
  | .seqJmp t => Sys2Proof.Machine.execSeqJmp t s
  | .seqBrz t => Sys2Proof.Machine.execSeqBrz t s
  | .seqBrv t => Sys2Proof.Machine.execSeqBrv t s
  | .seqBro t => Sys2Proof.Machine.execSeqBro t s
  | .seqBre t => Sys2Proof.Machine.execSeqBre t s
  | .seqCall t => Sys2Proof.Machine.execSeqCall t s
  | .seqRet t => Sys2Proof.Machine.execSeqRet t s
  | .seqBarrier t => Sys2Proof.Machine.execSeqBarrier t s
  | .seqLds t => Sys2Proof.Machine.execSeqLds t s
  | .tapReading p mag => Sys2Proof.Machine.execTapReading p mag s
  | .stepCommit t => Sys2Proof.Machine.execStepCommit t s
  | .stepClose t => Sys2Proof.Machine.execStepClose t s
  | .filtWrite f p v => Sys2Proof.Machine.execFiltWrite f p v s
  | .filterChange p => Sys2Proof.Machine.execFilterChange p s
  | .measValueOutput p => Sys2Proof.Machine.execMeasValueOutput p s
  | .bankCommit f p => Sys2Proof.Machine.execBankCommit f p s
  | .bankSwap p => Sys2Proof.Machine.execBankSwap p s
  | .bankJournalDone p => Sys2Proof.Machine.execBankJournalDone p s
  | .windowClose t n => Sys2Proof.Machine.execWindowClose t n s
  | .suspectEnd k => Sys2Proof.Machine.execSuspectEnd k s
  | .pilotRotationTick k => Sys2Proof.Machine.execPilotRotationTick k s
  | .pilotSelfTrimDone k off gain refs => Sys2Proof.Machine.execPilotSelfTrimDone k off gain refs s
  | .pilotShadowInDone k => Sys2Proof.Machine.execPilotShadowInDone k s
  | .pilotSwap k => Sys2Proof.Machine.execPilotSwap k s
  | .sliceTrimDone k off gain => Sys2Proof.Machine.execSliceTrimDone k off gain s
  | .pilotShadowOutDone k => Sys2Proof.Machine.execPilotShadowOutDone k s
  | .pilotReturn k => Sys2Proof.Machine.execPilotReturn k s
  | .pilotAbandon k => Sys2Proof.Machine.execPilotAbandon k s
  | .restore f k => Sys2Proof.Machine.execRestore f k s
  | .selfTest f t u => Sys2Proof.Machine.execSelfTest f t u s
  | .recalibration f t u => Sys2Proof.Machine.execRecalibration f t u s
  | .pilotOnly f t u => Sys2Proof.Machine.execPilotOnly f t u s
  | .selfTestDone p fail => Sys2Proof.Machine.execSelfTestDone p fail s
  | .recalDone p data => Sys2Proof.Machine.execRecalDone p data s
  | .recalDequeue p => Sys2Proof.Machine.execRecalDequeue p s
  | .valueJob t => Sys2Proof.Machine.execValueJob t s
  | .closeJob t => Sys2Proof.Machine.execCloseJob t s
  | .kEnd t => Sys2Proof.Machine.execKEnd t s
  | .kMov t => Sys2Proof.Machine.execKMov t s
  | .kAdd t => Sys2Proof.Machine.execKAdd t s
  | .kSub t => Sys2Proof.Machine.execKSub t s
  | .kMul t => Sys2Proof.Machine.execKMul t s
  | .kFma t => Sys2Proof.Machine.execKFma t s
  | .kDiv t => Sys2Proof.Machine.execKDiv t s
  | .kSqrt t => Sys2Proof.Machine.execKSqrt t s
  | .kMin t => Sys2Proof.Machine.execKMin t s
  | .kMax t => Sys2Proof.Machine.execKMax t s
  | .kAbs t => Sys2Proof.Machine.execKAbs t s
  | .kKsum t => Sys2Proof.Machine.execKKsum t s
  | .kChg t => Sys2Proof.Machine.execKChg t s
  | .kWelf t => Sys2Proof.Machine.execKWelf t s
  | .kVarf t => Sys2Proof.Machine.execKVarf t s
  | .kLinr t => Sys2Proof.Machine.execKLinr t s
  | .kLinf t => Sys2Proof.Machine.execKLinf t s
  | .kHist t => Sys2Proof.Machine.execKHist t s
  | .kGcoef t => Sys2Proof.Machine.execKGcoef t s
  | .kGrtz t => Sys2Proof.Machine.execKGrtz t s
  | .kGfin t => Sys2Proof.Machine.execKGfin t s
  | .kSkf t => Sys2Proof.Machine.execKSkf t s
  | .kSknf t => Sys2Proof.Machine.execKSknf t s
  | .kSklt t => Sys2Proof.Machine.execKSklt t s
  | .kLim t => Sys2Proof.Machine.execKLim t s
  | .kVset t => Sys2Proof.Machine.execKVset t s
  | .kBinv t => Sys2Proof.Machine.execKBinv t s
  | .kSts t => Sys2Proof.Machine.execKSts t s
  | .kLdss t => Sys2Proof.Machine.execKLdss t s
  | .kEmit t => Sys2Proof.Machine.execKEmit t s
  | .kEvt t => Sys2Proof.Machine.execKEvt t s
  | .kHemit t => Sys2Proof.Machine.execKHemit t s
  | .countCheck => Sys2Proof.Machine.execCountCheck s
  | .rdcProdLoRead f p more => Sys2Proof.Machine.execRdcProdLoRead f p more s
  | .accFold => Sys2Proof.Machine.execAccFold s
  | .snap f d => Sys2Proof.Machine.execSnap f d s
  | .clr f d => Sys2Proof.Machine.execClr f d s
  | .siteSnapshot d => Sys2Proof.Machine.execSiteSnapshot d s
  | .siteJournalGo f d => Sys2Proof.Machine.execSiteJournalGo f d s
  | .sitePatternDrive d => Sys2Proof.Machine.execSitePatternDrive d s
  | .siteMake d => Sys2Proof.Machine.execSiteMake d s
  | .siteSettled d srdy => Sys2Proof.Machine.execSiteSettled d srdy s
  | .sitePortErr d => Sys2Proof.Machine.execSitePortErr d s
  | .restart f d k => Sys2Proof.Machine.execRestart f d k s
  | .clrCnt f => Sys2Proof.Machine.execClrCnt f s
  | .eventRoute d n => Sys2Proof.Machine.execEventRoute d n s
  | .packageEventRoute n => Sys2Proof.Machine.execPackageEventRoute n s
  | .systemEventRx port j issue hops w lin => Sys2Proof.Machine.execSystemEventRx port j issue hops w lin s
  | .systemEventDeliver j => Sys2Proof.Machine.execSystemEventDeliver j s
  | .class2CreditReturn n h => Sys2Proof.Machine.execClass2CreditReturn n h s
  | .evtFire f d v => Sys2Proof.Machine.execEvtFire f d v s
  | .evtFireSet f d k v => Sys2Proof.Machine.execEvtFireSet f d k v s
  | .evtSlvlWrite f d k v => Sys2Proof.Machine.execEvtSlvlWrite f d k v s
  | .evtPfire f v => Sys2Proof.Machine.execEvtPfire f v s
  | .evtSfire f v => Sys2Proof.Machine.execEvtSfire f v s
  | .evioInputEdge d k high => Sys2Proof.Machine.execEvioInputEdge d k high s
  | .evioPulseEnd d k => Sys2Proof.Machine.execEvioPulseEnd d k s
  | .evtCapLoRead f d m more => Sys2Proof.Machine.execEvtCapLoRead f d m more s
  | .recordDeliver => Sys2Proof.Machine.execRecordDeliver s
  | .spineRecordSend t => Sys2Proof.Machine.execSpineRecordSend t s
  | .ringWriteback r => Sys2Proof.Machine.execRingWriteback r s
  | .ringHeadWrite f r v => Sys2Proof.Machine.execRingHeadWrite f r v s
  | .ringEnable f r v => Sys2Proof.Machine.execRingEnable f r v s
  | .hostStall => Sys2Proof.Machine.execHostStall s
  | .hostStallEnd => Sys2Proof.Machine.execHostStallEnd s
  | .noticeSend p => Sys2Proof.Machine.execNoticeSend p s
  | .completionNotice d => Sys2Proof.Machine.execCompletionNotice d s
  | .pcieHotReset => Sys2Proof.Machine.execPcieHotReset s
  | .pcieLinkDown => Sys2Proof.Machine.execPcieLinkDown s
  | .d3hotEntry f => Sys2Proof.Machine.execD3hotEntry f s
  | .d3hotExit f => Sys2Proof.Machine.execD3hotExit f s
  | .spineCrc d => Sys2Proof.Machine.execSpineCrc d s
  | .spineRetrain d => Sys2Proof.Machine.execSpineRetrain d s
  | .spineDown d => Sys2Proof.Machine.execSpineDown d s
  | .spineRetry d => Sys2Proof.Machine.execSpineRetry d s
  | .spineUp d => Sys2Proof.Machine.execSpineUp d s
  | .regAccessTimeout f d read => Sys2Proof.Machine.execRegAccessTimeout f d read s
  | .ropeFrameRx port frame phase lastSent => Sys2Proof.Machine.execRopeFrameRx port frame phase lastSent s
  | .ropeNakRx port n => Sys2Proof.Machine.execRopeNakRx port n s
  | .ropeLinkDown port lanes => Sys2Proof.Machine.execRopeLinkDown port lanes s
  | .ropeRetrain port lanes => Sys2Proof.Machine.execRopeRetrain port lanes s
  | .ropeFaultSlotRx port pkg src sev live ts => Sys2Proof.Machine.execRopeFaultSlotRx port pkg src sev live ts s
  | .managementSlotRx port dest src num len data => Sys2Proof.Machine.execManagementSlotRx port dest src num len data s
  | .auditSlotRx port k occ owed => Sys2Proof.Machine.execAuditSlotRx port k occ owed s
  | .beaconRx port ts => Sys2Proof.Machine.execBeaconRx port ts s
  | .mbxSend f dest len => Sys2Proof.Machine.execMbxSend f dest len s
  | .mbxRxcRead f more => Sys2Proof.Machine.execMbxRxcRead f more s
  | .creditAudit lost => Sys2Proof.Machine.execCreditAudit lost s
  | .verify f target => Sys2Proof.Machine.execVerify f target s
  | .writeSlot f target slot => Sys2Proof.Machine.execWriteSlot f target slot s
  | .apply f target slot src at' => Sys2Proof.Machine.execApply f target slot src at' s
  | .setBoot f target slot => Sys2Proof.Machine.execSetBoot f target slot s
  | .eraseSlot f target slot => Sys2Proof.Machine.execEraseSlot f target slot s
  | .cancel f => Sys2Proof.Machine.execCancel f s
  | .imgReadDone ok => Sys2Proof.Machine.execImgReadDone ok s
  | .imgVerifyDone => Sys2Proof.Machine.execImgVerifyDone s
  | .imgTransferDone => Sys2Proof.Machine.execImgTransferDone s
  | .imgSwap => Sys2Proof.Machine.execImgSwap s
  | .idleTmo => Sys2Proof.Machine.execIdleTmo s
  | .imgDone => Sys2Proof.Machine.execImgDone s
  | .prog f slot => Sys2Proof.Machine.execProg f slot s
  | .revoke f slot => Sys2Proof.Machine.execRevoke f slot s
  | .minSeqWrite f target v => Sys2Proof.Machine.execMinSeqWrite f target v s
  | .boot => Sys2Proof.Machine.execBoot s
  | .nightlightSecond => Sys2Proof.Machine.execNightlightSecond s
  | .imgNlMinLoRead f p more => Sys2Proof.Machine.execImgNlMinLoRead f p more s
  | .sensorReading k raw => Sys2Proof.Machine.execSensorReading k raw s
  | .thermalEvaluation => Sys2Proof.Machine.execThermalEvaluation s
  | .graceExpiry t => Sys2Proof.Machine.execGraceExpiry t s
  | .enfStepAdd t => Sys2Proof.Machine.execEnfStepAdd t s
  | .enfStepRemove t => Sys2Proof.Machine.execEnfStepRemove t s
  | .governorUpdate => Sys2Proof.Machine.execGovernorUpdate s
  | .readmit f k => Sys2Proof.Machine.execReadmit f k s
  | .thermShutdown k => Sys2Proof.Machine.execThermShutdown k s
  | .tmpRestartWrite f k => Sys2Proof.Machine.execTmpRestartWrite f k s
  | .thermalRestart => Sys2Proof.Machine.execThermalRestart s
  | .supplyWarn r mv => Sys2Proof.Machine.execSupplyWarn r mv s
  | .supplyWarnClear r mv => Sys2Proof.Machine.execSupplyWarnClear r mv s
  | .supplyOv r mv => Sys2Proof.Machine.execSupplyOv r mv s
  | .supplyReset r mv => Sys2Proof.Machine.execSupplyReset r mv s
  | .thermalRecord => Sys2Proof.Machine.execThermalRecord s
  | .latched f n => Sys2Proof.Machine.execLatched f n s
  | .overdue n => Sys2Proof.Machine.execOverdue n s
  | .shadowEnd level inst => Sys2Proof.Machine.execShadowEnd level inst s
  | .severityWrite f n v => Sys2Proof.Machine.execSeverityWrite f n v s
  | .scrubRead d upset => Sys2Proof.Machine.execScrubRead d upset s
  | .scrubEnWrite f d v => Sys2Proof.Machine.execScrubEnWrite f d v s
  | .cfgCrcCheck upset => Sys2Proof.Machine.execCfgCrcCheck upset s
  | .cfgReload d b => Sys2Proof.Machine.execCfgReload d b s
  | .arm f v => Sys2Proof.Machine.execArm f v s
  | .por => Sys2Proof.Machine.execPor s
  | .perst => Sys2Proof.Machine.execPerst s
  | .pkgRst f key => Sys2Proof.Machine.execPkgRst f key s
  | .regionReset f t => Sys2Proof.Machine.execRegionReset f t s
  | .restartClear t => Sys2Proof.Machine.execRestartClear t s
  | .restartReloaded t shadowOk => Sys2Proof.Machine.execRestartReloaded t shadowOk s
  | .restartResume t => Sys2Proof.Machine.execRestartResume t s
  | .journalRecord ok eraseOk cut => Sys2Proof.Machine.execJournalRecord ok eraseOk cut s
  | .lifeJournal => Sys2Proof.Machine.execLifeJournal s
  | .journal f => Sys2Proof.Machine.execJournal f s
  | .operatingSecond => Sys2Proof.Machine.execOperatingSecond s
  | .registerWrite f a be vs => Sys2Proof.Machine.execRegisterWrite f a be vs s
  | .bar2Write f a bs => Sys2Proof.Machine.execBar2Write f a bs s
  | .fence f g => Sys2Proof.Machine.execFence f g s
  | .fenceLift f g => Sys2Proof.Machine.execFenceLift f g s
  | .intEnWrite f g v => Sys2Proof.Machine.execIntEnWrite f g v s
  | .intStatClear f g v met => Sys2Proof.Machine.execIntStatClear f g v met s
  | .msixUnmask f v => Sys2Proof.Machine.execMsixUnmask f v s
  | .serialLoRead f more => Sys2Proof.Machine.execSerialLoRead f more s
  | .prfSeqtLoRead f t more => Sys2Proof.Machine.execPrfSeqtLoRead f t more s
  | .meaULastvLoRead f p more => Sys2Proof.Machine.execMeaULastvLoRead f p more s
  | .meaULastiLoRead f p more => Sys2Proof.Machine.execMeaULastiLoRead f p more s
  | .fltFirstTsLoRead f n more => Sys2Proof.Machine.execFltFirstTsLoRead f n more s
  | .lifeOpsLoRead f more => Sys2Proof.Machine.execLifeOpsLoRead f more s
  | .lifeArrLoRead f more => Sys2Proof.Machine.execLifeArrLoRead f more s
  | .lifeLastStopTsLoRead f more => Sys2Proof.Machine.execLifeLastStopTsLoRead f more s
  | .smbHubId => Sys2Proof.Machine.execSmbHubId s
  | .smbSerialLo => Sys2Proof.Machine.execSmbSerialLo s
  | .smbSerialHi => Sys2Proof.Machine.execSmbSerialHi s
  | .smbBootStat => Sys2Proof.Machine.execSmbBootStat s
  | .smbMaxTemp => Sys2Proof.Machine.execSmbMaxTemp s
  | .smbTmpShut => Sys2Proof.Machine.execSmbTmpShut s
  | .smbPwrStat => Sys2Proof.Machine.execSmbPwrStat s
  | .smbSevPend => Sys2Proof.Machine.execSmbSevPend s
  | .smbLifeCond => Sys2Proof.Machine.execSmbLifeCond s
  | .smbImgStat => Sys2Proof.Machine.execSmbImgStat s
  | .smbOtherCommand code => Sys2Proof.Machine.execSmbOtherCommand code s
  | .smbWrite code data => Sys2Proof.Machine.execSmbWrite code data s
  | .jtagBypass code => Sys2Proof.Machine.execJtagBypass code s
  | .jtagSamplePreload cells => Sys2Proof.Machine.execJtagSamplePreload cells s
  | .jtagExtest => Sys2Proof.Machine.execJtagExtest s
  | .jtagClamp => Sys2Proof.Machine.execJtagClamp s
  | .jtagHighz => Sys2Proof.Machine.execJtagHighz s
  | .pcieLinkUp => Sys2Proof.Machine.execPcieLinkUp s
  | .loaderOperationEnd ok => Sys2Proof.Machine.execLoaderOperationEnd ok s
  | .lifeCondRecentEnd c => Sys2Proof.Machine.execLifeCondRecentEnd c s
  | .ringMsixHoldoffEnd r => Sys2Proof.Machine.execRingMsixHoldoffEnd r s

end Sys2Proof.Machine
end

