-- ==== Sys2Proof/Safety.lean ====
section
/-! DEFINITION. What statements about the package are said in terms of: the canonical forms of its collections, the invariant of
every step, a host access that is carried out, and the frames of updates. -/

namespace Sys2Proof.Machine

/-! ### Canonical forms -/

/-- A collection in its canonical form: keys strictly rising, and no entry equal to what an unlisted key reads as. -/
abbrev Canon {α : Type} [DecidableEq α] (dflt : Nat → α) (m : List (Nat × α)) : Prop :=
  (m.map Prod.fst).Pairwise (· < ·) ∧ ∀ x ∈ m, x.2 ≠ dflt x.1

/-- The canonical form of the memory: addresses strictly rising, no byte equal to the one that an unlisted address reads as. -/
abbrev Memory.wf (m : List Host.Cell) : Prop := Canon (fun _ => memDefault) m

/-- The invariant of every step: memory and registers stand in their canonical forms, so that equal contents are equal data. -/
abbrev State.Inv (s : State) : Prop := Memory.wf s.mem ∧ Canon resetOf s.regs

/-! ### Host accesses that are carried out -/

/-- No transfer on die `d`'s spine has failed its check last, and no inversion is armed on it: a transfer changes nothing (R350, R431). -/
def State.spineQuiet (s : State) (d : Nat) : Bool :=
  (s.die d).spineFails = 0 &&
    (match s.hub.inject with
      | none => true
      | some j => !(j.checker = 3 && j.die = d))

/-- The die of register `a` can be reached: it is the hub's, or the die's spine is up with no inversion armed on it (R30, R350). -/
def State.reachable (s : State) (a : Nat) : Bool :=
  match dieOf a with
  | none => true
  | some d => !s.spineDown d && !s.spineOut d && s.spineQuiet d

/-- The region of register `a` is not in nightlight mode, MEA_REQ apart (R385). -/
def State.awake (s : State) (a : Nat) : Bool :=
  match blockRegion a with
  | none => true
  | some t => !s.nightlight t || a = MEA_REQ t

/-- A write of `v` to register `a` by function `f` is carried out: it is not refused (R460), it reaches its die (R350, R431), and its
region takes writes (R385). -/
abbrev State.Carried (s : State) (f a : Nat) (v : Word) : Prop :=
  s.accepts = true ∧ s.refusal f a true v = none ∧ s.reachable a = true ∧ s.awake a = true

/-- A read of the register at `a` by function `f` is carried out. -/
abbrev State.Readable (s : State) (f a : Nat) : Prop := s.accepts = true ∧ s.refusal f a false 0#32 = none ∧ s.reachable a = true

/-! ### Commands that are one host write -/

/-- The function, the register and the value of a command that is one host write of one register. -/
def State.hostTarget (s : State) : Instr → Option (Fin 8 × Nat × Word)
  | .calSet f => some (f, HUB_CAL_CTRL, 1#32)
  | .leapCommit f => some (f, HUB_CAL_CTRL, 2#32)
  | .join f => some (f, HUB_ALN_STAT, 0x80#32)
  | .outReqSet f p => some (f, CH_CTRL p, setFld (s.rd (CH_CTRL p)) CH_CTRL.OUT_REQ 1)
  | .outReqClear f p => some (f, CH_CTRL p, setFld (s.rd (CH_CTRL p)) CH_CTRL.OUT_REQ 0)
  | .chModeWrite f p v => some (f, CH_MODE p, v)
  | .setptWrite f p v => some (f, CH_SETPT p, v)
  | .cmplWrite f p v => some (f, CH_CMPL p, v)
  | .ncoApply f p => some (f, CH_NCO_CTRL p, setFld (s.rd (CH_NCO_CTRL p)) CH_NCO_CTRL.APPLY 1)
  | .ncoAmpWrite f p v => some (f, CH_NCO_AMP p, v)
  | .rateWrite f t v => some (f, ENG_CTRL t, v)
  | .coefWrite f p c v => some (f, coefReg p c, v)
  | .coefRelease f p => some (f, ENG_UCTRL p, setFld (s.rd (ENG_UCTRL p)) ENG_UCTRL.HOLD_COEF 0)
  | .rcClr f p => some (f, ENG_UCTRL p, setFld (s.rd (ENG_UCTRL p)) ENG_UCTRL.RC_CLR 1)
  | .autoClear f p => some (f, ENG_UCTRL p, setFld (s.rd (ENG_UCTRL p)) ENG_UCTRL.AUTO 0)
  | .autoSet f p => some (f, ENG_UCTRL p, setFld (s.rd (ENG_UCTRL p)) ENG_UCTRL.AUTO 1)
  | .engManualWrite f p v => some (f, ENG_MANUAL p, v)
  | .plLoadWrite f p c v => some (f, if c then ENG_PL_C p else ENG_PL_R p, v)
  | .profileLimitWrite f p l v => some (f, limReg p l, v)
  | .wfStart f t => some (f, PRF_CTRL t, setFld (s.rd (PRF_CTRL t)) PRF_CTRL.START 1)
  | .wfJumpReq f t => some (f, PRF_WF_JUMP t, setFld (s.rd (PRF_WF_JUMP t)) PRF_WF_JUMP.REQ 1)
  | .wfAbort f t => some (f, PRF_CTRL t, setFld (s.rd (PRF_CTRL t)) PRF_CTRL.ABORT 1)
  | .strPost f t v => some (f, PRF_STR_POST t, v)
  | .seqStart f t => some (f, SEQ_CTRL t, 1#32)
  | .seqStopReq f t => some (f, SEQ_CTRL t, 4#32)
  | .seqAbort f t => some (f, SEQ_CTRL t, 8#32)
  | .cont f t => some (f, SEQ_CTRL t, 16#32)
  | .filtWrite f p v => some (f, MEA_U_FILT p, v)
  | .bankCommit f p => some (f, MEA_U_BANK p, 2#32)
  | .restore f k => some (f, MEA_PIL_CTRL (k / 4) (k % 4), 1#32)
  | .selfTest f t u => some (f, MEA_REQ t, reqWord 0 u)
  | .recalibration f t u => some (f, MEA_REQ t, reqWord 1 u)
  | .pilotOnly f t u => some (f, MEA_REQ t, reqWord 2 u)
  | .snap f d => some (f, SITE_ACC_CTRL d, 1#32)
  | .clr f d => some (f, SITE_ACC_CTRL d, 2#32)
  | .siteJournalGo f d => some (f, SITE_JCTRL d, 1#32)
  | .restart f d k => some (f, SITE_WS_CTRL d k, 1#32)
  | .clrCnt f => some (f, LIFE_RW_CTRL, 1#32)
  | .evtFire f d v => some (f, EVT_FIRE d, v)
  | .evtFireSet f d k v => some (f, EVT_FIRE_SET d k, v)
  | .evtSlvlWrite f d k v => some (f, EVT_SLVL d k, v)
  | .evtPfire f v => some (f, EVT_PFIRE, v)
  | .evtSfire f v => some (f, EVT_SFIRE, v)
  | .ringHeadWrite f r v => some (f, DMA_RING_HEAD r, v)
  | .ringEnable f r v => some (f, DMA_RING_CTRL r, v ||| 1#32)
  | .prog f slot => some (f, IMG_KEY_CTRL, w32 (256 + slot))
  | .revoke f slot => some (f, IMG_KEY_CTRL, w32 (512 + slot))
  | .minSeqWrite f target v => some (f, IMG_MIN_SEQ target, v)
  | .readmit f k => some (f, TMP_CTRL, w32 (256 + k))
  | .tmpRestartWrite f k => some (f, TMP_CTRL, w32 (128 + k))
  | .latched f n => some (f, FLT_SRC_STAT n, 2#32)
  | .severityWrite f n v => some (f, FLT_SRC_CFG n, v)
  | .scrubEnWrite f d v => some (f, DIE_ECC_CTRL d, v)
  | .arm f v => some (f, FLT_INJ_CTRL, v)
  | .pkgRst f key => some (f, HUB_RST_CTRL, w32 (1 + 2 ^ 24 * key.toNat))
  | .regionReset f t => some (f, RGN_CTRL t, 1#32)
  | .journal f => some (f, LIFE_CTRL, 1#32)
  | .fence f g => some (f, HUB_FN_CTRL g, 1#32)
  | .fenceLift f g => some (f, HUB_FN_CTRL g, 0#32)
  | .intEnWrite f g v => some (f, HUB_INT_EN g, v)
  | .intStatClear f g v _ => some (f, HUB_INT_STAT g, v)
  | .msixUnmask f v => some (f, 0xF0000 + 16 * v + 12, 0#32)
  | _ => none

/-! ### The sequencer at an instruction -/

/-- The word that building of region `t` has reached after its look-ahead (R194, R196). -/
def State.seqWord (s : State) (t : Nat) : Nat :=
  ((s.seqLook t).memGet ((s.seqLook t).progAddr t ((s.seqLook t).buildProg t).pc) 4).2.1

/-- Its operand bits. -/
def State.seqArg (s : State) (t : Nat) : Nat := s.seqWord t % 2 ^ 26

/-- The state with a foothold in construction whose read set holds that word (R198). -/
def State.seqOpen (s : State) (t : Nat) : State :=
  let u := s.seqLook t
  let a := u.progAddr t (u.buildProg t).pc
  ((u.memGet a 4).1.openFoot t).readSet t a 4

/-- The state in which the instruction takes effect: its foothold counts it and stands at the next word. -/
def State.seqAt (s : State) (t : Nat) : State :=
  (s.seqOpen t).modLast t (fun f =>
    { f with wait := 0, qp := false, host := false, count := f.count + 1
             prog := { f.prog with pc := (((s.seqLook t).buildProg t).pc + 1) % 2 ^ 14 } })

/-- The foothold in construction there. -/
def State.seqFoot (s : State) (t : Nat) : Foothold := ((s.seqAt t).lastFoot t).getD { prog := s.buildProg t }

/-- Building of region `t` can execute an instruction of opcode `op` now: it runs, the word is there, and nothing makes it wait
(R196, R207). -/
abbrev State.SeqReady (s : State) (t op : Nat) : Prop :=
  (s.seqLook t).canBuild t = true ∧ s.seqWord t / 2 ^ 26 = op ∧ (s.seqOpen t).seqWait t (s.seqWord t) = 0

/-- Building from the state `s`: the state `u` with `f` as the foothold in construction, squashed where what it has read since meets a
host write of the same PCLK cycle (R198, R211), after the look-ahead to its next word and with the flow's status. -/
def State.seqGo (s u : State) (t : Nat) (f : Foothold) : State :=
  (((s.seqLook t).meetHost (u.modLast t (fun _ => f)) t).seqLook t).refreshSeq t

/-! ### The reducer at an instruction -/

/-- The section `r` of region `t` executes, nothing holds the reducer, and its next instruction is the legal word `w` of opcode `op`
(R254, R263, R349, R398). -/
abbrev State.KReady (s : State) (t op : Nat) (r : KRun) (w : Nat) : Prop :=
  (s.red t).run = some r ∧ s.kHeld t = false ∧ (s.kFetch t r.kern r.pc).2 = .ok w ∧ kOp w = op

/-- The reading of the words of its context that the instruction `w` of section `r` names, after its `n` cycles: the state it leaves,
and whether one was uncorrectable (R254, R257, R263). -/
abbrev State.kLoad (s : State) (t : Nat) (r : KRun) (w n : Nat) : State × Bool :=
  (s.kCycles t n).ctxLoad t r.key (kReads r.kern.bins w)

/-! ### Resets -/

/-- The record `r` waits with context `i` of die `d`. -/
def siteRec (d i : Nat) : JRec → Bool
  | .site e j _ _ => e = d && j = i
  | _ => false

/-- The bytes that are left to write of the contents whose journal records are written next (R437, R438). -/
def State.jLeft (s : State) : List (BitVec 8) := (s.nvm.batch.flatMap JRec.payload).drop s.nvm.part

/-- The log of area `a` where that piece is written: in its next sector where it does not fit the present one (R437). -/
def State.logFor (s : State) (a : Nat) : NvmArea :=
  if (s.area a).fits (min maxPayload s.jLeft.length) then s.area a else (s.area a).turn a

/-- What a package reset of the state `s` leaves (R43, R52, R432, R433, R436): `kept` gives the bits of each register that it keeps, `l` the
registers that the command itself writes. -/
def State.AfterReset (s t : State) (cause : Nat) (rail : Option Nat) (kept : Nat → Word) (l : List Nat) : Prop :=
  t.now = 0 ∧ t.hub.supplyRst = rail ∧ t.rd FLT_RESET_CAUSE = w32 cause ∧ t.pending = s.pending ∧
    (∀ r : Fin 16, t.region r = {}) ∧
    (∀ p : Fin 256, (t.unit p).eng = {} ∧ (t.unit p).gen = {} ∧ (t.unit p).safe = .none) ∧
    t.nvm.slots = s.nvm.slots ∧ t.nvm.keys = s.nvm.keys ∧ t.nvm.settings = s.nvm.settings ∧ t.nvm.kaFit = s.nvm.kaFit ∧
    t.hub.clk.kaFit = s.nvm.kaFit.1 ∧ t.hub.clk.kaSecs = s.nvm.kaFit.2 ∧ t.hub.clk.calSec = s.nvm.cal.1 ∧
    t.is HUB_KA_STAT HUB_KA_STAT.LEARNED = decide (3600 ≤ s.nvm.kaFit.2) ∧
    ((s.nvm.settings.map Prod.fst).Nodup →
      ∀ x ∈ s.nvm.settings, x.1 ∉ FLT_RESET_CAUSE :: HUB_KA_STAT :: l → t.rd x.1 = x.2) ∧
    (∀ a : Nat, a ∉ FLT_RESET_CAUSE :: HUB_KA_STAT :: l ++ s.nvm.settings.map Prod.fst →
      (kept a = 0#32 → t.rd a = resetOf a) ∧ (kept a = 0xFFFFFFFF#32 → t.rd a = s.rd a))

/-! ### Completion -/

/-- The command `c` runs in the state `s`: it answers a next state, of which `P` holds. -/
def Completes (c : Instr) (s : State) (P : State → Prop) : Prop := ∃ t, exec c s = .next t ∧ P t

/-! ### Frames -/

/-- Every register but those of `as` reads as before. -/
def SameRegs (as : List Nat) (s t : State) : Prop := ∀ a, a ∉ as → t.rd a = s.rd a

/-- Every byte of memory reads as before. -/
def SameMem (s t : State) : Prop := ∀ a, t.byte a = s.byte a

/-- Whatever no register and no byte shows is unchanged: time, shadows and MSI-X tables, codeword errors, the image's values,
units, clusters, regions, dies, hub, NVM, what left the package, the queue. What the host wrote and what
hardware set in the present PCLK cycle (R9) may grow. -/
def SameRest (s t : State) : Prop :=
  t = { s with regs := t.regs, mem := t.mem, cycWrote := t.cycWrote, cycSet := t.cycSet, cycMem := t.cycMem }

/-- The same at the later instant `t.now`: the snapshots that the levels of the event fabric reach back to (R321), and what R9 holds of
the cycle, follow the time. -/
def SameRestAt (s t : State) : Prop :=
  t = { s with now := t.now, past := t.past, cycRegs := t.cycRegs, regs := t.regs, mem := t.mem, cycWrote := t.cycWrote
               cycSet := t.cycSet, cycMem := t.cycMem }

/-- Only the registers of `as` change: no other register, no byte of memory, nothing else. -/
def OnlyRegs (as : List Nat) (s t : State) : Prop := SameRegs as s t ∧ SameMem s t ∧ SameRest s t

end Sys2Proof.Machine
end

