-- ==== Sys2Proof/Certificates/Slice0/Obligations.lean ====
section
/-! DEFINITION. The statements for the provers, family by family of the commands. `Completes c s P` (Safety.lean) says that the
command answers a next state of which `P` holds. -/

open Sys2Proof Sys2Proof.Machine

/-- O1. The state after reset meets the invariant: memory and registers stand in their canonical forms. Derived from
15_register_maps.md, 14_faults_availability_life.md. State.reset lists registers and bytes with strictly rising keys
and none equal to what an unlisted key reads as. The canonical form is the model's own (log entry 10 for the byte 0
that unwritten memory reads as). -/
def Obligations.ResetMeetsTheInvariant : Prop :=
  State.reset.Inv

/-- O2. Every step keeps the invariant: memory and registers in their canonical forms. Derived from 15_register_maps.md,
14_faults_availability_life.md, 00_scope.md. For all states s and s', whatever command stands in front of the queue:
if memory and registers of s have strictly rising keys and list nothing equal to what an unlisted key reads as, and
step s answers s', then the same holds of s'. Two states with equal contents of memory and registers are thus equal
data after any step. -/
def Obligations.StepKeepsTheInvariant : Prop :=
  ∀ s s' : State, s.Inv → step s = .next s' → s'.Inv

/-- O3. A refused host write of any command changes nothing but the log of the refusal and the REFUSED cause. Derived from
15_register_maps.md. For every command that is one host write (hostTarget names its function, register and value) and
every state that takes accesses and refuses that write with reason r: the command answers the next state whose log of
the function counts one more refusal modulo 2^32, with HUB_SEC_LAST valid for a write with REASON r and HUB_SEC_ADDR
the register's offset; every other register but HUB_INT_STAT and HUB_INT_CNT of the function and the status register
that shows FIRE_REF reads as before, and so does every byte of memory; units, clusters, regions, dies, NVM, the
shadows and the time are unchanged. R460 and R461; the status bit FIRE_REF is R326 and R338. -/
def Obligations.RefusedWritesChangeNothingButTheLog : Prop :=
  ∀ (c : Instr) (s : State) (f : Fin 8) (a : Nat) (v : Word) (r : Nat), s.hostTarget c = some (f, a, v) →
    s.accepts = true → s.refusal f a true v = some r → Completes c s (fun t =>
      t.rdN (HUB_SEC_CNT f) = (s.rdN (HUB_SEC_CNT f) + 1) % 2 ^ 32 ∧ t.rd (HUB_SEC_LAST f) = w32 (0x80000010 + r) ∧
      t.rdN (HUB_SEC_ADDR f) = a / 4 * 4 % 2 ^ 28 ∧ t.bit (HUB_INT_STAT f) causeRefused = true ∧
      SameRegs ([HUB_SEC_CNT f, HUB_SEC_LAST f, HUB_SEC_ADDR f, HUB_INT_STAT f, HUB_INT_CNT f] ++ (fireRefReg a).toList) s t ∧ SameMem s t ∧
      t.units = s.units ∧ t.clusters = s.clusters ∧ t.regions = s.regions ∧ t.dies = s.dies ∧ t.nvm = s.nvm ∧
      (∀ g b, b < 0xF0000 → t.shadow g b = s.shadow g b) ∧ t.now = s.now)

/-- O4. A host write that is carried out acts on the state after the squash of the footholds that read its register.
Derived from 15_register_maps.md, 06_step_sequencer_and_foothold.md. For every function f, register a, value v and
every effect k of a host write: if the package takes accesses, the write is not refused, reaches its die, and its
region takes writes, the write is k of the state after the squash of R198, in which the write stands among those of
its PCLK cycle (R9). A register of the hub, of an event, site, thermal or memory block squashes nothing. While the
package is held in reset (R408, R465) the write is lost. -/
def Obligations.CarriedWritesTakeEffect : Prop :=
  ∀ (s : State) (f a : Nat) (v : Word) (k : State → State), (s.Carried f a v → s.hostWrite f a v k = k ((s.wroteNow a v).regSquash a)) ∧
    (s.Carried f a v → (∀ t o, blockOf a ≠ some (.seq, t, o)) → (∀ p, blockOf a ≠ some (.unit, p, 4)) → s.hostWrite f a v k = k (s.wroteNow a v)) ∧ (s.accepts = false → s.hostWrite f a v k = s)

/-- O5. A write of 1 to LATCHED acknowledges a source, and who may write it. Formalises R421. For every source n. LATCHED,
carried out with no occurrence of the source in the PCLK cycle: with LIVE 0 it clears LATCHED, COUNT, the first cause
and OVERDUE; with LIVE 1 the source latches again with COUNT 1 and the present timestamp as its first timestamp. In
the cycle of an occurrence the source latches again with COUNT 1 and the timestamp of the occurrence. Nothing but the
registers of the source and what the hub holds of its last occurrence changes, so that no reaction runs. A condition
that ends clears LIVE and leaves LATCHED, COUNT and the first cause. PF0 is refused for no source, and a function that
is not fenced and owns a region is refused for no source whose first cause names the region, a cluster or a unit of
it. -/
def Obligations.AcknowledgingASource : Prop :=
  ∀ (s : State) (n : Fin 545),
    (∀ f : Fin 8, s.Carried f (FLT_SRC_STAT n) 2#32 →
      (s.inCycle (s.occ n).at' = false → s.is (FLT_SRC_STAT n) FLT_SRC_STAT.LIVE = false → Completes (.latched f n) s (fun t =>
        t.is (FLT_SRC_STAT n) FLT_SRC_STAT.LATCHED = false ∧ t.rdF (FLT_SRC_STAT n) FLT_SRC_STAT.COUNT = 0 ∧
        t.is (FLT_SRC_STAT n) FLT_SRC_STAT.OVERDUE = false ∧ t.rd (FLT_FIRST_CAUSE n) = 0#32 ∧ t.rd64 (FLT_FIRST_TS_LO n) = 0 ∧
        OnlyRegs [FLT_SRC_STAT n, FLT_FIRST_CAUSE n, FLT_FIRST_TS_LO n, FLT_FIRST_TS_LO n + 4] s t)) ∧
      (s.inCycle (s.occ n).at' = false → s.is (FLT_SRC_STAT n) FLT_SRC_STAT.LIVE = true → Completes (.latched f n) s (fun t =>
        t.is (FLT_SRC_STAT n) FLT_SRC_STAT.LIVE = true ∧ t.is (FLT_SRC_STAT n) FLT_SRC_STAT.LATCHED = true ∧
        t.rdF (FLT_SRC_STAT n) FLT_SRC_STAT.COUNT = 1 ∧ t.is (FLT_SRC_STAT n) FLT_SRC_STAT.OVERDUE = false ∧
        t.rd64 (FLT_FIRST_TS_LO n) = s.now % 2 ^ 64 ∧ t.hub = { s.hub with occ := t.hub.occ } ∧
        OnlyRegs [FLT_SRC_STAT n, FLT_FIRST_CAUSE n, FLT_FIRST_TS_LO n, FLT_FIRST_TS_LO n + 4] { s with hub := t.hub } t)) ∧
      (s.inCycle (s.occ n).at' = true → s.is (FLT_SRC_STAT n) FLT_SRC_STAT.LATCHED = true → Completes (.latched f n) s (fun t =>
        t.is (FLT_SRC_STAT n) FLT_SRC_STAT.LATCHED = true ∧ t.rdF (FLT_SRC_STAT n) FLT_SRC_STAT.COUNT = 1 ∧
        t.is (FLT_SRC_STAT n) FLT_SRC_STAT.OVERDUE = false ∧ t.rd64 (FLT_FIRST_TS_LO n) = (s.occ n).at' % 2 ^ 64 ∧
        t.rd (FLT_FIRST_CAUSE n) = s.rd (FLT_LAST_CAUSE n) ∧ t.hub = { s.hub with occ := t.hub.occ } ∧
        OnlyRegs [FLT_SRC_STAT n, FLT_FIRST_CAUSE n, FLT_FIRST_TS_LO n, FLT_FIRST_TS_LO n + 4] { s with hub := t.hub } t))) ∧
    (∀ (k : FaultKind) (d : Nat), (s.unlive k d).is (FLT_SRC_STAT (srcNum k d)) FLT_SRC_STAT.LIVE = false ∧
      (s.unlive k d).is (FLT_SRC_STAT (srcNum k d)) FLT_SRC_STAT.LATCHED =
        s.is (FLT_SRC_STAT (srcNum k d)) FLT_SRC_STAT.LATCHED ∧
      (s.unlive k d).rdF (FLT_SRC_STAT (srcNum k d)) FLT_SRC_STAT.COUNT =
        s.rdF (FLT_SRC_STAT (srcNum k d)) FLT_SRC_STAT.COUNT ∧ OnlyRegs [FLT_SRC_STAT (srcNum k d)] s (s.unlive k d)) ∧
    s.refusal 0 (FLT_SRC_STAT n) true 2#32 = none ∧
    (∀ (f : Fin 8) (t : Fin 16), s.ownerOf t = f → s.fenced f = false →
      (s.rdN (FLT_FIRST_CAUSE n) / 256 % 8 = 2 ∧ s.rdN (FLT_FIRST_CAUSE n) % 16 = t ∨
        s.rdN (FLT_FIRST_CAUSE n) / 256 % 8 = 1 ∧ s.rdN (FLT_FIRST_CAUSE n) % 256 / 4 = t ∨
        s.rdN (FLT_FIRST_CAUSE n) / 256 % 8 = 0 ∧ s.rdN (FLT_FIRST_CAUSE n) % 256 / 16 = t) →
      s.refusal f (FLT_SRC_STAT n) true 2#32 = none)

/-- O6. A source of severity 1 or higher that is not acknowledged within 1 s becomes overdue and raises AVAIL_COND.
Formalises R422. For every source n but AVAIL_COND that is latched, that had severity 1 or higher when it latched, and
that is not overdue: OVERDUE advances to 1 s after the latching, sets OVERDUE of the source and raises AVAIL_COND with
DETAIL n after the records of that breach. For AVAIL_COND itself the command changes nothing. -/
def Obligations.OverdueSources : Prop :=
  ∀ s : State,
    (∀ n : Fin 545, n.val ≠ srcNum .availCond 0 → s.is (FLT_SRC_STAT n) FLT_SRC_STAT.LATCHED = true →
      s.is (FLT_SRC_STAT n) FLT_SRC_STAT.OVERDUE = false → 1 ≤ (s.occ n).sev →
      ∃ u : State, u.now = max s.now (s.rd64 (FLT_FIRST_TS_LO n) + 800000000) ∧
        u.is (FLT_SRC_STAT n) FLT_SRC_STAT.OVERDUE = true ∧ OnlyRegs [FLT_SRC_STAT n] (s.advance (s.rd64 (FLT_FIRST_TS_LO n) + 800000000)) u ∧
        exec (.overdue n) s = .next (((u.breach 5).setCause 0 causeOverdue).raisePkg .availCond n)) ∧
    (∀ n : Fin 545, n.val = srcNum .availCond 0 → exec (.overdue n) s = .next s)

/-- O7. A read of HUB_TS_LO latches the upper half of the same instant for the next read of HUB_TS_HI. Formalises R47. For
every function f that is not fenced, while the package takes accesses: TS_LO_READ with one more DWORD answers bits 31
to 0 of the timestamp and then bits 63 to 32 of the same instant. TS_LO_READ alone answers bits 31 to 0, and at every
later state in which the shadow still stands a read of HUB_TS_HI by f returns bits 63 to 32 of the instant of the
first read, whatever the timestamp is then; without a read of HUB_TS_LO since reset it returns 0. -/
def Obligations.TimestampRead : Prop :=
  ∀ (s : State) (f : Fin 8), s.accepts = true → s.fenced f = false →
    Completes (.tsLoRead f (1, [])) s (fun t =>
      t.out.reads = (f.val, w32 (s.now / 2 ^ 32)) :: (f.val, w32 (s.now % 2 ^ 32)) :: s.out.reads ∧ SameRegs [] s t ∧ SameMem s t) ∧
    Completes (.tsLoRead f (0, [])) s (fun t =>
      t.out.reads = (f.val, w32 (s.now % 2 ^ 32)) :: s.out.reads ∧ t.now = s.now ∧ SameRegs [] s t ∧ SameMem s t ∧
      ∀ u : State, u.perFn = t.perFn → u.view f HUB_TS_HI = w32 (s.now / 2 ^ 32)) ∧
    (s.shadow f HUB_TS_HI = 0#32 → s.view f HUB_TS_HI = 0#32) ∧ State.reset.shadow f HUB_TS_HI = 0#32

/-- O8. A read of HUB_CAL_FRAC latches the seconds of the same instant. Formalises R50. For every function f that is not
fenced, while the package takes accesses: CAL_FRAC_READ with two more DWORDs answers the fraction, the low 32 bits and
the high 16 bits of the seconds of one instant. Alone it answers the fraction, and while the shadows stand, reads of
HUB_CAL_SEC_LO and HUB_CAL_SEC_HI by f return the seconds of that instant. -/
def Obligations.CalendarRead : Prop :=
  ∀ (s : State) (f : Fin 8), s.accepts = true → s.fenced f = false →
    Completes (.calFracRead f 2) s (fun t =>
      t.out.reads = (f.val, w32 (s.calendar.1 / 2 ^ 32 % 2 ^ 16)) :: (f.val, w32 (s.calendar.1 % 2 ^ 32)) ::
        (f.val, w32 (calFrac s.calendar.2)) :: s.out.reads ∧ SameRegs [] s t ∧ SameMem s t) ∧
    Completes (.calFracRead f 0) s (fun t =>
      t.out.reads = (f.val, w32 (calFrac s.calendar.2)) :: s.out.reads ∧ SameRegs [] s t ∧ SameMem s t ∧
      ∀ u : State, u.perFn = t.perFn → u.view f HUB_CAL_SEC_LO = w32 (s.calendar.1 % 2 ^ 32) ∧
        u.view f HUB_CAL_SEC_HI = w32 (s.calendar.1 / 2 ^ 32 % 2 ^ 16))

/-- O9. A step with a command at the front of the queue is exec of that command on the state with the rest of the queue.
Derived from 15_register_maps.md, 00_scope.md. For every command c, every list q and every state s whose queue is c
followed by q, step s equals exec c on s with the queue q. The queue is the model's own form of how commands reach the
package (log entry 1). -/
def Obligations.StepRunsTheFrontCommand : Prop :=
  ∀ (c : Instr) (q : List Instr) (s : State), s.pending = c :: q → step s = exec c { s with pending := q }

/-- O10. A step on an empty queue lets one FCLK tick pass and changes nothing else. Derived from
02_clocks_time_alignment.md. For every state with an empty queue, step answers the same state with its timestamp one
greater; what the model remembers of the present PCLK cycle (R9) stands within the cycle, and at the first tick of the
next one it starts anew from the registers as they are; the snapshots that the levels of the event fabric reach back
to (R321) take in the registers of the tick. That an empty queue lets a tick pass is the model's choice (log entry 2);
that the timestamp counts FCLK ticks is R46. -/
def Obligations.IdleStepLetsOneTickPass : Prop :=
  ∀ s : State, s.pending = [] → ∃ t : State, step s = .next t ∧ t.now = s.now + 1 ∧
    t = { s with now := s.now + 1, cycRegs := t.cycRegs, cycWrote := t.cycWrote, cycSet := t.cycSet, cycMem := t.cycMem, past := t.past } ∧
    t.past = keepPast (s.now + 1 - 7200) ((s.now, s.regs) :: s.past) ∧
    (s.now % 8 ≠ 7 → t.cycRegs = s.cycRegs ∧ t.cycWrote = s.cycWrote ∧ t.cycSet = s.cycSet ∧ t.cycMem = s.cycMem) ∧
    (s.now % 8 = 7 → t.cycRegs = s.regs ∧ t.cycWrote = [] ∧ t.cycSet = [] ∧ t.cycMem = [])

/-- O11. REFIN loss, its return, the relock and the holdover uncertainty. Derived from 02_clocks_time_alignment.md.
REFIN_LOST clears REFIN_OK and SLEWING, sets REF_SRC, REFIN_LOST and both HOLDOVER bits, and raises source REFIN_LOST
of the package, LIVE, on that state; REFIN_RETURN sets REFIN_OK and SLEWING and clears REF_SRC (the instant of REF_SRC
is log entry 24); on a package that is no member either is reported on DOWN (R70). PLL_RELOCK sets PLL_LOCK, clears
SLEWING and HUB_KA_UNC. KA_UNC_ACCUMULATE in holdover adds the bound of R43 to HUB_KA_UNC modulo 2^32 and counts a
second of holdover. KA_MEASURE with REFIN_OK counts one more measurement and, at 3,600 of them, sets LEARNED.
PLL_UNLOCK clears PLL_LOCK and raises PLL_UNLOCK on that state. -/
def Obligations.ReferenceLossAndReturn : Prop :=
  ∀ s : State,
    (∃ u : State, exec .refinLost s = .next (if (u.raisePkg .refinLost 0 true).isMember then u.raisePkg .refinLost 0 true else
        (u.raisePkg .refinLost 0 true).chainReport .refinLost true) ∧ u.is HUB_CLK_STAT HUB_CLK_STAT.REFIN_OK = false ∧
      u.is HUB_CLK_STAT HUB_CLK_STAT.SLEWING = false ∧ u.is HUB_CLK_STAT HUB_CLK_STAT.REF_SRC = true ∧
      u.is HUB_CLK_STAT HUB_CLK_STAT.REFIN_LOST = true ∧ u.is HUB_CAL_STAT HUB_CAL_STAT.HOLDOVER = true ∧
      u.is HUB_ALN_STAT HUB_ALN_STAT.HOLDOVER = true ∧ SameRegs [HUB_CLK_STAT, HUB_CAL_STAT, HUB_ALN_STAT] s u ∧ SameMem s u) ∧
    (∃ u : State, exec .refinReturn s = .next (if s.isMember then u else u.chainReport .refinLost false) ∧
      u.is HUB_CLK_STAT HUB_CLK_STAT.REFIN_OK = true ∧
      u.is HUB_CLK_STAT HUB_CLK_STAT.REF_SRC = false ∧ u.is HUB_CLK_STAT HUB_CLK_STAT.SLEWING = true ∧
      OnlyRegs [HUB_CLK_STAT, HUB_CAL_STAT, HUB_ALN_STAT, FLT_SRC_STAT (srcNum .refinLost 0)] s u) ∧
    Completes .pllRelock s (fun t => t.is HUB_CLK_STAT HUB_CLK_STAT.PLL_LOCK = true ∧
      t.is HUB_CLK_STAT HUB_CLK_STAT.SLEWING = false ∧ t.rd HUB_KA_UNC = 0#32 ∧ OnlyRegs [HUB_CLK_STAT, HUB_KA_UNC] s t) ∧
    (s.is HUB_CLK_STAT HUB_CLK_STAT.REF_SRC = true → Completes .kaUncAccumulate s (fun t =>
      t.rdN HUB_KA_UNC = (s.rdN HUB_KA_UNC + kaBound (s.is HUB_KA_STAT HUB_KA_STAT.LEARNED) s.hub.clk.holdSecs) % 2 ^ 32 ∧
      t.hub.clk.holdSecs = s.hub.clk.holdSecs + 1 ∧ SameRegs [HUB_KA_UNC] s t ∧ SameMem s t)) ∧
    (∀ offset : Int, s.is HUB_CLK_STAT HUB_CLK_STAT.REFIN_OK = true → Completes (.kaMeasure offset) s (fun t =>
      t.hub.clk.kaSecs = s.hub.clk.kaSecs + 1 ∧
      t.is HUB_KA_STAT HUB_KA_STAT.LEARNED = (s.is HUB_KA_STAT HUB_KA_STAT.LEARNED || decide (3600 ≤ s.hub.clk.kaSecs + 1)) ∧
      SameRegs [HUB_KA_STAT] s t ∧ SameMem s t)) ∧
    (∃ u : State, exec .pllUnlock s = .next (u.raisePkg .pllUnlock) ∧ u.is HUB_CLK_STAT HUB_CLK_STAT.PLL_LOCK = false ∧
      OnlyRegs [HUB_CLK_STAT] s u)

/-- O12. Setting the calendar, its seconds, the leap table and the journal of the calendar. Derived from
02_clocks_time_alignment.md. CAL_SET, carried out on a package that is no member: with an apply timestamp at least 800
ticks ahead it arms the set of the written second and sets SET_PEND; otherwise it sets SET_LATE and arms nothing.
CAL_SET_APPLY advances to the apply timestamp, makes the calendar that second from that tick, sets VALID and clears
SET_PEND; the anchor of a chain sends its calendar slot. LEAP_COMMIT takes a table with ascending seconds and offsets
that differ by 1, and sets LEAP_ERR for another. CALENDAR_SECOND begins the next second, 800,000,000 ticks after the
last. CAL_JOURNAL queues the calendar for the journal. Where the rules leave a point open, it follows the choices of
log entries 143, 144. -/
def Obligations.CalendarCommands : Prop :=
  ∀ s : State,
    (∀ f : Fin 8, s.Carried f HUB_CAL_CTRL 1#32 → s.isMember = false →
      (s.now + 800 ≤ s.rd64 HUB_CAL_SET_AT_LO → Completes (.calSet f) s (fun t =>
        t.hub.clk.armed = some (s.rd64 HUB_CAL_SET_SEC_LO % 2 ^ 48, s.rd64 HUB_CAL_SET_AT_LO) ∧
        t.is HUB_CAL_STAT HUB_CAL_STAT.SET_PEND = true ∧ SameRegs [HUB_CAL_STAT] s t ∧ SameMem s t)) ∧
      (s.rd64 HUB_CAL_SET_AT_LO < s.now + 800 → Completes (.calSet f) s (fun t =>
        t.is HUB_CAL_STAT HUB_CAL_STAT.SET_LATE = true ∧ OnlyRegs [HUB_CAL_STAT] s t))) ∧
    (∀ sec at' : Nat, s.hub.clk.armed = some (sec, at') → Completes .calSetApply s (fun t =>
      t.now = max s.now at' ∧ t.hub.clk.armed = none ∧ t.hub.clk.calSec = sec % 2 ^ 48 ∧ t.hub.clk.calStart = at' ∧
      t.is HUB_CAL_STAT HUB_CAL_STAT.VALID = true ∧ t.is HUB_CAL_STAT HUB_CAL_STAT.SET_PEND = false ∧
      (s.isMember = false → s.is (ROPE_STAT 1) ROPE_STAT.LINK_UP = true → t.out.rope = (1, .calendar true (sec % 2 ^ 48) at') :: s.out.rope) ∧
      SameRegs [HUB_CAL_STAT] s t ∧ SameMem s t)) ∧
    (∀ f : Fin 8, s.Carried f HUB_CAL_CTRL 2#32 →
      (leapOk s.leapWritten = true → Completes (.leapCommit f) s (fun t =>
        t.hub.clk.leap = s.leapWritten ∧ t.hub.clk.leapValid = s.rd64 HUB_LEAP_VALID_LO % 2 ^ 48 ∧ SameRegs [] s t ∧ SameMem s t)) ∧
      (leapOk s.leapWritten = false → Completes (.leapCommit f) s (fun t =>
        t.is HUB_CAL_STAT HUB_CAL_STAT.LEAP_ERR = true ∧ OnlyRegs [HUB_CAL_STAT] s t))) ∧
    Completes .calendarSecond s (fun t =>
      t.hub.clk.calSec = (s.hub.clk.calSec + 1) % 2 ^ 48 ∧ t.hub.clk.calStart = ((s.hub.clk.calStart + 800000000).toNat : Int) ∧
      t.now = max s.now (s.hub.clk.calStart + 800000000).toNat ∧ SameRegs [HUB_CAL_STAT] s t ∧ SameMem s t) ∧
    Completes .calJournal s (fun t => JRec.cal s.calendar.1 s.calendar.2 ∈ t.nvm.queue ∧ SameRegs [] s t ∧ SameMem s t)

/-- O13. Skew calibration of the package and hop calibration of a chain. Derived from 02_clocks_time_alignment.md.
SKEW_CALIBRATION starts a sequence with empty sums, 10 ms after the last one. SKEW_CAL_DONE, once 256 pulses are
averaged, ends it, takes the hop trims, gives every unit its result, lets restarting regions wait no longer, settles
ALIGNED and lets a boot that waits in step 5 (R374) and a thermal restart (R405) go on; a unit with CAL_EN whose trim
lies in -128 to 127 takes it as TRIM with AT_LIMIT 0 and nothing else changes. HOP_CALIBRATION on an aligned package
whose DOWN link is up advances to one interval of RECAL after the last one, 0 acting as 1, sends the step 1 marker
with that timestamp and records the fine phase. ALIGN_MARKER_RX answers the marker on UP, and a first alignment is
then under way; where the sender is package 15 the package is unroped with CHAIN_LONG, raises ROPE_ALIGN_LOST and
reports it to the packages below. ALIGN_RETURN_RX with a marker under way sends the second marker with its own send
timestamp and half the round trip (that it is not that of step 1 is deduced, log entry 111). Where the rules leave a
point open, it follows the choices of log entries 13, 111. -/
def Obligations.SkewAndHopCalibration : Prop :=
  ∀ s : State,
    Completes .skewCalibration s (fun t => t.hub.clk.skewN = some 0 ∧ t.hub.clk.skewSum = List.replicate 256 0 ∧
      t.now = max s.now s.skewDue ∧ t.hub.clk.lastSkew = t.now ∧ SameRegs [] s t ∧ SameMem s t) ∧
    (s.hub.clk.hopsDone = true → s.skewDue = s.hub.clk.lastSkew + 8000000) ∧
    (∀ n : Nat, s.hub.clk.skewN = some n → 256 ≤ n → exec .skewCalDone s = .next
      (((((s.modClk (fun c => { c with skewN := none, hopTrim := c.hopSum.map trimOf, hopsDone := true })).each
        s.hub.clk.skewSum.zipIdx (fun s x => s.unitSkew x.2 x.1)).each (List.range 16) (fun s t =>
          s.modRegion t (fun r => { r with skewWait := false }))).settleAligned).bootResume).restartEnd) ∧
    (∀ (p : Nat) (sum : Int), s.is (CH_SKEW p) CH_SKEW.CAL_EN = true → -128 ≤ trimOf sum → trimOf sum ≤ 127 →
      (s.unitSkew p sum).rdF (CH_SKEW p) CH_SKEW.TRIM = unsigned 8 (trimOf sum) ∧
      (s.unitSkew p sum).is (CH_SKEW p) CH_SKEW.AT_LIMIT = false ∧ OnlyRegs [CH_SKEW p] s (s.unitSkew p sum)) ∧
    (s.is (ROPE_STAT 1) ROPE_STAT.LINK_UP = true → s.sendsDown = true → s.is HUB_ALN_STAT HUB_ALN_STAT.ALIGNED = true →
      Completes .hopCalibration s (fun t => t.now = max s.now s.hopDue ∧ t.hub.clk.marker = some t.now ∧
        t.hub.clk.lastHop = some t.now ∧ t.hub.clk.markerPhase = (s.hub.clk.interp % 256).toNat ∧
        t.out.rope = (1, .marker true t.now 0 s.pkgNum) :: s.out.rope ∧ SameRegs [] s t ∧ SameMem s t)) ∧
    (∀ t0 : Nat, s.hub.clk.lastHop = some t0 → s.hopDue = t0 + 80000000 * max 1 (s.rdF HUB_ALN_CFG HUB_ALN_CFG.RECAL)) ∧
    (∀ pkg sent turn : Nat, pkg < 15 → Completes (.alignMarkerRx pkg sent turn) s (fun t =>
      t.out.rope = (0, .markerBack sent turn) :: s.out.rope ∧ t.hub.clk.aligning = (s.joins || s.hub.clk.aligning) ∧
      SameRegs [] s t ∧ SameMem s t)) ∧
    (∀ sent turn : Nat, ∃ u : State, exec (.alignMarkerRx 15 sent turn) s =
        .next (((u.raisePkg .ropeAlignLost 0 true).chainReport .ropeAlignLost true).bootResume) ∧
      u.is HUB_ALN_STAT HUB_ALN_STAT.CHAIN_LONG = true ∧ u.rdF HUB_ALN_STAT HUB_ALN_STAT.PKG_NUM = 0 ∧
      u.is HUB_ALN_STAT HUB_ALN_STAT.LINK_LOST = true ∧ u.is HUB_ALN_STAT HUB_ALN_STAT.ALIGNED = false ∧
      u.hub.clk.aligning = false ∧ SameRegs [HUB_ALN_STAT] s u ∧ SameMem s u) ∧
    (∀ m back turn : Nat, s.hub.clk.marker = some m → Completes (.alignReturnRx back turn) s (fun t =>
      t.hub.clk.marker = none ∧
      t.out.rope = (1, .marker false s.now (roundTie ((back : Int) - turn) 2).toNat s.pkgNum) :: s.out.rope ∧
      SameRegs [] s t ∧ SameMem s t))

/-- O14. The first load of a member, the JOIN command and the training of a ROPE link. Derived from
02_clocks_time_alignment.md. ALIGN_LOAD on a package that has not joined and may (AUTO_JOIN), from a sender below 15:
the timestamp becomes T_s plus the whole FCLK ticks of t_ow, the interpolator its fraction, HUB_ALN_HOP and PKG_NUM
are written, TS_STEPS counts, LINK_LOST and CHAIN_LONG read 0, and TIME_STEP is raised on that state before LIVE of
ROPE_ALIGN_LOST clears, ALIGNED settles and a boot in step 5 goes on. JOIN with AUTO_JOIN 0 sets JOIN and nothing
else. ROPE_LINK_UP shows the link of its port up and clears LIVE of ROPE_LINK_DOWN, with fresh credits where no
holdover is reported on DOWN; on UP, where the neighbour can lead it, the package is a member. Where the rules leave a
point open, it follows the choices of log entries 26, 113, 114. -/
def Obligations.JoiningAChain : Prop :=
  ∀ s : State,
    (∀ sent tow up : Nat, up < 15 → s.hub.clk.joined = false → s.is HUB_ALN_CFG HUB_ALN_CFG.AUTO_JOIN = true →
      ∃ u : State, exec (.alignLoad sent tow up) s = .next ((((u.raisePkg .timeStep).unlive .ropeAlignLost 0).settleAligned).bootResume) ∧
        u.now = (sent + tow / 256) % 2 ^ 64 ∧ u.hub.clk.interp = ((tow % 256 : Nat) : Int) ∧ u.hub.clk.joined = true ∧
        u.is HUB_ALN_STAT HUB_ALN_STAT.LINK_LOST = false ∧ u.is HUB_ALN_STAT HUB_ALN_STAT.CHAIN_LONG = false ∧
        u.rdN HUB_ALN_HOP = tow % 2 ^ 24 ∧ u.rdF HUB_ALN_STAT HUB_ALN_STAT.PKG_NUM = up + 1 ∧
        u.rdF HUB_ALN_STAT HUB_ALN_STAT.TS_STEPS =
          (s.rdF HUB_ALN_STAT HUB_ALN_STAT.TS_STEPS + 1) % 2 ^ HUB_ALN_STAT.TS_STEPS.len ∧
        SameRegs [HUB_ALN_HOP, HUB_ALN_STAT] s u ∧ SameMem s u) ∧
    (∀ f : Fin 8, s.Carried f HUB_ALN_STAT 0x80#32 → s.is HUB_ALN_CFG HUB_ALN_CFG.AUTO_JOIN = false →
      Completes (.join f) s (fun t => t.is HUB_ALN_STAT HUB_ALN_STAT.JOIN = true ∧ OnlyRegs [HUB_ALN_STAT] s t)) ∧
    (∀ (up : Nat) (offset : Int), Completes (.ropeLinkUp 1 up offset) s (fun t =>
      t.rdN (ROPE_STAT 1) = 0x3F ∧ (s.is HUB_ALN_STAT HUB_ALN_STAT.HOLDOVER = false → s.hub.clk.anchorHold = false →
        t.ropePort 1 = { framed := (s.out.rope.filter (fun x => x.1 = 1)).length }) ∧ t.hub.clk.lastHop = none ∧
      t.is (FLT_SRC_STAT (srcNum .ropeLinkDown 0)) FLT_SRC_STAT.LIVE = false ∧ SameMem s t)) ∧
    (∀ (up : Nat) (offset : Int), up < 15 → s.hub.clk.joined = false → Completes (.ropeLinkUp 0 up offset) s (fun t =>
      t.rdN (ROPE_STAT 0) = 0x3F ∧ t.ropePort 0 = { framed := (s.out.rope.filter (fun x => x.1 = 0)).length } ∧ t.is HUB_CAL_STAT HUB_CAL_STAT.MEMBER = true ∧ SameMem s t))

/-- O15. SYNC pulses, edges of SYNC_IN, pulses of SYNC_OUT, and calendar slots. Derived from 02_clocks_time_alignment.md.
SYNC_PULSE advances to the next multiple of 800 ticks that has had no pulse, slews the interpolator by at most one
step, counts a pulse of a calibration in progress up to the 256th, and then every die whose replica differs loads the
marked value and raises TIME_SLIP, before the replicas that count wrong from here on. SYNC_IN_EDGE at the enabled edge
captures the timestamp and counts, without a calendar set where SYNC_IN_SET is 0. SYNC_OUT_PULSE starts at the instant
that OUT_SEL selects. CALENDAR_SLOT_RX on an aligned member sets the calendar to the slot's second from its start
timestamp. Where the rules leave a point open, it follows the choices of log entries 27, 144. -/
def Obligations.SyncPinsAndCalendarSlots : Prop :=
  ∀ s : State,
    (∀ (cmp hops : List Int) (drift : List (Fin 4 × DWord)), ∃ u : State,
      exec (.syncPulse cmp hops drift) s = .next ((u.timeSlips).replicaDrift drift) ∧
      u.now = max s.now s.nextSync ∧ (∀ t : Nat, s.hub.clk.lastSync = some t → t < s.nextSync) ∧ s.nextSync % 800 = 0 ∧
      u.hub.clk.lastSync = some u.now ∧ u.hub.clk.interp = s.hub.clk.interp + sgn s.hub.clk.slew ∧
      u.hub.clk.slew = s.hub.clk.slew - sgn s.hub.clk.slew ∧ u.hub.clk.skewN = s.hub.clk.skewN.map (fun n => if n < 256 then n + 1 else n) ∧
      SameRegs [] s u ∧ SameMem s u) ∧
    (∀ rising : Bool, s.is HUB_SYNC_CFG HUB_SYNC_CFG.IN_EN = true → s.is HUB_SYNC_CFG HUB_SYNC_CFG.IN_EDGE = !rising →
      s.is HUB_CAL_CTRL HUB_CAL_CTRL.SYNC_IN_SET = false → Completes (.syncInEdge rising) s (fun t =>
        t.rd64 HUB_SYNC_IN_TS_LO = s.now % 2 ^ 64 ∧
        t.rdF HUB_SYNC_CFG HUB_SYNC_CFG.IN_CNT = (s.rdF HUB_SYNC_CFG HUB_SYNC_CFG.IN_CNT + 1) % 2 ^ HUB_SYNC_CFG.IN_CNT.len ∧
        OnlyRegs [HUB_SYNC_IN_TS_LO, HUB_SYNC_IN_TS_LO + 4, HUB_SYNC_CFG] s t)) ∧
    (∀ i : Nat, s.syncOutNext = some i → Completes .syncOutPulse s (fun t =>
      t.now = max s.now i ∧ t.hub.clk.syncOutAt = some i ∧ SameRegs [] s t ∧ SameMem s t)) ∧
    (∀ sec start : Nat, s.isMember = true → s.is HUB_ALN_STAT HUB_ALN_STAT.ALIGNED = true →
      Completes (.calendarSlotRx sec start) s (fun t => t.hub.clk.calSec = sec % 2 ^ 48 ∧ t.hub.clk.calStart = (start : Int) ∧
        t.is HUB_CAL_STAT HUB_CAL_STAT.VALID = true ∧ SameRegs [HUB_CAL_STAT] s t ∧ SameMem s t))

/-- O16. Closing and opening the output switch of a unit, of a gang and of a follower. Derived from
03_channel_front_end.md. On a unit that follows a gang master OUT_REQ_SET and OUT_REQ_CLEAR change no register.
OUT_REQ_SET of a master arms every member that no reaction or safe path covers, and SWITCH_CLOSE of it closes the
switches of all armed members. For a unit in no gang: OUT_REQ_SET, carried out and not ignored, sets OUT_REQ and AUTO,
clears SAFE, arms the switch at the present instant and puts PRF_OUT to 0. SWITCH_CLOSE of an armed unit advances to
the boundary, closes the switch and sets AUTO_ACT, or ends in manual at the present code where AUTO was written 0
since (R136). OUT_REQ_CLEAR with OPEN_FAST opens at once into the safe state: switch open, SAFE, code 0x80000, OUT_REQ
0; without it a driven unit starts its ramped path. SAFE_RAMP_END at mid-scale of an open-loop path, or of a ramp, at
the boundary where output and NCO amplitude are 0, otherwise 1 ms after the path began, ends in the safe state. Where
the rules leave a point open, it follows the choices of log entries 28, 30, 35, 115. -/
def Obligations.OutputSwitchCommands : Prop :=
  ∀ (s : State) (p : Fin 256),
    (s.follower p = true → ∀ f : Fin 8,
      (s.Carried f (CH_CTRL p) (setFld (s.rd (CH_CTRL p)) CH_CTRL.OUT_REQ 1) → Completes (.outReqSet f p) s (fun t => OnlyRegs [] s t)) ∧
      (s.Carried f (CH_CTRL p) (setFld (s.rd (CH_CTRL p)) CH_CTRL.OUT_REQ 0) → Completes (.outReqClear f p) s (fun t => OnlyRegs [] s t))) ∧
    (s.follower p = false →
      (∀ f : Fin 8, s.Carried f (CH_CTRL p) (setFld (s.rd (CH_CTRL p)) CH_CTRL.OUT_REQ 1) → s.outReqIgnored p = false →
        Completes (.outReqSet f p) s (fun t => ∀ q ∈ s.members p, s.covered q = false →
          t.is (CH_CTRL q) CH_CTRL.OUT_REQ = true ∧ (t.unit q).swReq = some s.now)) ∧
      (∀ i : Nat, (s.unit p).swReq = some i → Completes (.switchClose p) s (fun t =>
        t.now = max s.now (s.nextBoundary (p.val / 16) i) ∧
        ∀ q ∈ s.members p, (s.unit q).swReq ≠ none → t.is (CH_STAT q) CH_STAT.OUT_CLOSED = true ∧ (t.unit q).swReq = none))) ∧
    (s.master p = false → s.follower p = false →
    (∀ f : Fin 8, s.Carried f (CH_CTRL p) (setFld (s.rd (CH_CTRL p)) CH_CTRL.OUT_REQ 1) → s.outReqIgnored p = false →
      Completes (.outReqSet f p) s (fun t => t.is (CH_CTRL p) CH_CTRL.OUT_REQ = true ∧
        t.is (ENG_UCTRL p) ENG_UCTRL.AUTO = true ∧ t.is (CH_STAT p) CH_STAT.SAFE = false ∧ (t.unit p).swReq = some s.now ∧
        t.rd (PRF_OUT p) = 0#32 ∧ SameMem s t)) ∧
    (∀ i : Nat, (s.unit p).swReq = some i → Completes (.switchClose p) s (fun t =>
      t.now = max s.now (s.nextBoundary (p.val / 16) i) ∧ t.is (CH_STAT p) CH_STAT.OUT_CLOSED = true ∧
      t.is (ENG_USTAT p) ENG_USTAT.AUTO_ACT = s.is (ENG_UCTRL p) ENG_UCTRL.AUTO ∧ (t.unit p).swCmd = true ∧ (t.unit p).swReq = none ∧
      (s.is (ENG_UCTRL p) ENG_UCTRL.AUTO = true → SameRegs [CH_STAT p, ENG_USTAT p] s t) ∧
      (s.is (ENG_UCTRL p) ENG_UCTRL.AUTO = false → t.rd (ENG_MANUAL p) =
        s.rd (if (s.advance (s.nextBoundary (p.val / 16) i)).hostWrote (ENG_MANUAL p) then ENG_MANUAL p else CH_DAC p)) ∧
      SameRegs [CH_STAT p, ENG_USTAT p, ENG_MANUAL p, ENG_UCTRL p] s t ∧ SameMem s t)) ∧
    (∀ f : Fin 8, s.Carried f (CH_CTRL p) (setFld (s.rd (CH_CTRL p)) CH_CTRL.OUT_REQ 0) →
      s.is (CH_CTRL p) CH_CTRL.OUT_REQ = true →
      (s.is (CH_CTRL p) CH_CTRL.OPEN_FAST = true → Completes (.outReqClear f p) s (fun t =>
        t.is (CH_CTRL p) CH_CTRL.OUT_REQ = false ∧ t.is (CH_STAT p) CH_STAT.OUT_CLOSED = false ∧
        t.is (CH_STAT p) CH_STAT.SAFE = true ∧ t.rdN (CH_DAC p) = 0x80000 ∧ (t.unit p).swCmd = false ∧ SameMem s t)) ∧
      (s.is (CH_CTRL p) CH_CTRL.OPEN_FAST = false → (s.unit p).swCmd = true → (s.unit p).safe = .none →
        Completes (.outReqClear f p) s (fun t => t.is (CH_CTRL p) CH_CTRL.OUT_REQ = false ∧ (t.unit p).safe ≠ .none ∧
          (t.unit p).safeFrom = s.now ∧ (t.unit p).swReq = none ∧ OnlyRegs [CH_CTRL p, ENG_USTAT p] { s with units := t.units } t))) ∧
    ((s.unit p).safe = .openLoop → s.rdN (CH_DAC p) = 0x80000 → Completes (.safeRampEnd p) s (fun t =>
      t.now = s.now ∧ t.is (CH_STAT p) CH_STAT.OUT_CLOSED = false ∧ t.is (CH_STAT p) CH_STAT.SAFE = true ∧
      t.rdN (CH_DAC p) = 0x80000 ∧ (t.unit p).safe = .none ∧ SameMem s t)) ∧
    ((s.unit p).safe = .ramp → Completes (.safeRampEnd p) s (fun t =>
      t.now = max s.now (if (s.unit p).gen.out = 0 ∧ (s.unit p).gen.ampPos = 0 then
        min ((s.unit p).safeFrom + 800000) (s.boundary (p.val / 16)) else (s.unit p).safeFrom + 800000) ∧
      t.is (CH_STAT p) CH_STAT.OUT_CLOSED = false ∧ t.is (CH_STAT p) CH_STAT.SAFE = true ∧
      t.rdN (CH_DAC p) = 0x80000 ∧ (t.unit p).safe = .none ∧ SameMem s t)))

/-- O17. Writes of CH_MODE, CH_SETPT, CH_CMPL and CH_NCO_AMP, and the range change that a CH_MODE write makes. Derived
from 03_channel_front_end.md. CH_MODE_WRITE, SETPT_WRITE and CMPL_WRITE on a unit that follows a gang master change
nothing (R99), but for the squash of R198 by a CH_MODE write. For a unit that follows none: CH_MODE_WRITE leaves
CH_MODE as it is and makes the written value, with VRNG 3 ignored, the last that waits, the only one where it comes in
the overlap of a range change (R96). RANGE_CHANGE advances to the boundary of the oldest waiting write and applies its
value to the unit, or to every member of the gang that the unit leads. RANGE_SETTLED after 20 samples clears RNG_BUSY
at the next boundary. SETPT_WRITE stores the value and sends it to the generator. CMPL_WRITE stores the limit held
within 0x0080 to 0x8000 on the unit and the followers that it leads, with CMPL_CLIP where it was outside.
NCO_AMP_WRITE stores the amplitude held at 0x8000, with NCO_CLIP where it was above. Where the rules leave a point
open, it follows the choices of log entries 32, 45, 116. -/
def Obligations.RangeAndSetPointCommands : Prop :=
  ∀ (s : State) (p : Fin 256),
    (s.follower p = true → ∀ (f : Fin 8) (v : Word),
      (s.Carried f (CH_MODE p) v → exec (.chModeWrite f p v) s = .next ((s.wroteNow (CH_MODE p) v).regSquash (CH_MODE p))) ∧
      (s.Carried f (CH_SETPT p) v → Completes (.setptWrite f p v) s (fun t => OnlyRegs [] s t)) ∧
      (s.Carried f (CH_CMPL p) v → Completes (.cmplWrite f p v) s (fun t => OnlyRegs [] s t))) ∧
    (s.follower p = false →
    (∀ (f : Fin 8) (v : Word), s.Carried f (CH_MODE p) v → Completes (.chModeWrite f p v) s (fun t =>
      t.rd (CH_MODE p) = s.rd (CH_MODE p) ∧
      (s.overlapEnd p ≠ none → (t.unit p).modePend.length = 1) ∧ (t.unit p).modePend.getLast? = some (ModeWrite.mk
        (match s.overlapEnd p with | some b => min s.now (b - 8) | none => s.now)
        (modeValue (((s.unit p).modePend.getLast?.map ModeWrite.val).getD (s.rdN (CH_MODE p))) v.toNat)) ∧ SameMem s t)) ∧
    (∀ (m : ModeWrite) (l : List ModeWrite), (s.unit p).modePend = m :: l → exec (.rangeChange p) s =
      .next ((s.members p).foldl (fun u q => u.applyModeUnit q m.val)
        ((s.advance (s.effectAt (p.val / 16) m.at')).modUnit p (fun u => { u with modePend := l })))) ∧
    (s.master p = false → s.members p = [p.val]) ∧
    (s.is (CH_STAT p) CH_STAT.RNG_BUSY = true → (s.unit p).rngLeft = 0 → Completes (.rangeSettled p) s (fun t =>
      t.is (CH_STAT p) CH_STAT.RNG_BUSY = false ∧ t.now = max s.now (s.boundary (p.val / 16)) ∧
      SameRegs [CH_STAT p] s t ∧ SameMem s t)) ∧
    (∀ (f : Fin 8) (v : Word), s.Carried f (CH_SETPT p) v → Completes (.setptWrite f p v) s (fun t =>
      t.rd (CH_SETPT p) = v ∧ (s.now, signed 32 v.toNat) ∈ (t.unit p).gen.setWr ∧
      SameRegs [CH_SETPT p, CH_STAT p] s t ∧ SameMem s t)) ∧
    (∀ (f : Fin 8) (v : Word), s.Carried f (CH_CMPL p) v → Completes (.cmplWrite f p v) s (fun t =>
      (∀ q ∈ s.members p, t.rdF (CH_CMPL q) CH_CMPL.LIMIT = max 0x80 (min 0x8000 (getFld v CH_CMPL.LIMIT))) ∧
      t.is (CH_STAT p) CH_STAT.CMPL_CLIP = (s.is (CH_STAT p) CH_STAT.CMPL_CLIP ||
        decide (getFld v CH_CMPL.LIMIT < 0x80 ∨ 0x8000 < getFld v CH_CMPL.LIMIT)) ∧
      OnlyRegs (CH_STAT p :: (s.members p).map (fun q => CH_CMPL q)) s t)) ∧
    (∀ (f : Fin 8) (v : Word), s.Carried f (CH_NCO_AMP p) v → Completes (.ncoAmpWrite f p v) s (fun t =>
      t.rdN (CH_NCO_AMP p) = min 0x8000 (v.toNat % 2 ^ 16) ∧
      t.is (CH_STAT p) CH_STAT.NCO_CLIP = (s.is (CH_STAT p) CH_STAT.NCO_CLIP || decide (0x8000 < v.toNat % 2 ^ 16)) ∧
      OnlyRegs [CH_NCO_AMP p, CH_STAT p] s t)))

/-- O18. The analog clamp, the open load and a switch that does not follow its command. Derived from
03_channel_front_end.md. CLAMP_ENGAGE sets CLAMP and CLAMP_SEEN and raises CLAMP_ENGAGED, LIVE, for the unit on that
state; CLAMP_RELEASE clears CLAMP and changes no other register but the source's status. OPEN_LOAD after 16 samples
sets the OPEN_LOAD flag once and raises OPEN_LOAD, LIVE. SWITCH_MISMATCH raises its source for the unit (that it is
not LIVE is log entry 31). -/
def Obligations.ClampLoadAndMismatch : Prop :=
  ∀ (s : State) (p : Fin 256),
    (s.is (CH_STAT p) CH_STAT.CLAMP = false → ∃ u : State, exec (.clampEngage p) s = .next (u.raiseUnit .clampEngaged p 0 true) ∧
      u.is (CH_STAT p) CH_STAT.CLAMP = true ∧ u.is (CH_STAT p) CH_STAT.CLAMP_SEEN = true ∧
      SameRegs [CH_STAT p] s u ∧ SameMem s u) ∧
    (s.is (CH_STAT p) CH_STAT.CLAMP = true → Completes (.clampRelease p) s (fun t => t.is (CH_STAT p) CH_STAT.CLAMP = false ∧
      OnlyRegs [CH_STAT p, FLT_SRC_STAT (srcNum .clampEngaged (p.val / 64))] s t)) ∧
    (16 ≤ (s.unit p).olCnt → (s.unit p).olLive = false → ∃ u : State,
      exec (.openLoad p) s = .next (u.raiseUnit .openLoad p 0 true) ∧ u.is (CH_STAT p) CH_STAT.OPEN_LOAD = true ∧
      (u.unit p).olLive = true ∧ SameRegs [CH_STAT p] s u ∧ SameMem s u) ∧
    exec (.switchMismatch p) s = .next (s.raiseUnit .switchMismatch p)

/-- O19. Applying a new NCO frequency, at once and by the soft sequence. Derived from 03_channel_front_end.md. NCO_APPLY
without SOFT takes the staged FTW for the next boundary, or with ARM_AT for the first at CH_NCO_AT, and sets APPLY.
NCO_FTW_SWITCH advances to that boundary, puts the FTW in force held at the ceiling of the loop rate, and clears
APPLY. NCO_SOFT_ZERO does so at amplitude 0 and starts the rise; NCO_SOFT_DONE at the full amplitude ends the sequence
and clears NCO_SOFT. Where the rules leave a point open, it follows the choices of log entries 34, 46. -/
def Obligations.NcoFrequencyCommands : Prop :=
  ∀ (s : State) (p : Fin 256),
    (∀ f : Fin 8, s.Carried f (CH_NCO_CTRL p) (setFld (s.rd (CH_NCO_CTRL p)) CH_NCO_CTRL.APPLY 1) →
      s.is (CH_NCO_CTRL p) CH_NCO_CTRL.SOFT = false → (s.unit p).nco.soft = .idle → Completes (.ncoApply f p) s (fun t =>
        (t.unit p).nco.stg = s.stagedFtw p ∧ (t.unit p).nco.applyAt = some (if s.is (CH_NCO_CTRL p) CH_NCO_CTRL.ARM_AT then
          max (s.rd64 (CH_NCO_AT_LO p)) (s.now + 1) else s.now + 1) ∧
        t.is (CH_NCO_CTRL p) CH_NCO_CTRL.APPLY = true ∧ SameRegs [CH_NCO_CTRL p] s t ∧ SameMem s t)) ∧
    (∀ i : Nat, (s.unit p).nco.applyAt = some i → (s.unit p).nco.soft = .idle → Completes (.ncoFtwSwitch p) s (fun t =>
      t.now = max s.now (nextMultiple (s.period (p.val / 16)) (max i s.now)) ∧
      (t.unit p).nco.ftw = min (s.ftwCeiling (p.val / 16)) (s.unit p).nco.stg ∧ (t.unit p).nco.applyAt = none ∧
      t.is (CH_NCO_CTRL p) CH_NCO_CTRL.APPLY = false ∧ SameRegs [CH_NCO_CTRL p, CH_STAT p] s t ∧ SameMem s t)) ∧
    (∀ i : Nat, (s.unit p).nco.applyAt = some i → (s.unit p).nco.soft = .down → (s.unit p).gen.ampPos = 0 →
      Completes (.ncoSoftZero p) s (fun t => (t.unit p).nco.ftw = min (s.ftwCeiling (p.val / 16)) (s.unit p).nco.stg ∧
        (t.unit p).nco.soft = .up ∧ t.is (CH_NCO_CTRL p) CH_NCO_CTRL.APPLY = false ∧
        SameRegs [CH_NCO_CTRL p, CH_STAT p] s t ∧ SameMem s t)) ∧
    ((s.unit p).nco.soft = .up → (s.unit p).gen.ampPos = s.ampTarget p → Completes (.ncoSoftDone p) s (fun t =>
      (t.unit p).nco.soft = .idle ∧ t.is (CH_STAT p) CH_STAT.NCO_SOFT = false ∧ SameRegs [CH_STAT p] s t ∧ SameMem s t))

/-- O20. Host writes of the control engine: rate, coefficients, release, learning table, manual and automatic. Derived
from 04_control_engine.md. RATE_WRITE of a code below 7 stores it and sets RATE_PEND (that the field reads at once is
log entry 42); code 7 leaves every register. COEF_WRITE on a unit that follows no master keeps the coefficient in use
as waiting and stores the written one; with HOLD_COEF it sets COEF_PEND. COEF_RELEASE dates every staged write to the
present instant and clears HOLD_COEF. RC_CLR fills the learning table with zero bytes. AUTO_CLEAR and AUTO_SET set the
AUTO bit and wait for a boundary; AUTO_SET under a reaction or a safe path leaves every register. ENG_MANUAL_WRITE
stores the code; in manual, by ECLK cycle 24 of the running period, CH_DAC takes the clipped code at once.
PL_LOAD_WRITE stores the model parameter. On a unit that follows a gang master none of the unit's commands changes a
register or a byte of memory. Where the rules leave a point open, it follows the choices of log entries 41, 42. -/
def Obligations.EngineWriteCommands : Prop :=
  ∀ s : State,
    (∀ (f : Fin 8) (t : Fin 16) (v : Word), s.Carried f (ENG_CTRL t) v → getFld v ENG_CTRL.RATE < 7 →
      Completes (.rateWrite f t v) s (fun u => u.rdF (ENG_CTRL t) ENG_CTRL.RATE = getFld v ENG_CTRL.RATE ∧
        u.is (ENG_CTRL t) ENG_CTRL.RATE_PEND = true ∧ SameRegs [ENG_CTRL t] s u ∧ SameMem s u)) ∧
    (∀ (f : Fin 8) (t : Fin 16) (v : Word), s.Carried f (ENG_CTRL t) v → getFld v ENG_CTRL.RATE = 7 →
      Completes (.rateWrite f t v) s (fun u => SameRegs [] s u ∧ SameMem s u)) ∧
    (∀ (f : Fin 8) (p : Fin 256) (c : Fin 10) (v : Word), s.Carried f (coefReg p c) v → s.follower p = false →
      Completes (.coefWrite f p c v) s (fun t => t.rd (coefReg p c) = (s.store (coefReg p c) v).rd (coefReg p c) ∧
        (t.unit p).eng.coefWr = (s.unit p).eng.coefWr ++
          [CoefWrite.mk (if s.is (ENG_UCTRL p) ENG_UCTRL.HOLD_COEF then none else some s.now) c (s.rdN (coefReg p c))] ∧
        (s.is (ENG_UCTRL p) ENG_UCTRL.HOLD_COEF = true → t.is (ENG_USTAT p) ENG_USTAT.COEF_PEND = true) ∧
        SameRegs [coefReg p c, ENG_USTAT p] s t ∧ SameMem s t)) ∧
    (∀ (f : Fin 8) (p : Fin 256), s.follower p = false →
      (s.Carried f (ENG_UCTRL p) (setFld (s.rd (ENG_UCTRL p)) ENG_UCTRL.HOLD_COEF 0) →
        s.is (ENG_UCTRL p) ENG_UCTRL.HOLD_COEF = true → Completes (.coefRelease f p) s (fun t =>
          t.is (ENG_UCTRL p) ENG_UCTRL.HOLD_COEF = false ∧ (∀ e ∈ (t.unit p).eng.coefWr, e.at' ≠ none) ∧
          SameRegs [ENG_UCTRL p] s t ∧ SameMem s t)) ∧
      (s.Carried f (ENG_UCTRL p) (setFld (s.rd (ENG_UCTRL p)) ENG_UCTRL.RC_CLR 1) →
        exec (.rcClr f p) s =
          .next ((s.wroteNow (ENG_UCTRL p) (setFld (s.rd (ENG_UCTRL p)) ENG_UCTRL.RC_CLR 1)).memWrite (s.learnTable p)
            (List.replicate 4096 0#8))) ∧
      (s.Carried f (ENG_UCTRL p) (setFld (s.rd (ENG_UCTRL p)) ENG_UCTRL.AUTO 0) → Completes (.autoClear f p) s (fun t =>
        t.is (ENG_UCTRL p) ENG_UCTRL.AUTO = false ∧
        (t.unit p).eng.autoReq = (if s.is (ENG_USTAT p) ENG_USTAT.AUTO_ACT then some s.now else none) ∧
        SameRegs [ENG_UCTRL p] s t ∧ SameMem s t)) ∧
      (s.Carried f (ENG_UCTRL p) (setFld (s.rd (ENG_UCTRL p)) ENG_UCTRL.AUTO 1) → s.covered p = false → s.lofMoves p = false →
        Completes (.autoSet f p) s (fun t => t.is (ENG_UCTRL p) ENG_UCTRL.AUTO = true ∧
          (t.unit p).eng.autoReq = (if s.is (ENG_USTAT p) ENG_USTAT.AUTO_ACT then none else some s.now) ∧
          SameRegs [ENG_UCTRL p] s t ∧ SameMem s t)) ∧
      (s.Carried f (ENG_UCTRL p) (setFld (s.rd (ENG_UCTRL p)) ENG_UCTRL.AUTO 1) → s.covered p = true ∨ s.lofMoves p = true →
        Completes (.autoSet f p) s (fun t => OnlyRegs [] s t)) ∧
      (∀ v : Word, s.Carried f (ENG_MANUAL p) v → Completes (.engManualWrite f p v) s (fun t =>
        t.rd (ENG_MANUAL p) = (s.store (ENG_MANUAL p) v).rd (ENG_MANUAL p) ∧ SameRegs [ENG_MANUAL p, CH_DAC p] s t ∧ SameMem s t ∧
        (∀ b : Nat, (s.region (p.val / 16)).lastSample = some b → s.now ≤ b + 48 → s.inManual p = true →
          t.rdN (CH_DAC p) = s.clipCode p (t.rdN (ENG_MANUAL p))) ∧
        (s.inManual p = false ∨ (∀ b : Nat, (s.region (p.val / 16)).lastSample = some b → b + 48 < s.now) →
          OnlyRegs [ENG_MANUAL p] s t))) ∧
      (∀ (c : Bool) (v : Word), s.Carried f (if c then ENG_PL_C p else ENG_PL_R p) v → Completes (.plLoadWrite f p c v) s (fun t =>
        t.rd (if c then ENG_PL_C p else ENG_PL_R p) = v ∧
        SameRegs [if c then ENG_PL_C p else ENG_PL_R p, ENG_USTAT p] s t ∧ SameMem s t))) ∧
    (∀ (f : Fin 8) (p : Fin 256), s.follower p = true →
      (∀ (c : Fin 10) (v : Word), s.Carried f (coefReg p c) v → Completes (.coefWrite f p c v) s (fun t => OnlyRegs [] s t)) ∧
      (s.Carried f (ENG_UCTRL p) (setFld (s.rd (ENG_UCTRL p)) ENG_UCTRL.HOLD_COEF 0) → Completes (.coefRelease f p) s (fun t => OnlyRegs [] s t)) ∧
      (s.Carried f (ENG_UCTRL p) (setFld (s.rd (ENG_UCTRL p)) ENG_UCTRL.RC_CLR 1) → Completes (.rcClr f p) s (fun t => OnlyRegs [] s t)) ∧
      (s.Carried f (ENG_UCTRL p) (setFld (s.rd (ENG_UCTRL p)) ENG_UCTRL.AUTO 0) → Completes (.autoClear f p) s (fun t => OnlyRegs [] s t)) ∧
      (s.Carried f (ENG_UCTRL p) (setFld (s.rd (ENG_UCTRL p)) ENG_UCTRL.AUTO 1) → Completes (.autoSet f p) s (fun t => OnlyRegs [] s t)) ∧
      (∀ v : Word, s.Carried f (ENG_MANUAL p) v → Completes (.engManualWrite f p v) s (fun t => OnlyRegs [] s t)) ∧
      (∀ (c : Bool) (v : Word), s.Carried f (if c then ENG_PL_C p else ENG_PL_R p) v →
        Completes (.plLoadWrite f p c v) s (fun t => OnlyRegs [] s t)))

/-- O21. The loop period of a region: what one sample does, and the code that each unit latches. Derived from
04_control_engine.md, 03_channel_front_end.md. LOOP_PERIOD with the analog domains off only advances to the boundary.
With them on it completes: at the boundary the supervisory outputs and the gangs, the dither of every cluster, the
samples of the 16 units, the shadow pairs, the 16 lanes and the supervisory slots follow each other, and the boundary
becomes the last sample's. A lane out of automatic latches the manual code: ENG_MANUAL held within the limits, mid-
scale in the state of R75 and before the first boundary of an armed unit. A lane in automatic selects the path by R123
and latches the rounded output with the kind 5 offset, held within the limits. A path integrates and sums in 40
saturating bits; the preset path takes the integrator that gives the asked output. R116, R118, R119, R122, R123, R136,
R138. Where the rules leave a point open, it follows the choices of log entries 13, 36, 118, 146, 147, 148, 149. -/
def Obligations.LoopPeriodCommand : Prop :=
  ∀ (s : State) (t : Fin 16) (v i pil : List (BitVec 18)) (sup : List Int),
    (s.is (TMP_DSTAT (t.val / 4)) TMP_DSTAT.ANALOG_OFF = true →
      exec (.loopPeriod t v i pil sup) s = .next (s.advance (s.boundary t))) ∧
    (s.is (TMP_DSTAT (t.val / 4)) TMP_DSTAT.ANALOG_OFF = false →
      let r : RawCodes := { v := v, i := i, pil := pil }
      let u := (((s.advance (s.boundary t)).supApply t).each (unitsOf t) State.gangCheck).each
        ((List.range 4).map (fun c => 4 * t.val + c)) State.ditherStep
      let w := ((u.each (unitsOf t) (fun s p => s.sampleUnit r p)).each ((List.range 4).map (fun c => 4 * t.val + c))
        (fun s k => s.shadowPair r k)).each (unitsOf t) (fun s p => s.loopUnit r p)
      Completes (.loopPeriod t v i pil sup) s (fun x =>
        (x.region t).lastSample = some (max s.now (s.boundary t)) ∧
        x = (w.supSlots t sup).modRegion t (fun y => { y with lastSample := some (max s.now (s.boundary t)) }))) ∧
    (∀ (p : Fin 256) (x : LaneEval),
      (s.closeManual p x).rd (CH_DAC p) = w32 (s.manualCode p).2 ∧
      ((s.unit p).safe ≠ .openLoop → s.is (ENG_USTAT p) ENG_USTAT.LOF_RAMP = false → (s.manualCode p).2 =
        (if s.is (CH_STAT p) CH_STAT.SAFE = true ∨ (s.unit p).swReq ≠ none then 0x80000
          else s.clipCode p (s.rdN (ENG_MANUAL p)))) ∧
      (s.closeAuto p x).rd (CH_DAC p) = w32 (s.clipCode p (0x80000 + roundTie (if (selectPath (s.unit p).eng.limited
        (s.unit p).eng.ret x (if s.isBoost p && s.is (CH_BST p) CH_BST.STAGE_INV then -1 else 1)).1 then x.l.u else x.f.u) (2 ^ 16) +
        s.supOffset p))) ∧
    (∀ (st : PathState) (y : PathTerms) (rest e : Int),
      (evalPath st y rest e none).st.integ = (satS 40 (st.integ + y.i)).1 ∧
      (evalPath st y rest e none).u = (satS 40 ((satS 40 (y.p + y.df + rest)).1 + (satS 40 (st.integ + y.i)).1)).1 ∧
      ∀ o : Int, (evalPath st y rest e (some o)).st.integ = (satS 40 (o - (satS 40 (y.p + y.df + rest)).1)).1)

/-- O22. Transfers between manual and automatic, the rate change, lost feedback and learning. Derived from
04_control_engine.md. MANUAL_TRANSFER and AUTO_TRANSFER of a waiting request advance to the boundary after it; manual
takes effect at the present code (unless the host wrote ENG_MANUAL in that cycle, R9), automatic, unless the unit is
armed (R77), with the generator started at the measured value and both paths to be preset, a hold ended. RATE_CHANGE
advances to the rate instant, the first multiple of 80,000 ticks 4 ECLK or more after the earliest write or
enforcement change that waits, takes the writes in time for it and the enforcement ceiling, the slower of the two.
FEEDBACK_FROZEN and FEEDBACK_IMPLAUSIBLE of a fresh condition mark it, show the last good code where a reaction can
start, raise the source and start the unit's own reaction. That reaction, at severity 1 or below, the switch closed,
none running and none wider: BELAY_HOLD takes manual at the present code and moves to the last good one, open-fast
ends in the state of R75, SAFE, and BELAY_HOLD on a unit that opens by command, takes manual and moves to mid-scale.
LOF_HOLD at the target code clears LOF_RAMP and sets BELAY. LOF_SAFE_OPEN opens the unit, at mid-scale or 1 ms after
the ramp began. PL_LEARNED after 4,096 samples sets PL_LEARNED. Where the rules leave a point open, it follows the
choices of log entries 28, 39, 123, 125, 150. -/
def Obligations.LoopAndFeedbackCommands : Prop :=
  ∀ s : State,
    (∀ (p : Fin 256) (i : Nat), (s.unit p).eng.autoReq = some i →
      (s.is (ENG_UCTRL p) ENG_UCTRL.AUTO = false → Completes (.manualTransfer p) s (fun t =>
        t.now = max s.now (s.nextBoundary (p.val / 16) i) ∧ t.is (ENG_USTAT p) ENG_USTAT.AUTO_ACT = false ∧
        t.rd (ENG_MANUAL p) = s.rd (if (s.advance (s.nextBoundary (p.val / 16) i)).hostWrote (ENG_MANUAL p) then
          ENG_MANUAL p else CH_DAC p) ∧ (t.unit p).eng.autoReq = none ∧ t.is (CH_STAT p) CH_STAT.IN_CMPL = false ∧
        SameRegs [CH_STAT p, ENG_MANUAL p, ENG_UCTRL p, ENG_USTAT p] s t ∧ SameMem s t)) ∧
      (s.is (ENG_UCTRL p) ENG_UCTRL.AUTO = true → (s.unit p).swReq ≠ none → exec (.autoTransfer p) s = .next s) ∧
      (s.is (ENG_UCTRL p) ENG_UCTRL.AUTO = true → (s.unit p).swReq = none → Completes (.autoTransfer p) s (fun t =>
        t.now = max s.now (s.nextBoundary (p.val / 16) i) ∧ t.is (ENG_USTAT p) ENG_USTAT.AUTO_ACT = true ∧
        (t.unit p).eng.autoReq = none ∧ (t.unit p).eng.preset = .auto ∧ (t.unit p).eng.lof = .none ∧
        (t.unit p).gen.x = clampI (-(5 * 2 ^ 42)) (5 * 2 ^ 42) (s.measuredPos p) ∧ (t.unit p).gen.w = 0 ∧
        t.is (CH_STAT p) CH_STAT.SAFE = (s.is (CH_STAT p) CH_STAT.SAFE && !s.isBoost p) ∧
        SameRegs [CH_STAT p, ENG_USTAT p, ENG_FRZ p, ENG_PL_RES p, PRF_OUT p, PRF_NFILT p, PRF_USTAT p] s t ∧ SameMem s t))) ∧
    (∀ t : Fin 16, Completes (.rateChange t) s (fun u =>
      let n := max s.now (s.rateInstant t)
      let rest := (s.region t).ratePend.filter (fun x => !(x.1 + 8 ≤ n))
      let w := match rest with | (_, old) :: _ => old | [] => s.rdF (ENG_CTRL t) ENG_CTRL.RATE
      u.now = n ∧ (u.region t).ratePend = rest ∧ u.is (ENG_CTRL t) ENG_CTRL.RATE_PEND = decide (rest ≠ []) ∧
      u.rdF (TMP_RGN t) TMP_RGN.EFF_RATE = (if decide (1 ≤ s.rdF (TMP_RGN t) TMP_RGN.ENF) !=
        (s.region t).enfAt.any (fun a => decide (n < a + 8)) then max w (min 6 (s.rdF TMP_ENF_CFG TMP_ENF_CFG.RATE)) else w) % 2 ^ TMP_RGN.EFF_RATE.len ∧
      s.rateInstant t % 80000 = 0 ∧ (u.region t).enfAt = (s.region t).enfAt.filter (fun a => n < a + 8) ∧
      SameRegs ([ENG_CTRL t, TMP_RGN t, PRF_STAT t] ++ (unitsOf t).flatMap (fun p =>
        [CH_STAT p, CH_NCO_CTRL p, PRF_NFILT p, PRF_USTAT p, MEA_U_FILT p, MEA_U_STAT p])) s u ∧ SameMem s u)) ∧
    (∀ p : Fin 256, s.freshImplausible p = true →
      let good := s.goodCode p (s.goodAge p)
      let u := s.modUnit p (fun u => { u with eng := { u.eng with plLive := true } })
      let w := if s.lofFree p then u.wrN (ENG_GOOD_DAC p) good else u
      exec (.feedbackImplausible p) s = .next ((w.raiseUnit .feedbackImplausible p 0 true).lofStart .feedbackImplausible p good)) ∧
    (∀ p : Fin 256, s.freshFrozen p = (true, false) →
      let good := s.goodCode p (s.goodAge p)
      let u := s.modUnit p (fun u => { u with eng := { u.eng with frzV := true } })
      let w := if s.lofFree p then u.wrN (ENG_GOOD_DAC p) good else u
      exec (.feedbackFrozen p) s = .next ((w.raiseUnit .feedbackFrozen p 0 true).lofStart .feedbackFrozen p good)) ∧
    (∀ p : Fin 256, s.freshFrozen p = (false, true) →
      let good := s.goodCode p (s.goodAge p)
      let u := s.modUnit p (fun u => { u with eng := { u.eng with frzI := true } })
      let w := if s.lofFree p then u.wrN (ENG_GOOD_DAC p) good else u
      exec (.feedbackFrozen p) s = .next ((w.raiseUnit .feedbackFrozen p 0 true).lofStart .feedbackFrozen p good)) ∧
    (∀ (p : Fin 256) (k : FaultKind) (good : Nat), s.closed p = true → (s.unit p).eng.lof = .none → s.underReaction p = false →
      s.sevOf (srcNum k (p / 64)) ≤ 1 → good < 2 ^ 20 →
      ((s.lofStart k p good).rdN (ENG_GOOD_DAC p) = good ∧
      (s.rdF (ENG_UCTRL p) ENG_UCTRL.LOF = 1 → (s.unit p).safe = .none → ((s.lofStart k p good).unit p).eng.lof = .belay ∧
        ((s.lofStart k p good).unit p).eng.lofTarget = good ∧ (s.lofStart k p good).is (ENG_USTAT p) ENG_USTAT.LOF_RAMP = true ∧
        (s.lofStart k p good).is (ENG_USTAT p) ENG_USTAT.AUTO_ACT = false) ∧
      (s.rdF (ENG_UCTRL p) ENG_UCTRL.LOF = 2 → (s.lofStart k p good).closed p = false ∧
        (s.lofStart k p good).is (CH_STAT p) CH_STAT.SAFE = true ∧ (s.lofStart k p good).rdN (CH_DAC p) = 0x80000) ∧
      (s.rdF (ENG_UCTRL p) ENG_UCTRL.LOF = 0 ∨ s.rdF (ENG_UCTRL p) ENG_UCTRL.LOF = 1 ∧ (s.unit p).safe ≠ .none → ((s.lofStart k p good).unit p).eng.lof = .safe ∧
        ((s.lofStart k p good).unit p).safe = .openLoop ∧ (s.lofStart k p good).rd (ENG_MANUAL p) = s.rd (CH_DAC p) ∧
        (s.lofStart k p good).is (ENG_USTAT p) ENG_USTAT.AUTO_ACT = false))) ∧
    (∀ p : Fin 256, (s.unit p).eng.lof = .belay → s.is (ENG_USTAT p) ENG_USTAT.LOF_RAMP = true →
      s.rdN (CH_DAC p) = (s.unit p).eng.lofTarget → Completes (.lofHold p) s (fun t =>
        t.is (ENG_USTAT p) ENG_USTAT.LOF_RAMP = false ∧ t.is (ENG_USTAT p) ENG_USTAT.BELAY = true ∧
        SameRegs [ENG_USTAT p] s t ∧ SameMem s t)) ∧
    (∀ p : Fin 256, (s.unit p).eng.lof = .safe → Completes (.lofSafeOpen p) s (fun t =>
      t.now = (if s.rdN (CH_DAC p) = 0x80000 then s.now else max s.now ((s.unit p).eng.lofFrom + 800000)) ∧
      t.is (CH_STAT p) CH_STAT.OUT_CLOSED = false ∧ t.is (CH_STAT p) CH_STAT.SAFE = true ∧ t.rdN (CH_DAC p) = 0x80000 ∧
      (t.unit p).eng.lof = .none ∧ SameMem s t)) ∧
    (∀ p : Fin 256, s.is (ENG_PL_CFG p) ENG_PL_CFG.LEARN = true → 4096 ≤ (s.unit p).eng.plSeen →
      Completes (.plLearned p) s (fun t => t.is (ENG_USTAT p) ENG_USTAT.PL_LEARNED = true ∧ OnlyRegs [ENG_USTAT p] s t))

/-- O23. Limit registers of the profile, and the requests to the waveform player. Derived from
05_setpoints_sweeps_waveforms.md, 15_register_maps.md. PROFILE_LIMIT_WRITE, carried out, on a follower of a gang
changes nothing; on any other unit a NaN or a value not above 0 changes nothing but LIM_ERR; a valid value is stored,
pends while the unit moves, and is in force with the other five limits at once where it does not. LIMITS_APPLY at rest
advances to the next loop boundary and puts the six limits in force. WF_START, carried out, outside a thermal shutdown
(R404), with a valid descriptor of START_SEG: the player runs, at pass 0 of that segment, sample 0 due at the first
eligible boundary; a running player, or a thermal shutdown, sets START_IGN only. WF_ABORT of a player that neither
waits nor is stalled sets ABORT and asks for a stop at the next sample boundary, moved to one of the skipped granule
in a hold. WF_JUMP_REQ sets REQ, records the target and whether the request is late for the present pass, and sets
JUMP_LATE where it is or the player waits (R176, R183). STR_POST pays the debt first, then fills, and sets OVERPOST
for the excess. Where the rules leave a point open, it follows the choices of log entries 151, 153. -/
def Obligations.ProfileLimitsAndPlayerRequests : Prop :=
  ∀ (s : State) (p : Fin 256) (t : Fin 16),
    (∀ (f : Fin 8) (l : Fin 6) (v : Word), s.Carried f (limReg p l) v → s.follower p = true →
      Completes (.profileLimitWrite f p l v) s (fun u => OnlyRegs [] s u)) ∧
    (∀ (f : Fin 8) (l : Fin 6) (v : Word), s.Carried f (limReg p l) v → s.follower p = false →
      (limOf v = none → Completes (.profileLimitWrite f p l v) s (fun u =>
        u.is (PRF_USTAT p) PRF_USTAT.LIM_ERR = true ∧ OnlyRegs [PRF_USTAT p] s u)) ∧
      (limOf v ≠ none → s.is (PRF_USTAT p) PRF_USTAT.MOVING = true → Completes (.profileLimitWrite f p l v) s (fun u =>
        u.rd (limReg p l) = v ∧ u.is (PRF_USTAT p) PRF_USTAT.LIM_PEND = true ∧ OnlyRegs [limReg p l, PRF_USTAT p] s u)) ∧
      (limOf v ≠ none → s.is (PRF_USTAT p) PRF_USTAT.MOVING = false → Completes (.profileLimitWrite f p l v) s (fun u =>
        u.rd (limReg p l) = v ∧ u.is (PRF_USTAT p) PRF_USTAT.LIM_PEND = false ∧
        (u.unit p).gen.lim = (List.range 6).map (fun k => if k = l.val then v else s.rd (limReg p k)) ∧
        SameRegs [limReg p l, PRF_USTAT p, PRF_NFILT p] s u ∧ SameMem s u))) ∧
    (s.is (PRF_USTAT p) PRF_USTAT.LIM_PEND = true → s.is (PRF_USTAT p) PRF_USTAT.MOVING = false →
      Completes (.limitsApply p) s (fun u => u.now = max s.now (s.boundary (p / 16)) ∧
        u.is (PRF_USTAT p) PRF_USTAT.LIM_PEND = false ∧
        (u.unit p).gen.lim = (List.range 6).map (fun k => s.rd (limReg p k)) ∧
        SameRegs [PRF_USTAT p, PRF_NFILT p] s u ∧ SameMem s u)) ∧
    (∀ f : Fin 8, s.Carried f (PRF_CTRL t) (setFld (s.rd (PRF_CTRL t)) PRF_CTRL.START 1) →
      (s.playing t = false → s.is TMP_SHUT TMP_SHUT.SHUT = false → s.descOk t (s.rdF (PRF_CTRL t) PRF_CTRL.START_SEG) = true → Completes (.wfStart f t) s (fun u =>
        u.playing t = true ∧ u.rdF (PRF_STAT t) PRF_STAT.CUR_SEG = s.rdF (PRF_CTRL t) PRF_CTRL.START_SEG ∧
        u.rd (PRF_PASS t) = 0#32 ∧ (u.player t).next = 0 ∧ (u.player t).nextAt = s.eligible t s.now ∧ SameMem s u)) ∧
      (s.playing t = true ∨ s.is TMP_SHUT TMP_SHUT.SHUT = true → Completes (.wfStart f t) s (fun u =>
        u.is (PRF_STAT t) PRF_STAT.START_IGN = true ∧ OnlyRegs [PRF_STAT t] s u))) ∧
    (∀ f : Fin 8, s.Carried f (PRF_CTRL t) (setFld (s.rd (PRF_CTRL t)) PRF_CTRL.ABORT 1) → s.playing t = true →
      s.is (PRF_STAT t) PRF_STAT.STALLED = false → s.is (PRF_STAT t) PRF_STAT.WAITING = false →
      Completes (.wfAbort f t) s (fun u => (u.player t).abort = true ∧
        u.is (PRF_CTRL t) PRF_CTRL.ABORT = true ∧ (s.is (PRF_STAT t) PRF_STAT.HOLDING = false → (u.player t).nextAt = (s.player t).nextAt) ∧
        (u.player t).nextAt ≤ (s.player t).nextAt ∧ (s.now < (s.player t).nextAt → s.now < (u.player t).nextAt) ∧
        SameRegs [PRF_CTRL t] s u ∧ SameMem s u)) ∧
    (∀ f : Fin 8, s.Carried f (PRF_WF_JUMP t) (setFld (s.rd (PRF_WF_JUMP t)) PRF_WF_JUMP.REQ 1) → s.playing t = true →
      Completes (.wfJumpReq f t) s (fun u =>
        (u.player t).jump = some (s.rdF (PRF_WF_JUMP t) PRF_WF_JUMP.TARGET,
          !s.is (PRF_STAT t) PRF_STAT.WAITING && s.jumpLate t, 0) ∧
        u.is (PRF_STAT t) PRF_STAT.JUMP_LATE = (s.is (PRF_STAT t) PRF_STAT.JUMP_LATE || s.is (PRF_STAT t) PRF_STAT.WAITING ||
          s.jumpLate t) ∧
        u.is (PRF_STAT t) PRF_STAT.JUMP_PEND = true ∧
        u.is (PRF_STAT t) PRF_STAT.JUMP_REPL = (s.is (PRF_STAT t) PRF_STAT.JUMP_REPL || (s.player t).jump != none) ∧
        u.is (PRF_WF_JUMP t) PRF_WF_JUMP.REQ = true ∧ SameRegs [PRF_STAT t, PRF_WF_JUMP t] s u ∧ SameMem s u)) ∧
    (∀ (f : Fin 8) (v : Word), s.Carried f (PRF_STR_POST t) v → s.rdN (PRF_STR_DEBT t) = 0 →
      s.rdF (PRF_STR_STAT t) PRF_STR_STAT.FILLED ≤ s.ringSlots t → s.ringSlots t < 2 ^ 13 → Completes (.strPost f t v) s (fun u =>
        u.rdF (PRF_STR_STAT t) PRF_STR_STAT.FILLED =
          min (s.ringSlots t) (s.rdF (PRF_STR_STAT t) PRF_STR_STAT.FILLED + v.toNat % 2 ^ 13) ∧
        u.rdN (PRF_STR_DEBT t) = 0 ∧ u.is (PRF_STAT t) PRF_STAT.OVERPOST = (s.is (PRF_STAT t) PRF_STAT.OVERPOST ||
          decide (s.ringSlots t < s.rdF (PRF_STR_STAT t) PRF_STR_STAT.FILLED + v.toNat % 2 ^ 13)) ∧
        SameRegs [PRF_STR_STAT t, PRF_STAT t, PRF_STR_DEBT t] s u ∧ SameMem s u))

/-- O24. Samples, passes, waits and underruns of the waveform player. Derived from 05_setpoints_sweeps_waveforms.md.
WF_SAMPLE of a player with a sample due, no stop requested and no codeword in error: the sample of the boundary is
read for every track, from which the units that follow the player form their targets, a target kept by a stop ends,
HOLDING clears, the index and the next instant move on by one sample period; with a stop requested the player stops.
WF_PASS_END advances to the end of the last sample's period: with a stop requested the player stops there, without its
event; of an endless segment without a jump begins the next pass; at the last pass of a segment with END it stops the
player and emits its event. WF_WAIT_END ends the wait at the boundary and goes on with that boundary. UNDERRUN in
stall mode begins the episode and stalls at that instant, in hold mode it skips the granule. STALL_RESUME ends the
stall with the sample that was missing. Where the rules leave a point open, it follows the choices of log entries 47,
127, 151, 152, 153. -/
def Obligations.PlayerSamplesAndPasses : Prop :=
  ∀ (s : State) (t : Fin 16),
    (s.sampleDue t = true → (s.player t).abort = true → Completes (.wfSample t) s (fun u =>
      u.now = max s.now (s.player t).nextAt ∧ u.playing t = false ∧ (u.player t).abort = false ∧
      SameRegs [PRF_STAT t, PRF_CTRL t, PRF_WF_JUMP t, PRF_STALL_LO t, PRF_STALL_LO t + 4] s u ∧ SameMem s u)) ∧
    (s.sampleDue t = true → (s.player t).abort = false → (s.player t).stream = false → 0 < (s.player t).next →
      s.ecc = [] → Completes (.wfSample t) s (fun u => u.now = max s.now (s.player t).nextAt ∧
        (u.player t).next = (s.player t).next + 1 ∧ (u.player t).nextAt = u.now + s.wfPeriod t ∧
        u.is (PRF_STAT t) PRF_STAT.HOLDING = false ∧ SameRegs [PRF_STAT t] s u ∧ SameMem s u ∧
        (u.player t).sample = (List.range (s.tracks t)).map (fun k =>
          signed 32 (s.mem64 (s.sampleAddr t (s.player t).next + 4 * k) 4)) ∧
        ∀ p : Fin 256, p.val / 16 = t → (u.unit p).gen.keep = none)) ∧
    (s.playing t = true → (s.player t).total ≤ (s.player t).next → s.is (PRF_STAT t) PRF_STAT.STALLED = false →
      ((s.player t).abort = true → Completes (.wfPassEnd t) s (fun u => u.now = max s.now (s.player t).nextAt ∧ u.playing t = false ∧
        (u.player t).abort = false ∧ SameRegs [PRF_PASS t, PRF_STAT t, PRF_CTRL t, PRF_WF_JUMP t, PRF_STALL_LO t, PRF_STALL_LO t + 4] s u ∧
        SameMem s u)) ∧
      ((s.player t).abort = false → (s.player t).jump = none → (s.player t).loops = 0xFFFF → Completes (.wfPassEnd t) s (fun u =>
        u.now = max s.now (s.player t).nextAt ∧ (u.player t).next = 0 ∧ (u.player t).firstPass = false ∧
        u.rdF (PRF_PASS t) ⟨0, 16⟩ = (s.rdN (PRF_PASS t) + 1) % 2 ^ 16 ∧ SameRegs [PRF_PASS t] s u ∧ SameMem s u)) ∧
      ((s.player t).abort = false → (s.player t).jump = none → (s.player t).loops < s.rdN (PRF_PASS t) + 1 → (s.player t).loops ≠ 0xFFFF → s.rdN (PRF_PASS t) < 0xFFFF →
        (s.player t).seg PRF_SEG_CTRL.END = 1 → ∃ u : State, u.now = max s.now (s.player t).nextAt ∧ u.playing t = false ∧
          u.rdN (PRF_PASS t) = s.rdN (PRF_PASS t) + 1 ∧ exec (.wfPassEnd t) s = .next (u.emitRegion t evWfEnd))) ∧
    (∀ a : Nat, s.playing t = true → s.is (PRF_STAT t) PRF_STAT.WAITING = true → (s.player t).trigAt = some a →
      ∃ u : State, u.now = max s.now (max (s.effectAt t a) (s.player t).nextAt) ∧
        u.is (PRF_STAT t) PRF_STAT.WAITING = false ∧ (u.player t).trigAt = none ∧
        (u.player t).segLin = max (s.player t).segLin (s.player t).trigLin ∧ SameRegs [PRF_STAT t] s u ∧ SameMem s u ∧
        exec (.wfWaitEnd t) s = .next (u.sampleNow t)) ∧
    (s.sampleDue t = true → s.granuleMissing t (max s.now (s.player t).nextAt) = true →
      (s.is (PRF_CTRL t) PRF_CTRL.UNDERRUN_MODE = true → Completes (.underrun t) s (fun u =>
        u.is (PRF_STAT t) PRF_STAT.STALLED = true ∧ (u.player t).stallFrom = max s.now (s.player t).nextAt)) ∧
      (s.is (PRF_CTRL t) PRF_CTRL.UNDERRUN_MODE = false → exec (.underrun t) s =
        .next (((s.advance (s.player t).nextAt).episodeStart t).skipGranule t))) ∧
    (∀ (i n : Nat) (l : List (Nat × Nat)), (s.player t).posts = (i, n) :: l → s.playing t = true →
      s.is (PRF_STAT t) PRF_STAT.STALLED = true → ∃ u : State,
        u.now = max s.now (nextMultiple (s.period t) (max (i + 32) s.now)) ∧ u.is (PRF_STAT t) PRF_STAT.STALLED = false ∧
        (u.player t).resumedAt = u.now ∧ u.rd64 (PRF_STALL_LO t) = (s.rd64 (PRF_STALL_LO t) + (u.now - (s.player t).stallFrom)) % 2 ^ 64 ∧
        SameRegs [PRF_STAT t, PRF_STALL_LO t, PRF_STALL_LO t + 4] s u ∧ SameMem s u ∧
        exec (.stallResume t) s = .next (u.enterSample t))

/-- O25. NOP, HALT, GO, UMASK, FORCE, MEAS, RNGA, WAITT, WAITTM and FIRE, each where building executes it. Derived from
06_step_sequencer_and_foothold.md, 01_six_levels.md. For every state and region where building can execute the
instruction: the foothold in construction, its program counter already at the next word, takes exactly the field that
the instruction stages (the terminators make it ready with their dwell), where what it has read meets a host write of
the same PCLK cycle every foothold is squashed (R198), and the look-ahead follows. RNGA also adds the CH_MODE
registers of UMASK to the read set. Nothing is applied to a unit before the commit. SeqReady, seqAt, seqFoot and
seqArg of Safety.lean say when an instruction executes, and in which state, on which foothold and with which operand
bits. Where the rules leave a point open, it follows the choice of log entry 49. -/
def Obligations.SequencerStepInstructions : Prop :=
  ∀ (s : State) (t : Fin 16),
    (∀ op : Nat, s.SeqReady t op → (s.seqAt t).lastFoot t = some (s.seqFoot t) ∧ (s.seqFoot t).ready = false ∧
      (s.seqFoot t).prog.pc = (((s.seqLook t).buildProg t).pc + 1) % 2 ^ 14) ∧
    (∀ u : State, u.cycWrote = [] → u.cycMem = [] → (s.seqLook t).meetHost u t = u) ∧
    (s.SeqReady t 0x00 → exec (.seqNop t) s = .next (s.seqGo (s.seqAt t) t (s.seqFoot t))) ∧
    (s.SeqReady t 0x01 → exec (.seqHalt t) s = .next (s.seqGo (s.seqAt t) t
      { (s.seqFoot t) with ready := true, readyAt := (s.seqAt t).now, dwell := 0, halt := true })) ∧
    (s.SeqReady t 0x02 → exec (.seqGo t) s = .next (s.seqGo (s.seqAt t) t
      { (s.seqFoot t) with ready := true, readyAt := (s.seqAt t).now, dwell := (s.seqArg t) % 2 ^ 24, halt := false })) ∧
    (s.SeqReady t 0x04 → exec (.seqUmask t) s = .next (s.seqGo (s.seqAt t) t
      { (s.seqFoot t) with prog := { (s.seqFoot t).prog with umask := (s.seqArg t) % 2 ^ 16 } })) ∧
    (s.SeqReady t 0x06 → exec (.seqForce t) s = .next (s.seqGo (s.seqAt t) t
      { (s.seqFoot t) with forces := (s.seqFoot t).forces ++ [((s.seqArg t) % 4, (s.seqFoot t).prog.umask)] })) ∧
    (s.SeqReady t 0x07 → exec (.seqMeas t) s = .next (s.seqGo (s.seqAt t) t
      { (s.seqFoot t) with meas := (s.seqFoot t).meas ++ [((s.seqArg t) % 16, bitOf (s.seqArg t) 4, (s.seqFoot t).prog.umask)] }))
      ∧
    (s.SeqReady t 0x08 → exec (.seqRnga t) s = .next (s.seqGo (s.seqAt t) t
      { (s.seqFoot t) with rnga := (s.seqFoot t).rnga ++ [((s.seqFoot t).prog.umask, (s.seqArg t) % 8, (s.seqArg t) / 8 % 8)], regs := (s.seqFoot t).regs ++ (indices 16 (bitOf (s.seqFoot t).prog.umask)).map (fun u => CH_MODE (16 * t + u)) }))
      ∧
    (s.SeqReady t 0x0B → exec (.seqWaitt t) s = .next (s.seqGo (s.seqAt t) t
      { (s.seqFoot t) with waitt := withBit (s.seqFoot t).waitt ((s.seqArg t) % 4) })) ∧
    (s.SeqReady t 0x0C → exec (.seqWaittm t) s = .next (s.seqGo (s.seqAt t) t
      { (s.seqFoot t) with waittm := some (max ((s.seqFoot t).waittm.getD 0) ((s.seqArg t) % 2 ^ 24)) })) ∧
    (s.SeqReady t 0x0D → exec (.seqFire t) s = .next (s.seqGo (s.seqAt t) t
      { (s.seqFoot t) with fires := (s.seqFoot t).fires ++ [(s.seqArg t) % 512] }))

/-- O26. LDC, ADDC, LOOP, BRZ, JMP, BRV, BRO, BRE, CALL, RET and LDS, each where building executes it. Derived from
06_step_sequencer_and_foothold.md, 01_six_levels.md. For every state and region where building can execute the
instruction. A counter is read from the foothold in construction where it has written it, and from SEQ_CNT where no
foothold has, which then joins the read set. LDC writes the operand, ADDC adds the signed operand modulo 2^32, LOOP
decrements and branches until 0 is reached and leaves a counter of 0 alone, BRZ branches at 0. BRV compares the
verdict bit, BRO the mask bit of the last outcome, BRE the E flag. CALL pushes the next address, RET returns to the
one on top. LDS sets SWP. Where the rules leave a point open, it follows the choice of log entry 49. -/
def Obligations.SequencerCountersAndBranches : Prop :=
  ∀ (s : State) (t : Fin 16),
    (s.SeqReady t 0x0E → exec (.seqLdc t) s = .next (s.seqGo (s.seqAt t) t
      { (s.seqFoot t) with prog := { (s.seqFoot t).prog with cnt := (s.seqFoot t).prog.cnt.filter (fun c => c.1 ≠ ((s.seqArg t) / 2 ^ 20 % 8)) ++ [(((s.seqArg t) / 2 ^ 20 % 8), (s.seqArg t) % 2 ^ 20)] } }))
      ∧
    (s.SeqReady t 0x0F → (∀ g ∈ ((s.seqAt t).seq t).foot, g.prog.cnt.find? (fun c => c.1 = ((s.seqArg t) / 2 ^ 20 % 8)) =
      none) →
      exec (.seqAddc t) s = .next (s.seqGo (s.seqAt t) t
      { (s.seqFoot t) with regs := (s.seqFoot t).regs ++ [SEQ_CNT t ((s.seqArg t) / 2 ^ 20 % 8)], prog := { (s.seqFoot t).prog with cnt := (s.seqFoot t).prog.cnt.filter (fun c => c.1 ≠ ((s.seqArg t) / 2 ^ 20 % 8)) ++ [(((s.seqArg t) / 2 ^ 20 % 8), unsigned 32 ((((s.seqAt t).rdN (SEQ_CNT t ((s.seqArg t) / 2 ^ 20 % 8))) : Int) + signed 20 ((s.seqArg t) % 2 ^ 20)) % 2 ^ 32)] } }))
      ∧
    (∀ m v : Nat, s.SeqReady t 0x0F → (s.seqFoot t).prog.cnt.find? (fun c => c.1 = ((s.seqArg t) / 2 ^ 20 % 8)) = some (m,
      v) →
      exec (.seqAddc t) s = .next (s.seqGo (s.seqAt t) t
      { (s.seqFoot t) with regs := (s.seqFoot t).regs, prog := { (s.seqFoot t).prog with cnt := (s.seqFoot t).prog.cnt.filter (fun c => c.1 ≠ ((s.seqArg t) / 2 ^ 20 % 8)) ++ [(((s.seqArg t) / 2 ^ 20 % 8), unsigned 32 ((v : Int) + signed 20 ((s.seqArg t) % 2 ^ 20)) % 2 ^ 32)] } }))
      ∧
    (s.SeqReady t 0x10 → (∀ g ∈ ((s.seqAt t).seq t).foot, g.prog.cnt.find? (fun c => c.1 = ((s.seqArg t) / 2 ^ 20 % 8)) =
      none) →
      exec (.seqLoop t) s = .next (s.seqGo (s.seqAt t) t
      { (s.seqFoot t) with regs := (s.seqFoot t).regs ++ [SEQ_CNT t ((s.seqArg t) / 2 ^ 20 % 8)], prog := (if ((s.seqAt t).rdN (SEQ_CNT t ((s.seqArg t) / 2 ^ 20 % 8))) = 0 then (s.seqFoot t).prog else { (s.seqFoot t).prog with cnt := (s.seqFoot t).prog.cnt.filter (fun c => c.1 ≠ ((s.seqArg t) / 2 ^ 20 % 8)) ++ [(((s.seqArg t) / 2 ^ 20 % 8), (((s.seqAt t).rdN (SEQ_CNT t ((s.seqArg t) / 2 ^ 20 % 8))) - 1) % 2 ^ 32)], pc := if ((s.seqAt t).rdN (SEQ_CNT t ((s.seqArg t) / 2 ^ 20 % 8))) = 1 then (s.seqFoot t).prog.pc else (s.seqArg t) % 2 ^ 14 }) }))
      ∧
    (∀ m v : Nat, s.SeqReady t 0x10 → (s.seqFoot t).prog.cnt.find? (fun c => c.1 = ((s.seqArg t) / 2 ^ 20 % 8)) = some (m,
      v) →
      exec (.seqLoop t) s = .next (s.seqGo (s.seqAt t) t
      { (s.seqFoot t) with regs := (s.seqFoot t).regs, prog := (if v = 0 then (s.seqFoot t).prog else { (s.seqFoot t).prog with cnt := (s.seqFoot t).prog.cnt.filter (fun c => c.1 ≠ ((s.seqArg t) / 2 ^ 20 % 8)) ++ [(((s.seqArg t) / 2 ^ 20 % 8), (v - 1) % 2 ^ 32)], pc := if v = 1 then (s.seqFoot t).prog.pc else (s.seqArg t) % 2 ^ 14 }) }))
      ∧
    (s.SeqReady t 0x12 → (∀ g ∈ ((s.seqAt t).seq t).foot, g.prog.cnt.find? (fun c => c.1 = ((s.seqArg t) / 2 ^ 20 % 8)) =
      none) →
      exec (.seqBrz t) s = .next (s.seqGo (s.seqAt t) t
      { (s.seqFoot t) with regs := (s.seqFoot t).regs ++ [SEQ_CNT t ((s.seqArg t) / 2 ^ 20 % 8)], prog := { (s.seqFoot t).prog with pc := if ((s.seqAt t).rdN (SEQ_CNT t ((s.seqArg t) / 2 ^ 20 % 8))) = 0 then (s.seqArg t) % 2 ^ 14 else (s.seqFoot t).prog.pc } }))
      ∧
    (∀ m v : Nat, s.SeqReady t 0x12 → (s.seqFoot t).prog.cnt.find? (fun c => c.1 = ((s.seqArg t) / 2 ^ 20 % 8)) = some (m,
      v) →
      exec (.seqBrz t) s = .next (s.seqGo (s.seqAt t) t
      { (s.seqFoot t) with regs := (s.seqFoot t).regs, prog := { (s.seqFoot t).prog with pc := if v = 0 then (s.seqArg t) % 2 ^ 14 else (s.seqFoot t).prog.pc } }))
      ∧
    (s.SeqReady t 0x11 → exec (.seqJmp t) s = .next (s.seqGo (s.seqAt t) t
      { (s.seqFoot t) with prog := { (s.seqFoot t).prog with pc := (s.seqArg t) % 2 ^ 14 } })) ∧
    (s.SeqReady t 0x13 → exec (.seqBrv t) s = .next (s.seqGo (s.seqAt t) t
      { (s.seqFoot t) with prog := { (s.seqFoot t).prog with pc := if bitOf ((s.seqAt t).rdN (SEQ_VERD t)) ((s.seqArg t) / 2 ^ 22 % 16) = bitOf (s.seqArg t) 21 then (s.seqArg t) % 2 ^ 14 else (s.seqFoot t).prog.pc } }))
      ∧
    (s.SeqReady t 0x14 → exec (.seqBro t) s = .next (s.seqGo (s.seqAt t) t
      { (s.seqFoot t) with prog := { (s.seqFoot t).prog with pc := if bitOf ((s.seqArg t) / 2 ^ 14 % 16) ((s.seqAt t).rdN (SEQ_OUTCOME t) % 4) then (s.seqArg t) % 2 ^ 14 else (s.seqFoot t).prog.pc } }))
      ∧
    (s.SeqReady t 0x15 → exec (.seqBre t) s = .next (s.seqGo (s.seqAt t) t
      { (s.seqFoot t) with prog := { (s.seqFoot t).prog with pc := if (s.seqFoot t).prog.e then (s.seqArg t) % 2 ^ 14 else (s.seqFoot t).prog.pc } }))
      ∧
    (s.SeqReady t 0x16 → exec (.seqCall t) s = .next (s.seqGo (s.seqAt t) t
      { (s.seqFoot t) with prog := { (s.seqFoot t).prog with stack := (s.seqFoot t).prog.pc :: (s.seqFoot t).prog.stack, pc := (s.seqArg t) % 2 ^ 14 } }))
      ∧
    (s.SeqReady t 0x17 → exec (.seqRet t) s = .next (s.seqGo (s.seqAt t) t
      { (s.seqFoot t) with prog := { (s.seqFoot t).prog with pc := (s.seqFoot t).prog.stack.headD 0, stack := (s.seqFoot t).prog.stack.drop 1 } }))
      ∧
    (s.SeqReady t 0x19 → exec (.seqLds t) s = .next (s.seqGo (s.seqAt t) t
      { (s.seqFoot t) with prog := { (s.seqFoot t).prog with swp := some ((s.seqArg t) % 2 ^ 18) } }))

/-- O27. SET, SITE, SITEW, SWEEP and BARRIER, each where building executes it. Derived from
06_step_sequencer_and_foothold.md, 01_six_levels.md. For every state and region where building can execute the
instruction. SET reads its second word, which joins the read set, stages it for the units of UMASK, and stands at the
word after it. SITE of a site inside the region's block stages the site with the pattern of its context, whose 256
bytes join the read set. SITEW stages the site and the pattern that the walker stream gives at the position it has
reached, and the stream's next position; a level comes from the level register, or with LSRC from the word of the
waveform block, which joins the read set. SWEEP with SWP inside the list stages the 16 bytes of the valid entry at
SWP, takes its E flag, advances SWP where the operand asks for it, and makes the foothold ready with the entry's
dwell; beyond the list, also where SWP is the register, which then joins the read set, building ends with error 4. A
BARRIER that is passed consumes CONT where it waits for the host, but for one written anew in the same cycle (R9),
after SEQ_HOST_WAIT where the arrival was not told yet. Where the rules leave a point open, it follows the choice of
log entry 49. -/
def Obligations.SequencerMemoryInstructions : Prop :=
  ∀ (s : State) (t : Fin 16),
    (s.SeqReady t 0x05 → (s.seqAt t).ecc = [] → exec (.seqSet t) s = .next (s.seqGo (s.seqAt t) t
      { ({ (s.seqFoot t) with mem := (s.seqFoot t).mem ++ [(((s.seqAt t).progAddr t (s.seqFoot t).prog.pc), 4)] }.stage ((s.seqArg t) % 16) ((s.seqAt t).mem64 ((s.seqAt t).progAddr t (s.seqFoot t).prog.pc) 4)) with prog := { (s.seqFoot t).prog with pc := ((s.seqFoot t).prog.pc + 1) % 2 ^ 14 } }))
      ∧
    (s.SeqReady t 0x09 → (s.seqAt t).ecc = [] → ((s.seqAt t).siteBlk t).1 ≤ (s.seqArg t) % 2 ^ 14 → (s.seqArg t) % 2 ^ 14
      < ((s.seqAt t).siteBlk t).1 + ((s.seqAt t).siteBlk t).2 →
      exec (.seqSite t) s = .next (s.seqGo (s.seqAt t) t
      { (s.seqFoot t) with mem := (s.seqFoot t).mem ++ [(((s.seqAt t).ctxAt (t / 4) ((s.seqArg t) % 2 ^ 14)), 256)], prog := { (s.seqFoot t).prog with site := some ((s.seqArg t) % 2 ^ 14) }, site := some { site := (s.seqArg t) % 2 ^ 14, sel := bitOf (s.seqArg t) 14, sa := (s.seqAt t).mem64 (((s.seqAt t).ctxAt (t / 4) ((s.seqArg t) % 2 ^ 14)) + 6) 2, sd := (s.seqAt t).mem64 (((s.seqAt t).ctxAt (t / 4) ((s.seqArg t) % 2 ^ 14)) + 8) 1 } }))
      ∧
    (∀ (k i : Nat) (V : State) (o : WsOut) (z : Nat), s.SeqReady t 0x0A → (s.seqAt t).ecc = [] → k = (s.seqArg t) % 4 → V
      = (s.seqAt t).wsShort (t / 4) k →
      (o, z) = V.wsDraw (t / 4) k ((s.seqAt t).footWalk t k) → i = (s.seqAt t).rdF (SITE_WS_GEOM (t / 4) k)
      SITE_WS_GEOM.SITEBASE + o.offset →
      ((s.seqAt t).siteBlk t).1 ≤ i → i < ((s.seqAt t).siteBlk t).1 + ((s.seqAt t).siteBlk t).2 →
      ((s.seqAt t).is (SITE_WS_CFG (t / 4) k) SITE_WS_CFG.LVL_EN = false → exec (.seqSitew t) s = .next (s.seqGo V t
      { (s.seqFoot t) with walk := (s.seqFoot t).walk.filter (fun (y : Nat × Nat) => y.1 ≠ k) ++ [(k, z)], wraps := if o.wrap && !(s.seqFoot t).wraps.contains k then (s.seqFoot t).wraps ++ [k] else (s.seqFoot t).wraps, mem := (s.seqFoot t).mem ++ (if V.is (SITE_WS_CFG (t / 4) k) SITE_WS_CFG.LSRC = true ∧ V.rdN (SITE_WS_LVLTAB (t / 4) k) + 4 * o.offset + 4 ≤ V.rdN (PRF_WF_SIZE t) then [(dieMem (t / 4) (V.rdN (PRF_WF_BASE t) + (V.rdN (SITE_WS_LVLTAB (t / 4) k) + 4 * o.offset)), 4)] else []) ++ [((s.seqAt t).ctxAt (t / 4) i, 256)], prog := { (s.seqFoot t).prog with site := some i }, site := some { site := i, sel := bitOf (s.seqArg t) 14, sa := o.addr, sd := o.data } }))
      ∧
      ((s.seqAt t).is (SITE_WS_CFG (t / 4) k) SITE_WS_CFG.LVL_EN = true → (s.seqAt t).is (SITE_WS_CFG (t / 4) k)
      SITE_WS_CFG.LSRC = false →
        exec (.seqSitew t) s = .next (s.seqGo V t
      ({ (s.seqFoot t) with walk := (s.seqFoot t).walk.filter (fun (y : Nat × Nat) => y.1 ≠ k) ++ [(k, z)], wraps := if o.wrap && !(s.seqFoot t).wraps.contains k then (s.seqFoot t).wraps ++ [k] else (s.seqFoot t).wraps, mem := (s.seqFoot t).mem ++ (if V.is (SITE_WS_CFG (t / 4) k) SITE_WS_CFG.LSRC = true ∧ V.rdN (SITE_WS_LVLTAB (t / 4) k) + 4 * o.offset + 4 ≤ V.rdN (PRF_WF_SIZE t) then [(dieMem (t / 4) (V.rdN (PRF_WF_BASE t) + (V.rdN (SITE_WS_LVLTAB (t / 4) k) + 4 * o.offset)), 4)] else []) ++ [((s.seqAt t).ctxAt (t / 4) i, 256)], prog := { (s.seqFoot t).prog with site := some i }, site := some { site := i, sel := bitOf (s.seqArg t) 14, sa := o.addr, sd := o.data } }.stage
      0 ((s.seqAt t).rdN (SITE_WS_LVL (t / 4) k o.level))))) ∧
      ((s.seqAt t).is (SITE_WS_CFG (t / 4) k) SITE_WS_CFG.LVL_EN = true → (s.seqAt t).is (SITE_WS_CFG (t / 4) k)
      SITE_WS_CFG.LSRC = true →
        V.rdN (SITE_WS_LVLTAB (t / 4) k) + 4 * o.offset + 4 ≤ V.rdN (PRF_WF_SIZE t) →
        exec (.seqSitew t) s = .next (s.seqGo V t
      ({ (s.seqFoot t) with walk := (s.seqFoot t).walk.filter (fun (y : Nat × Nat) => y.1 ≠ k) ++ [(k, z)], wraps := if o.wrap && !(s.seqFoot t).wraps.contains k then (s.seqFoot t).wraps ++ [k] else (s.seqFoot t).wraps, mem := (s.seqFoot t).mem ++ (if V.is (SITE_WS_CFG (t / 4) k) SITE_WS_CFG.LSRC = true ∧ V.rdN (SITE_WS_LVLTAB (t / 4) k) + 4 * o.offset + 4 ≤ V.rdN (PRF_WF_SIZE t) then [(dieMem (t / 4) (V.rdN (PRF_WF_BASE t) + (V.rdN (SITE_WS_LVLTAB (t / 4) k) + 4 * o.offset)), 4)] else []) ++ [((s.seqAt t).ctxAt (t / 4) i, 256)], prog := { (s.seqFoot t).prog with site := some i }, site := some { site := i, sel := bitOf (s.seqArg t) 14, sa := o.addr, sd := o.data } }.stage
      0 (V.mem64 (dieMem (t / 4) (V.rdN (PRF_WF_BASE t) + (V.rdN (SITE_WS_LVLTAB (t / 4) k) + 4 * o.offset))) 4))))) ∧
    (∀ (v a : Nat) (e : SweepEntry), s.SeqReady t 0x03 → (s.seqAt t).ecc = [] → (s.seqFoot t).prog.swp = some v → v <
      (s.seqAt t).rdN (PRF_SWP_LEN t) →
      a = (s.seqAt t).part (t / 4) 0 + 16 * ((s.seqAt t).rdN (PRF_SWP_BASE t) + v) →
      e =
      { setpt := (s.seqAt t).mem64 a 4, cmpl := (s.seqAt t).mem64 (a + 4) 2, mode := (s.seqAt t).mem64 (a + 6) 1, win := (s.seqAt t).mem64 (a + 7) 1, dwell := (s.seqAt t).mem64 (a + 8) 3, site := (s.seqAt t).mem64 (a + 12) 2, flags := (s.seqAt t).mem64 (a + 14) 2 }
      →
      e.bad ((s.seqAt t).mem64 (a + 11) 1) = false → e.site = 0xFFFF → exec (.seqSweep t) s = .next (s.seqGo (s.seqAt t) t
        { (s.seqFoot t) with mem := (s.seqFoot t).mem ++ [(a, 16)], entry := some e, ready := true, readyAt := (s.seqAt t).now, dwell := e.dwell, halt := false, prog := { (s.seqFoot t).prog with e := bitOf e.flags 0, swp := some (if bitOf (s.seqArg t) 0 then (v + 1) % 2 ^ 18 else v) } }))
      ∧
    (s.SeqReady t 0x03 → (∀ g ∈ ((s.seqAt t).seq t).foot, g.prog.swp = none) → (s.seqAt t).rdN (PRF_SWP_LEN t) ≤ (s.seqAt
      t).rdN (SEQ_SWP t) % 2 ^ 18 →
      exec (.seqSweep t) s = .next (s.seqGo (s.seqAt t) t
      { (s.seqFoot t) with regs := (s.seqFoot t).regs ++ [SEQ_SWP t], err := 4, readyAt := (s.seqAt t).now })) ∧
    (s.SeqReady t 0x03 → ∀ v : Nat, (s.seqFoot t).prog.swp = some v → (s.seqAt t).rdN (PRF_SWP_LEN t) ≤ v →
      exec (.seqSweep t) s = .next (s.seqGo (s.seqAt t) t { (s.seqFoot t) with err := 4, readyAt := (s.seqAt t).now })) ∧
    (s.SeqReady t 0x18 → bitOf (s.seqArg t) 1 = false → exec (.seqBarrier t) s = .next (s.seqGo (s.seqAt t) t (s.seqFoot
      t))) ∧
    (s.SeqReady t 0x18 → bitOf (s.seqArg t) 1 = true → ∃ u : State, exec (.seqBarrier t) s =
      .next ((((s.seqLook t).meetHost u t).seqLook t).refreshSeq t) ∧
      (u.seq t).told = none ∧ u.is (SEQ_CTRL t) SEQ_CTRL.CONT = (s.seqAt t).askedAgain (SEQ_CTRL t) SEQ_CTRL.CONT ∧
      u.rd (SEQ_CTRL t) = setFld ((s.seqAt t).rd (SEQ_CTRL t)) SEQ_CTRL.CONT (if (s.seqAt t).askedAgain (SEQ_CTRL t)
      SEQ_CTRL.CONT then 1 else 0) ∧
      (((s.seqAt t).seq t).told = some ((((s.seqAt t).buildProg t).pc + 2 ^ 14 - 1) % 2 ^ 14) →
        OnlyRegs [SEQ_CTRL t] ((s.seqAt t).modSeq t (fun q => { q with told := none })) u) ∧
      (((s.seqAt t).seq t).told ≠ some ((((s.seqAt t).buildProg t).pc + 2 ^ 14 - 1) % 2 ^ 14) →
        OnlyRegs [SEQ_CTRL t] (((s.seqAt t).emitRegion t evSeqHostWait).modSeq t (fun q => { q with told := none })) u))

/-- O28. Start, stop, abort and continue of a sequencer, and readings for its range look-ahead. Derived from
06_step_sequencer_and_foothold.md, 15_register_maps.md, 07_measurement_path.md. SEQ_START, carried out on a sequencer
that does not run, in a region that does not restart, outside a thermal shutdown: it runs from SEQ_START_PC with empty
stack, step number 0 and no foothold, and looks ahead; a running one, one of a region in nightlight mode, or any in a
thermal shutdown, sets START_IGN. SEQ_STOP with a confirmed step drops the footholds and stops at the close; without
one it stops at once. SEQ_ABORT with a confirmed step drops the footholds and closes the step with outcome ABORT from
the present instant; with none it takes the flow of ABORT at once; where a commit is decided already it waits for the
step that commits. CONT stays pending and ends WAIT_HOST. A write of SEQ_CTRL first squashes the footholds that read
it (R198). TAP_READING keeps the latest reading of a unit on which the first foothold looks ahead, beside those that
its decision point may still need; one with a conversion in a SUSPECT interval is discarded; its four conversions step
the pilot's dither. Where the rules leave a point open, it follows the choices of log entries 48, 50, 126, 172. -/
def Obligations.SequencerControl : Prop :=
  ∀ (s : State) (t : Fin 16),
    (∀ f : Fin 8, s.Carried f (SEQ_CTRL t) 1#32 →
      (s.seqRunning t = false → s.restarting t = false → s.is TMP_SHUT TMP_SHUT.SHUT = false → ∃ u : State, u.seqRunning t = true ∧ u.rd (SEQ_STEPNUM t) = 0#32 ∧
        u.rd (SEQ_STACK t) = 0#32 ∧ (u.seq t).foot = [] ∧ (u.seq t).stack = [] ∧ (u.seq t).conf = none ∧ (u.seq t).late = [] ∧
        (u.seq t).buildAt = some (s.rdN (SEQ_START_PC t) % 2 ^ 14) ∧ SameMem s u ∧
        SameRegs [SEQ_STAT t, SEQ_STACK t, SEQ_STEPNUM t] s u ∧ exec (.seqStart f t) s = .next (u.seqLook t)) ∧
      (s.seqRunning t = true ∨ s.is TMP_SHUT TMP_SHUT.SHUT = true → exec (.seqStart f t) s = .next (((s.wroteNow (SEQ_CTRL t) 1#32).regSquash (SEQ_CTRL t)).flag (SEQ_STAT t) SEQ_STAT.START_IGN true))) ∧
    (∀ f : Fin 8, s.accepts = true → s.refusal f (SEQ_CTRL t) true 1#32 = none → s.reachable (SEQ_CTRL t) = true → s.nightlight t = true →
      Completes (.seqStart f t) s (fun u => u.is (SEQ_STAT t) SEQ_STAT.START_IGN = true ∧ OnlyRegs [SEQ_STAT t] s u)) ∧
    (∀ f : Fin 8, s.Carried f (SEQ_CTRL t) 4#32 → s.seqRunning t = true →
      ((s.seq t).conf = none → exec (.seqStopReq f t) s = .next (((s.wroteNow (SEQ_CTRL t) 4#32).regSquash (SEQ_CTRL t)).seqStop t)) ∧
      ((s.seq t).conf ≠ none → Completes (.seqStopReq f t) s (fun u => (u.seq t).foot = [] ∧ (u.seq t).stopReq = true ∧
        (u.seq t).conf = (s.seq t).conf ∧ u.seqRunning t = true ∧
        SameRegs ([SEQ_STAT t, SEQ_SQ_HOST t] ++ (List.range 4).map (fun c => pilStat (4 * t + c))) s u ∧ SameMem s u))) ∧
    (∀ f : Fin 8, s.Carried f (SEQ_CTRL t) 8#32 → s.seqRunning t = true →
      (s.commitDecided t = false → (∀ c : ConfStep, (s.seq t).conf = some c → c.closing = none →
        Completes (.seqAbort f t) s (fun u => (u.seq t).foot = [] ∧ (u.seq t).hold = true ∧
          (u.seq t).conf = some { c with closing := some (2, s.now) } ∧ (u.seq t).abortLin = some 0 ∧
          SameRegs ([SEQ_STAT t, SEQ_SQ_HOST t, SEQ_SQ_ABORT t] ++ (List.range 4).map (fun c => pilStat (4 * t + c))) s u ∧ SameMem s u)) ∧
        ((s.seq t).conf = none → Completes (.seqAbort f t) s (fun u => (u.seq t).foot = [] ∧ (u.seq t).conf = none ∧
          u.rd (SEQ_OUTCOME t) = 6#32 ∧ SameMem s u))) ∧
      (s.commitDecided t = true → ((s.wroteNow (SEQ_CTRL t) 8#32).regSquash (SEQ_CTRL t)) = s.wroteNow (SEQ_CTRL t) 8#32 → Completes (.seqAbort f t) s (fun u =>
        (u.seq t).late = (s.seq t).late ++ [(SeqCause.abort 0, s.now)] ∧ (u.seq t).foot = (s.seq t).foot ∧
        (u.seq t).conf = (s.seq t).conf ∧ SameRegs [] s u ∧ SameMem s u))) ∧
    (∀ f : Fin 8, s.Carried f (SEQ_CTRL t) 16#32 → Completes (.cont f t) s (fun u =>
      u.is (SEQ_CTRL t) SEQ_CTRL.CONT = true ∧ (s.seqRunning t = true → u.is (SEQ_STAT t) SEQ_STAT.WAIT_HOST = false) ∧
      u = (((s.wroteNow (SEQ_CTRL t) 16#32).regSquash (SEQ_CTRL t)).flag (SEQ_CTRL t) SEQ_CTRL.CONT true).refreshSeq t ∧ SameRegs [SEQ_CTRL t, SEQ_STAT t] ((s.wroteNow (SEQ_CTRL t) 16#32).regSquash (SEQ_CTRL t)) u ∧ SameMem s u)) ∧
    (∀ (p : Fin 256) (mag : Nat) (x : Foothold) (l : List Foothold), (s.seq (p / 16)).foot = x :: l →
      s.tapServed x p = true → (s.cluster (p / 4)).tickWait = false → Completes (.tapReading p mag) s (fun u =>
        (u.seq (p / 16)).foot = { x with taps := if s.tapSuspect (p / 4) then x.taps else keepTaps s.now p x.taps ++ [{ unit := p, mag := mag, at' := s.now }] } :: l ∧
        (s.tapSuspect (p / 4) = false → (u.seq (p / 16)).foot.head?.bind (fun y => y.taps.getLast?) =
          some { unit := p, mag := mag, at' := s.now }) ∧
        u.cluster (p / 4) = (s.cluster (p / 4)).dither [8] 4 ∧ u.now = s.now ∧ SameRegs [] s u ∧ SameMem s u))

/-- O29. Commit and close of a step. Derived from 06_step_sequencer_and_foothold.md. STEP_COMMIT with no step open, after
the look-ahead: a foothold that is built to its end or its error, its trigger slots set and the timebase not stalled,
commits at a loop boundary whose decision point, 4 ECLK cycles before, does not lie before it became ready; otherwise
the flags of the flow are shown and nothing commits. The committed step becomes the confirmed one, numbered by
SEQ_STEPNUM, which counts on; its program state becomes the confirmed one (SEQ_PC, SEQ_UMASK, SEQ_STACK, SEQ_SWP and
the counters). STEP_CLOSE of a step without windows of its own, breach of compliance or request to close, whose dwell
does not stand in a stall: at the first boundary at or after its dwell the outcome is CLEAN and the next word is
looked at, or the sequencer stops where a stop is asked for; with a request to close, it closes with that outcome.
Where the rules leave a point open, it follows the choices of log entries 48, 168. -/
def Obligations.SequencerCommitAndClose : Prop :=
  ∀ (s : State) (t : Fin 16),
    (∀ (f : Foothold) (l : List Foothold), ((s.seqLook t).seq t).conf = none → ((s.seqLook t).seq t).foot = f :: l → (s.seqLook t).seqRunning t = true →
      ((s.seqLook t).commitReady t f = true → (s.seqLook t).commitAt t f % (s.seqLook t).period t = 0 ∧ f.readyAt + 8 ≤ (s.seqLook t).commitAt t f ∧
        (s.seqLook t).now ≤ (s.seqLook t).commitAt t f ∧
        (f.err = 0 → exec (.stepCommit t) s = .next (((s.seqLook t).advance ((s.seqLook t).commitAt t f)).commitStep t f)) ∧
        (f.err ≠ 0 → exec (.stepCommit t) s =
          .next (((s.seqLook t).advance ((s.seqLook t).commitAt t f)).commitErr t ((s.seqLook t).stepKey t) f))) ∧
      (s.seqLook t).stepKey t % 2 ^ 32 = (s.seqLook t).rdN (SEQ_STEPNUM t) ∧
      ((s.seqLook t).commitReady t f = false → Completes (.stepCommit t) s (fun u => (u.seq t).foot = f :: l ∧ (u.seq t).conf = none ∧
        u.now = (s.seqLook t).now ∧ SameRegs [SEQ_STAT t] (s.seqLook t) u ∧ SameMem (s.seqLook t) u))) ∧
    (∀ f : Foothold, f.halt = false → f.entry = none → ∃ u : State,
      (u.seq t).conf = some { at' := s.now, seqAt := s.seqTime t, dwell := if f.dwell = 0 then s.period t else 800 * f.dwell, umask := f.prog.umask, num := s.stepKey t } ∧
      s.commitStep t f = ((u.lateCauses t).seqLook t).refreshSeq t) ∧
    (∀ (g : ProgState) (v : Nat), g.pc < 2 ^ 14 → g.swp = some v → v < 2 ^ 18 → g.umask < 2 ^ 16 →
      (s.commitProg t g).rdN (SEQ_PC t) = g.pc ∧ (s.commitProg t g).rdN (SEQ_UMASK t) = g.umask ∧
      (s.hostWrote (SEQ_SWP t) = false → (s.commitProg t g).rdN (SEQ_SWP t) = v) ∧
      (s.hostWrote (SEQ_SWP t) = true → (s.commitProg t g).rd (SEQ_SWP t) = s.rd (SEQ_SWP t)) ∧
      ((s.commitProg t g).seq t).stack = g.stack ∧ ((s.commitProg t g).seq t).e = g.e) ∧
    (∀ c : ConfStep, (s.seq t).conf = some c → s.windowPending t c.num = false → s.stepWindows t c.num = [] →
      s.dwellStalled t c = false → (s.seq t).siteFault = false → ∃ u : State, u.now = max s.now (s.closeBoundary t c) ∧
        SameMem s u ∧
        (c.closing = none → c.cmpl = false → u.rd (SEQ_OUTCOME t) = 4#32 ∧ (u.seq t).conf = none ∧
          (u.seq t).hold = false ∧ (u.seq t).closedAt = s.closeBoundary t c ∧ SameRegs [SEQ_OUTCOME t, SEQ_VERD t] s u ∧
          ((s.seq t).stopReq = false → (s.seq t).forceStop = false →
            exec (.stepClose t) s = .next (((u.seqLook t).hostReached t).refreshSeq t)) ∧
          ((s.seq t).stopReq = true → exec (.stepClose t) s = .next (u.seqStop t))) ∧
        (∀ o a : Nat, c.closing = some (o, a) → o ≠ 0 → SameRegs [SEQ_VERD t] s u ∧
          exec (.stepClose t) s = .next (u.nonClean t o true)))

/-- O30. Filter settings, measurement values, calibration banks, window closes and the end of a SUSPECT interval. Derived
from 07_measurement_path.md. FILT_WRITE, carried out: a valid setting is stored and is the last that waits, the only
one for its boundary, an invalid one sets FILT_ERR only. FILTER_CHANGE takes the oldest waiting setting at its
boundary and then makes it valid at the present rate. MEAS_VALUE_OUTPUT with nothing new changes nothing; a voltage
value that is ready is admitted once. BANK_COMMIT sets CPEND, or COMMIT_IGN while a commit or its journal record is
pending. BANK_SWAP at its boundary clears CPEND, makes the other bank the active one, sets JPEND and queues the
journal record; BANK_JOURNAL_DONE clears JPEND, and where no erase of the record's area ends with it changes no other
register. WINDOW_CLOSE closes, of the openings of a window that have a length, the one that ends first, at the
decision point of its boundary, on the units of its step. SUSPECT_END advances to the end of the interval and clears
SUSPECT of the four units. -/
def Obligations.FiltersBanksAndWindows : Prop :=
  ∀ (s : State) (p : Fin 256),
    (∀ (f : Fin 8) (v : Word), s.Carried f (MEA_U_FILT p) v →
      (s.filtValid p (v.toNat % 2 ^ 20) = true → Completes (.filtWrite f p v) s (fun t =>
        t.rdN (MEA_U_FILT p) = v.toNat % 2 ^ 20 ∧ (t.unit p).mea.filtPend =
          (s.unit p).mea.filtPend.filter (fun y => s.eligible (p / 16) y.1 < s.eligible (p / 16) s.now) ++ [(s.now, v.toNat % 2 ^ 20)] ∧
        SameRegs [MEA_U_FILT p] s t ∧ SameMem s t)) ∧
      (s.filtValid p (v.toNat % 2 ^ 20) = false → Completes (.filtWrite f p v) s (fun t =>
        t.is (MEA_U_STAT p) MEA_U_STAT.FILT_ERR = true ∧ OnlyRegs [MEA_U_STAT p] s t))) ∧
    (∀ (at' v : Nat) (l : List (Nat × Nat)), (s.unit p).mea.filtPend = (at', v) :: l → ∃ u : State, u.now = max s.now (s.effectAt (p / 16) at') ∧
      (u.unit p).mea.filt = v ∧ (u.unit p).mea.filtPend = l ∧ (u.unit p).mea.v.fir = [] ∧ (u.unit p).mea.i.fir = [] ∧
      SameRegs [] s u ∧ SameMem s u ∧ exec (.filterChange p) s = .next (u.filtAdjust p)) ∧
    ((s.unit p).mea.v.ready = none ∨ (s.unit p).mea.v.taken = true → exec (.measValueOutput p) s = .next s) ∧
    (∀ x y : Nat × Int, s.ecc = [] → (s.unit p).mea.v.ready = some x → (s.unit p).mea.i.ready = some y →
      (s.unit p).mea.v.taken = false → (s.unit p).mea.wins = [] → s.master p = false →
      ∃ u : State, (u.unit p).mea.v.taken = true ∧ (u.unit p).mea.i.taken = true ∧ SameMem s u ∧
        SameRegs [MEA_U_LASTV_LO p, MEA_U_LASTV_LO p + 4, MEA_U_LASTI_LO p, MEA_U_LASTI_LO p + 4] s u ∧
        exec (.measValueOutput p) s = .next (u.emit (p / 64) (unitProd p evValue) x.1)) ∧
    (∀ f : Fin 8, s.Carried f (MEA_U_BANK p) 2#32 →
      (s.is (MEA_U_BANK p) MEA_U_BANK.CPEND = false → s.is (MEA_U_BANK p) MEA_U_BANK.JPEND = false →
        Completes (.bankCommit f p) s (fun t => t.is (MEA_U_BANK p) MEA_U_BANK.CPEND = true ∧
          (t.unit p).mea.commitAt = some s.now ∧ SameRegs [MEA_U_BANK p] s t ∧ SameMem s t)) ∧
      (s.is (MEA_U_BANK p) MEA_U_BANK.CPEND = true ∨ s.is (MEA_U_BANK p) MEA_U_BANK.JPEND = true →
        Completes (.bankCommit f p) s (fun t => t.is (MEA_U_STAT p) MEA_U_STAT.COMMIT_IGN = true ∧
          OnlyRegs [MEA_U_STAT p] s t))) ∧
    (∀ at' : Nat, (s.unit p).mea.commitAt = some at' → Completes (.bankSwap p) s (fun t =>
      t.now = max s.now (s.effectAt (p / 16) at') ∧ t.bankAct p = 1 - s.bankAct p ∧
      t.is (MEA_U_BANK p) MEA_U_BANK.CPEND = false ∧ t.is (MEA_U_BANK p) MEA_U_BANK.JPEND = true ∧
      (t.unit p).mea.commitAt = none ∧ JRec.bank p (s.bankData p (1 - s.bankAct p)) ∈ t.nvm.queue ∧
      SameRegs [MEA_U_BANK p] s t ∧ SameMem s t)) ∧
    (∀ data : List Word, s.nvm.queue.find? (fun r => r.content = 0x100 + p.val) = some (.bank p data) →
      (s.unit p).mea.recalWait = false → Completes (.bankJournalDone p) s (fun t =>
        t.is (MEA_U_BANK p) MEA_U_BANK.JPEND = false ∧ mapGet [] p t.nvm.banks = data ∧
        ((s.area (JRec.bank p data).area).erasing = none → SameRegs [MEA_U_BANK p] s t ∧ SameMem s t))) ∧
    (∀ (r : Fin 16) (n : Fin 16) (w : OpenWin), s.winNext r n = some w → w ∈ s.timedWins r n ∧
      (∀ x ∈ s.timedWins r n, s.winEnd r w ≤ s.winEnd r x) ∧
      s.winEnd r w = nextMultiple (s.period r) (w.bound + 800 * (w.dly + w.len)) ∧
      exec (.windowClose r n) s =
        .next ((s.advance (s.winEnd r w - 8)).closeWindow r n (s.winEnd r w) (s.winUnits r n w.step) false)) ∧
    (∀ (k : Fin 64) (u : Nat), k.val = p / 4 → (s.cluster k).suspUntil = some u → Completes (.suspectEnd k) s (fun t =>
      t.now = max s.now u ∧ (t.cluster k).suspUntil = none ∧ t.is (MEA_U_STAT p) MEA_U_STAT.SUSPECT = false ∧
      SameRegs ((clusterUnits k).map (fun q => MEA_U_STAT q)) s t ∧ SameMem s t))

/-- O31. Self-test, recalibration and pilot-only requests, and their ends. Derived from 07_measurement_path.md,
15_register_maps.md. For unit u of region t. SELF_TEST on an idle unit, carried out: the procedure runs, PROC is set,
RESULT 0; during a handover of one of the unit's slices it waits for its end, RESULT 0; on a unit that is not idle
RESULT 1. RECALIBRATION alike, but a unit that is not idle waits, RESULT 2. PILOT_ONLY on a cluster with a spare
starts a self-trim for the unit, or joins those that wait for the pilot, RESULT 0; without a spare RESULT 3.
SELF_TEST_DONE ends the procedure with the failing checks, PASS where there is none, and DONE. RECAL_DONE writes new
offsets and gains with the correction's other terms into the inactive bank and requests its commit; while another
commit or its journal record is pending the result waits. RECAL_DEQUEUE starts a waiting recalibration once the unit
is idle. A nightlight region takes requests too (R385). Where the rules leave a point open, it follows the choice of
log entry 58. -/
def Obligations.ProcedureRequests : Prop :=
  ∀ (s : State) (t u : Fin 16) (p : Fin 256), p.val = 16 * t + u →
    (∀ f : Fin 8, s.Carried f (MEA_REQ t) (reqWord 0 u) →
      (s.idle p = true → s.slicesBusy p = true → Completes (.selfTest f t u) s (fun v =>
        (v.cluster (p / 4)).testUnit = some p.val ∧ (v.unit p).mea.proc = (s.unit p).mea.proc ∧
        v.rdF (MEA_REQ_STAT t) MEA_REQ_STAT.RESULT = 0 ∧ SameRegs [MEA_REQ t, MEA_REQ_STAT t] s v ∧ SameMem s v)) ∧
      (s.idle p = true → s.slicesBusy p = false → Completes (.selfTest f t u) s (fun v => (v.unit p).mea.proc = .selfTest ∧
        v.is (MEA_U_STAT p) MEA_U_STAT.PROC = true ∧ v.rdF (MEA_REQ_STAT t) MEA_REQ_STAT.RESULT = 0 ∧
        SameRegs [MEA_REQ t, MEA_U_STAT p, MEA_REQ_STAT t] s v ∧ SameMem s v)) ∧
      (s.idle p = false → Completes (.selfTest f t u) s (fun v => v.rdF (MEA_REQ_STAT t) MEA_REQ_STAT.RESULT = 1 ∧
        OnlyRegs [MEA_REQ t, MEA_REQ_STAT t] s v))) ∧
    (∀ f : Fin 8, s.Carried f (MEA_REQ t) (reqWord 1 u) →
      (s.idle p = true → Completes (.recalibration f t u) s (fun v => (v.unit p).mea.proc = .recal ∧
        v.is (MEA_U_STAT p) MEA_U_STAT.PROC = true ∧ v.rdF (MEA_REQ_STAT t) MEA_REQ_STAT.RESULT = 0 ∧
        SameRegs [MEA_REQ t, MEA_U_STAT p, MEA_REQ_STAT t] s v ∧ SameMem s v)) ∧
      (s.idle p = false → Completes (.recalibration f t u) s (fun v => v.rdF (MEA_REQ_STAT t) MEA_REQ_STAT.RESULT = 2 ∧
        v.rdF (MEA_REQ_STAT t) ⟨16 + u, 1⟩ = 1 ∧ OnlyRegs [MEA_REQ t, MEA_REQ_STAT t] s v))) ∧
    (∀ f : Fin 8, s.Carried f (MEA_REQ t) (reqWord 2 u) → s.is (pilStat (p / 4)) MEA_PIL_STAT.SUBST = false →
      s.is (pilStat (p / 4)) MEA_PIL_STAT.PILOT_FAIL = false → (s.cluster (p / 4)).busy = false →
      Completes (.pilotOnly f t u) s (fun v => (v.cluster (p / 4)).busy = true ∧ (v.cluster (p / 4)).only = true ∧
        (v.cluster (p / 4)).onlyUnit = some p.val ∧ v.rdF (pilStat (p / 4)) MEA_PIL_STAT.PHASE = 0 ∧
        v.rdF (MEA_REQ_STAT t) MEA_REQ_STAT.RESULT = 0 ∧ SameRegs [MEA_REQ t, pilStat (p / 4), MEA_REQ_STAT t] s v ∧
        SameMem s v)) ∧
    (∀ f : Fin 8, s.Carried f (MEA_REQ t) (reqWord 2 u) →
      (s.is (pilStat (p / 4)) MEA_PIL_STAT.SUBST = true ∨ s.is (pilStat (p / 4)) MEA_PIL_STAT.PILOT_FAIL = true →
        Completes (.pilotOnly f t u) s (fun v => v.rdF (MEA_REQ_STAT t) MEA_REQ_STAT.RESULT = 3 ∧
          OnlyRegs [MEA_REQ t, MEA_REQ_STAT t] s v)) ∧
      (s.is (pilStat (p / 4)) MEA_PIL_STAT.SUBST = false → s.is (pilStat (p / 4)) MEA_PIL_STAT.PILOT_FAIL = false →
        (s.cluster (p / 4)).busy = true → Completes (.pilotOnly f t u) s (fun v => (v.cluster (p / 4)).onlyWait = (s.cluster (p / 4)).onlyWait ++ [p.val] ∧
          v.rdF (MEA_REQ_STAT t) MEA_REQ_STAT.RESULT = 0 ∧ SameRegs [MEA_REQ t, MEA_REQ_STAT t] s v ∧ SameMem s v))) ∧
    (∀ fail : BitVec 8, (s.unit p).mea.proc = .selfTest → Completes (.selfTestDone p fail) s (fun v =>
      (v.unit p).mea.proc = .none ∧ v.is (MEA_U_STAT p) MEA_U_STAT.PROC = false ∧ v.is (MEA_U_ST p) MEA_U_ST.DONE = true ∧
      v.rdF (MEA_U_ST p) MEA_U_ST.FAIL = fail.toNat % 128 ∧ v.is (MEA_U_ST p) MEA_U_ST.PASS = decide (fail.toNat % 128 = 0) ∧
      SameRegs [MEA_U_STAT p, MEA_U_ST p] s v ∧ SameMem s v)) ∧
    (∀ data : List (Word × Word), data.length = 11 → (s.unit p).mea.proc = .recal →
      s.is (MEA_U_BANK p) MEA_U_BANK.CPEND = false → s.is (MEA_U_BANK p) MEA_U_BANK.JPEND = false →
      Completes (.recalDone p data) s (fun v => (v.unit p).mea.proc = .none ∧ v.is (MEA_U_ST p) MEA_U_ST.DONE = true ∧
        v.is (MEA_U_BANK p) MEA_U_BANK.CPEND = true ∧ (v.unit p).mea.commitAt = some s.now ∧
        (∀ e : Fin 11, v.rd (bankReg p (1 - s.bankAct p) e 0) = (data.getD e (0, 0)).1 ∧
          v.rd (bankReg p (1 - s.bankAct p) e 1) = (data.getD e (0, 0)).2 ∧
          v.rd (bankReg p (1 - s.bankAct p) e 2) = s.rd (bankReg p (s.bankAct p) e 2) ∧
          v.rdN (bankReg p (1 - s.bankAct p) e 5) = s.hub.clk.calSec % 2 ^ 32 ∧
          v.rd (bankReg p (s.bankAct p) e 0) = s.rd (bankReg p (s.bankAct p) e 0)) ∧ SameMem s v)) ∧
    (∀ data : List (Word × Word), (s.unit p).mea.proc = .recal → s.is (MEA_U_BANK p) MEA_U_BANK.CPEND = true →
      Completes (.recalDone p data) s (fun v => (v.unit p).mea.proc = .none ∧ v.is (MEA_U_ST p) MEA_U_ST.DONE = true ∧
        (v.unit p).mea.recalWait = true ∧ (v.unit p).mea.recalData = some data ∧ SameRegs [MEA_U_STAT p, MEA_U_ST p] s v ∧
        SameMem s v)) ∧
    (∀ data : List (Word × Word), (s.unit p).mea.proc = .recal → s.is (MEA_U_BANK p) MEA_U_BANK.CPEND = false →
      s.is (MEA_U_BANK p) MEA_U_BANK.JPEND = true → Completes (.recalDone p data) s (fun v => (v.unit p).mea.proc = .none ∧
        v.is (MEA_U_ST p) MEA_U_ST.DONE = true ∧ (v.unit p).mea.recalWait = true ∧
        v.is (MEA_U_BANK p) MEA_U_BANK.CPEND = false ∧ SameMem s v)) ∧
    (s.is (MEA_REQ_STAT t) ⟨16 + u, 1⟩ = true → s.idle p = true → (s.unit p).mea.proc = .none →
      Completes (.recalDequeue p) s (fun v => (v.unit p).mea.proc = .recal ∧ v.is (MEA_U_STAT p) MEA_U_STAT.PROC = true ∧
        v.is (MEA_REQ_STAT t) ⟨16 + u, 1⟩ = false ∧ SameRegs [MEA_REQ_STAT t, MEA_U_STAT p] s v ∧ SameMem s v))

/-- O32. Rotation, handover, substitution and restore of a pilot slice. Derived from 07_measurement_path.md,
14_faults_availability_life.md. For cluster k. A ROTATION_TICK with the pilot free, a spare and no shutdown starts the
handover of the next slice in phase 0, or waits for a tap reading in progress. In phase 0, SELF_TRIM_DONE within
limits writes the pilot's trims and starts the shadow of phase 1; out of limits it marks the pilot failed, raises
PILOT_FAIL and ends in phase 5; its 768 conversions step the pilot's dither. SHADOW_IN_DONE after 1,024 pairs goes to
phase 2, with a substitution where the mean difference exceeds DIS_LSB. SWAP gives the pilot the role at a quiet
boundary and, without a substitution, goes to phase 3. SLICE_TRIM_DONE within limits writes the slice's trims and
starts the shadow of phase 4. SHADOW_OUT_DONE in agreement goes to phase 5. RETURN gives the role back, counts the
handover unless its self-trim failed, and frees the pilot. ABANDON after 4,096 samples without 1,024 pairs counts.
RESTORE clears PILOT_FAIL and, with the pilot free, starts a self-trim. Where the rules leave a point open, it follows
the choices of log entries 58, 88. -/
def Obligations.PilotCommands : Prop :=
  ∀ (s : State) (k : Fin 64),
    ((s.cluster k).busy = false → s.is (pilStat k) MEA_PIL_STAT.SUBST = false → s.is (pilStat k) MEA_PIL_STAT.PILOT_FAIL = false →
      s.is TMP_SHUT TMP_SHUT.SHUT = false →
      (s.tapRunning k = false → Completes (.pilotRotationTick k) s (fun t => (t.cluster k).busy = true ∧
        (t.cluster k).only = false ∧ t.rdF (pilStat k) MEA_PIL_STAT.SLICE = (s.cluster k).next % 8 ∧
        t.rdF (pilStat k) MEA_PIL_STAT.PHASE = 0 ∧ t.now = (t.cluster k).lastTick ∧ s.now ≤ t.now ∧
        OnlyRegs [(pilStat k)] { (s.advance t.now) with clusters := t.clusters } t)) ∧
      (s.tapRunning k = true → Completes (.pilotRotationTick k) s (fun t => (t.cluster k).tickWait = true ∧
        (t.cluster k).busy = false ∧ t.now = (t.cluster k).lastTick ∧ s.now ≤ t.now ∧ SameRegs [] s t ∧ SameMem s t))) ∧
    (∀ (off gain : Int) (refs : List Int), s.inPhase k 0 = true → (s.cluster k).only = false →
      (trimBad off gain = false → Completes (.pilotSelfTrimDone k off gain refs) s (fun t =>
        t.rdN (MEA_TRIM (k / 4) (k % 4) 8) = trimWord off gain ∧ t.rdF (pilStat k) MEA_PIL_STAT.PHASE = 1 ∧ (t.cluster k).pairs = 0 ∧
        (t.cluster k).samples = 0 ∧ (t.cluster k).lfsr = ((s.cluster k).dither [8] 768).lfsr ∧ t.now = max s.now ((s.cluster k).phaseAt + 61440) ∧
        SameRegs [MEA_TRIM (k / 4) (k % 4) 8, (pilStat k)] s t ∧ SameMem s t)) ∧
      (trimBad off gain = true → exec (.pilotSelfTrimDone k off gain refs) s =
        .next ((((((s.advance ((s.cluster k).phaseAt + 61440)).modCluster k (fun c => c.dither [8] 768)).setPilotFail k true).raise
          .pilotFail (k / 16) 1 k).modCluster k (fun c => { c with failed := true })).pilPhase k 5))) ∧
    (s.inPhase k 1 = true → 1024 ≤ (s.cluster k).pairs →
      ((s.shadowMean k).2 = false → Completes (.pilotShadowInDone k) s (fun t => t.rdF (pilStat k) MEA_PIL_STAT.PHASE = 2 ∧
        t.rd (MEA_PIL_DIFF (k / 4) (k % 4)) = s32 ((s.cluster k).diffSum * 16) ∧
        SameRegs [MEA_PIL_DIFF (k / 4) (k % 4), (pilStat k)] s t ∧ SameMem s t)) ∧
      ((s.shadowMean k).2 = true → exec (.pilotShadowInDone k) s = .next (((s.shadowMean k).1.substitute k).pilPhase k 2))) ∧
    (s.inPhase k 2 = true → Completes (.pilotSwap k) s (fun t => (t.cluster k).inRole = true ∧
      t.now = max s.now (s.quietBoundary k) ∧ (t.cluster k).busy = !s.is (pilStat k) MEA_PIL_STAT.SUBST ∧
      (s.is (pilStat k) MEA_PIL_STAT.SUBST = false → t.rdF (pilStat k) MEA_PIL_STAT.PHASE = 3))) ∧
    (∀ off gain : Int, s.inPhase k 3 = true → trimBad off gain = false → Completes (.sliceTrimDone k off gain) s (fun t =>
      t.rdN (MEA_TRIM (k / 4) (k % 4) (s.pilSlice k)) = trimWord off gain ∧ t.rdF (pilStat k) MEA_PIL_STAT.PHASE = 4 ∧
      (t.cluster k).oldTrim = s.rdN (MEA_TRIM (k / 4) (k % 4) (s.pilSlice k)) ∧ (t.cluster k).pairs = 0 ∧
      SameRegs [MEA_TRIM (k / 4) (k % 4) (s.pilSlice k), (pilStat k)] s t ∧ SameMem s t)) ∧
    (s.inPhase k 4 = true → 1024 ≤ (s.cluster k).pairs → (s.shadowMean k).2 = false →
      Completes (.pilotShadowOutDone k) s (fun t => t.rdF (pilStat k) MEA_PIL_STAT.PHASE = 5 ∧
        SameRegs [MEA_PIL_DIFF (k / 4) (k % 4), (pilStat k)] s t ∧ SameMem s t)) ∧
    (s.inPhase k 5 = true → (s.cluster k).restoring = false → (s.cluster k).onlyWait = [] → (s.cluster k).retrim = false →
      Completes (.pilotReturn k) s (fun t =>
      t.now = max s.now (s.quietBoundary k) ∧ (t.cluster k).inRole = false ∧ (t.cluster k).busy = false ∧
      t.rdF (pilStat k) MEA_PIL_STAT.PHASE = 6 ∧ ((s.cluster k).failed = false →
        t.rdN (MEA_PIL_CNT (k / 4) (k % 4)) = (s.rdN (MEA_PIL_CNT (k / 4) (k % 4)) + 1) % 2 ^ 32 ∧
        (t.cluster k).next = (s.pilSlice k + 1) % 8))) ∧
    (s.inPhase k 1 = true → 4096 ≤ (s.cluster k).samples → (s.cluster k).pairs < 1024 → (s.cluster k).restoring = false →
      (s.cluster k).onlyWait = [] → (s.cluster k).inRole = false → (s.cluster k).retrim = false → (s.cluster k).testUnit = none →
      Completes (.pilotAbandon k) s (fun t =>
        t.rdN (MEA_PIL_ABANDON (k / 4) (k % 4)) = (s.rdN (MEA_PIL_ABANDON (k / 4) (k % 4)) + 1) % 2 ^ 32 ∧
        (t.cluster k).busy = false ∧ (t.cluster k).next = s.pilSlice k ∧ t.rdF (pilStat k) MEA_PIL_STAT.PHASE = 6 ∧
        SameRegs [MEA_PIL_ABANDON (k / 4) (k % 4), (pilStat k)] s t ∧ SameMem s t)) ∧
    (∀ f : Fin 8, s.Carried f (MEA_PIL_CTRL (k / 4) (k % 4)) 1#32 → s.is (pilStat k) MEA_PIL_STAT.SUBST = false →
      (s.cluster k).busy = false → Completes (.restore f k) s (fun t => t.is (pilStat k) MEA_PIL_STAT.PILOT_FAIL = false ∧
        (t.cluster k).busy = true ∧ (t.cluster k).only = true ∧ (t.cluster k).onlyUnit = none ∧
        t.rdF (pilStat k) MEA_PIL_STAT.PHASE = 0 ∧ t.rdF (MEA_REQ_STAT (k / 4)) MEA_REQ_STAT.RESULT = 0 ∧
        SameRegs [(pilStat k), MEA_STAT (k / 4), MEA_REQ_STAT (k / 4)] s t ∧ SameMem s t))

/-- O33. MOV, ADD, SUB, MUL, FMA, DIV, SQRT, MIN, MAX, ABS, the skips and END of a reduction kernel. Derived from
08_reduction_engines.md. For every region whose section r stands at the legal word w of the instruction (KReady of
Safety.lean), kLoad being the reading of the words of its context that the instruction names: where every one can be
read, the destination takes the binary64 result of the operands, rounded once, the instruction's ECLK cycles are
counted, and the section goes on at the next word; where one is uncorrectable, the instruction does not complete, the
context is poisoned and the section ends (R263). A skip whose condition holds goes on at the word after the next, one
cycle later, or ends the section at an illegal one; one whose condition fails goes on at the next word. END of a value
job ends the section, END of a close job goes on as kFinish says. A register that was written reads as written;
without errors in memory every word can be read. -/
def Obligations.KernelArithmetic : Prop :=
  ∀ (s : State) (t : Fin 16) (r : KRun) (w : Nat),
    (s.KReady t 0x01 r w → (s.kLoad t r w 1).2 = false → exec (.kMov t) s = .next (((s.kLoad t r w 1).1.kWrite t r (kD w) ((s.kLoad t r w 1).1.kRead t r (kA w))).kGo t r (r.pc + 1))) ∧
    (s.KReady t 0x02 r w → (s.kLoad t r w 1).2 = false → exec (.kAdd t) s = .next (((s.kLoad t r w 1).1.kWrite t r (kD w) (f64Add ((s.kLoad t r w 1).1.kRead t r (kA w)) ((s.kLoad t r w 1).1.kRead t r (kB w)))).kGo t r (r.pc + 1))) ∧
    (s.KReady t 0x03 r w → (s.kLoad t r w 1).2 = false → exec (.kSub t) s = .next (((s.kLoad t r w 1).1.kWrite t r (kD w) (f64Sub ((s.kLoad t r w 1).1.kRead t r (kA w)) ((s.kLoad t r w 1).1.kRead t r (kB w)))).kGo t r (r.pc + 1))) ∧
    (s.KReady t 0x04 r w → (s.kLoad t r w 1).2 = false → exec (.kMul t) s = .next (((s.kLoad t r w 1).1.kWrite t r (kD w) (f64Mul ((s.kLoad t r w 1).1.kRead t r (kA w)) ((s.kLoad t r w 1).1.kRead t r (kB w)))).kGo t r (r.pc + 1))) ∧
    (s.KReady t 0x05 r w → (s.kLoad t r w 1).2 = false → exec (.kFma t) s = .next (((s.kLoad t r w 1).1.kWrite t r (kD w) (f64Fma ((s.kLoad t r w 1).1.kRead t r (kA w)) ((s.kLoad t r w 1).1.kRead t r (kB w)) ((s.kLoad t r w 1).1.kRead t r (kD w)))).kGo t r (r.pc + 1))) ∧
    (s.KReady t 0x06 r w → (s.kLoad t r w 8).2 = false → exec (.kDiv t) s = .next (((s.kLoad t r w 8).1.kWrite t r (kD w) (f64Div ((s.kLoad t r w 8).1.kRead t r (kA w)) ((s.kLoad t r w 8).1.kRead t r (kB w)))).kGo t r (r.pc + 1))) ∧
    (s.KReady t 0x07 r w → (s.kLoad t r w 8).2 = false → exec (.kSqrt t) s = .next (((s.kLoad t r w 8).1.kWrite t r (kD w) (f64Sqrt ((s.kLoad t r w 8).1.kRead t r (kA w)))).kGo t r (r.pc + 1))) ∧
    (s.KReady t 0x08 r w → (s.kLoad t r w 1).2 = false → exec (.kMin t) s = .next (((s.kLoad t r w 1).1.kWrite t r (kD w) (f64Min ((s.kLoad t r w 1).1.kRead t r (kA w)) ((s.kLoad t r w 1).1.kRead t r (kB w)))).kGo t r (r.pc + 1))) ∧
    (s.KReady t 0x09 r w → (s.kLoad t r w 1).2 = false → exec (.kMax t) s = .next (((s.kLoad t r w 1).1.kWrite t r (kD w) (f64Max ((s.kLoad t r w 1).1.kRead t r (kA w)) ((s.kLoad t r w 1).1.kRead t r (kB w)))).kGo t r (r.pc + 1))) ∧
    (s.KReady t 0x0A r w → (s.kLoad t r w 1).2 = false → exec (.kAbs t) s = .next (((s.kLoad t r w 1).1.kWrite t r (kD w) (f64Abs ((s.kLoad t r w 1).1.kRead t r (kA w)))).kGo t r (r.pc + 1))) ∧
    (s.KReady t 0x01 r w → (s.kLoad t r w 1).2 = true → exec (.kMov t) s = .next (((s.kLoad t r w 1).1.kReject t r.key false).kFinish t r)) ∧
    (s.KReady t 0x02 r w → (s.kLoad t r w 1).2 = true → exec (.kAdd t) s = .next (((s.kLoad t r w 1).1.kReject t r.key false).kFinish t r)) ∧
    (s.KReady t 0x03 r w → (s.kLoad t r w 1).2 = true → exec (.kSub t) s = .next (((s.kLoad t r w 1).1.kReject t r.key false).kFinish t r)) ∧
    (s.KReady t 0x04 r w → (s.kLoad t r w 1).2 = true → exec (.kMul t) s = .next (((s.kLoad t r w 1).1.kReject t r.key false).kFinish t r)) ∧
    (s.KReady t 0x05 r w → (s.kLoad t r w 1).2 = true → exec (.kFma t) s = .next (((s.kLoad t r w 1).1.kReject t r.key false).kFinish t r)) ∧
    (s.KReady t 0x06 r w → (s.kLoad t r w 8).2 = true → exec (.kDiv t) s = .next (((s.kLoad t r w 8).1.kReject t r.key false).kFinish t r)) ∧
    (s.KReady t 0x07 r w → (s.kLoad t r w 8).2 = true → exec (.kSqrt t) s = .next (((s.kLoad t r w 8).1.kReject t r.key false).kFinish t r)) ∧
    (s.KReady t 0x08 r w → (s.kLoad t r w 1).2 = true → exec (.kMin t) s = .next (((s.kLoad t r w 1).1.kReject t r.key false).kFinish t r)) ∧
    (s.KReady t 0x09 r w → (s.kLoad t r w 1).2 = true → exec (.kMax t) s = .next (((s.kLoad t r w 1).1.kReject t r.key false).kFinish t r)) ∧
    (s.KReady t 0x0A r w → (s.kLoad t r w 1).2 = true → exec (.kAbs t) s = .next (((s.kLoad t r w 1).1.kReject t r.key false).kFinish t r)) ∧
    (s.KReady t 0x15 r w → (s.kLoad t r w 1).2 = false →
      ((bitOf r.f (kI w)) = false → exec (.kSkf t) s = .next ((s.kLoad t r w 1).1.kGo t r (r.pc + 1))) ∧
      (∀ (u : State) (x : Nat), (bitOf r.f (kI w)) = true → ((s.kLoad t r w 1).1.kCycles t 1).kFetch t r.kern (r.pc + 1) = (u, .ok x) →
        exec (.kSkf t) s = .next (u.kGo t r (r.pc + 2))) ∧
      (∀ u : State, (bitOf r.f (kI w)) = true → ((s.kLoad t r w 1).1.kCycles t 1).kFetch t r.kern (r.pc + 1) = (u, .illegal) →
        exec (.kSkf t) s = .next ((u.kReject t r.key true).kFinish t r))) ∧
    (s.KReady t 0x16 r w → (s.kLoad t r w 1).2 = false →
      ((!bitOf r.f (kI w)) = false → exec (.kSknf t) s = .next ((s.kLoad t r w 1).1.kGo t r (r.pc + 1))) ∧
      (∀ (u : State) (x : Nat), (!bitOf r.f (kI w)) = true → ((s.kLoad t r w 1).1.kCycles t 1).kFetch t r.kern (r.pc + 1) = (u, .ok x) →
        exec (.kSknf t) s = .next (u.kGo t r (r.pc + 2))) ∧
      (∀ u : State, (!bitOf r.f (kI w)) = true → ((s.kLoad t r w 1).1.kCycles t 1).kFetch t r.kern (r.pc + 1) = (u, .illegal) →
        exec (.kSknf t) s = .next ((u.kReject t r.key true).kFinish t r))) ∧
    (s.KReady t 0x17 r w → (s.kLoad t r w 1).2 = false →
      ((f64Lt ((s.kLoad t r w 1).1.kRead t r (kA w)) ((s.kLoad t r w 1).1.kRead t r (kB w))) = false → exec (.kSklt t) s = .next ((s.kLoad t r w 1).1.kGo t r (r.pc + 1))) ∧
      (∀ (u : State) (x : Nat), (f64Lt ((s.kLoad t r w 1).1.kRead t r (kA w)) ((s.kLoad t r w 1).1.kRead t r (kB w))) = true → ((s.kLoad t r w 1).1.kCycles t 1).kFetch t r.kern (r.pc + 1) = (u, .ok x) →
        exec (.kSklt t) s = .next (u.kGo t r (r.pc + 2))) ∧
      (∀ u : State, (f64Lt ((s.kLoad t r w 1).1.kRead t r (kA w)) ((s.kLoad t r w 1).1.kRead t r (kB w))) = true → ((s.kLoad t r w 1).1.kCycles t 1).kFetch t r.kern (r.pc + 1) = (u, .illegal) →
        exec (.kSklt t) s = .next ((u.kReject t r.key true).kFinish t r))) ∧
    (s.KReady t 0x00 r w → r.close = false → Completes (.kEnd t) s (fun u => (u.red t).run = none ∧
      (u.red t).queue = (s.red t).queue ∧ u.is (RDC_STAT t) RDC_STAT.BUSY = decide ((s.red t).queue ≠ []) ∧
      (r.counted = false → SameRegs [RDC_STAT t] s u) ∧ SameMem s u)) ∧
    (s.KReady t 0x00 r w → r.close = true → exec (.kEnd t) s = .next ((s.kCycles t 1).kFinish t r)) ∧
    (∀ (c : Nat) (v : DWord), c < 0x40 → c < (s.kctx t r.key).a.length → (s.kWrite t r c v).kRead t r c = v) ∧
    (s.ecc = [] → ∀ n : Nat, s.kLoad t r w n = (s.kCycles t n, false))

/-- O34. KSUM, CHG, WELF, VARF, LINR, LINF, HIST, GCOEF, GRTZ and GFIN of a reduction kernel. Derived from
08_reduction_engines.md. For every region whose section r stands at the legal word w of the instruction, with the
words of its context readable. KSUM and CHG add with Neumaier's compensation, CHG the charge of one output period.
WELF steps count, mean and sum of squares; VARF gives variance (a NaN below two values) and RMS; LINR steps the five
sums of a regression on time, LINF of at least two values with a nonzero denominator gives slope and intercept, two
NaN otherwise. HIST counts into the bin of the operand, saturating. GCOEF sets up a Goertzel block and sets ALIAS from
pi on; GRTZ steps it, with the reference phase at the first value; GFIN gives amplitude, phase and the two components,
four NaN without a value. Cosine, sine and argument are those of Real.lean, rounded as the spec leaves open. The
section goes on at the next word. Where a word of the context is uncorrectable the instruction does not complete
(R263). Where the rules leave a point open, it follows the choice of log entry 16. -/
def Obligations.KernelStatistics : Prop :=
  ∀ (s : State) (t : Fin 16) (r : KRun) (w : Nat),
    (s.KReady t 0x0B r w → (s.kLoad t r w 2).2 = false → exec (.kKsum t) s = .next (((s.kLoad t r w 2).1.kWrites t r (kD w) [f64Add ((s.kLoad t r w 2).1.kRead t r (kD w)) ((s.kLoad t r w 2).1.kRead t r (kA w)), f64Add ((s.kLoad t r w 2).1.kRead t r (kD w + 1)) (if f64Le (f64Abs ((s.kLoad t r w 2).1.kRead t r (kA w))) (f64Abs ((s.kLoad t r w 2).1.kRead t r (kD w))) then f64Add (f64Sub ((s.kLoad t r w 2).1.kRead t r (kD w)) (f64Add ((s.kLoad t r w 2).1.kRead t r (kD w)) ((s.kLoad t r w 2).1.kRead t r (kA w)))) ((s.kLoad t r w 2).1.kRead t r (kA w)) else f64Add (f64Sub ((s.kLoad t r w 2).1.kRead t r (kA w)) (f64Add ((s.kLoad t r w 2).1.kRead t r (kD w)) ((s.kLoad t r w 2).1.kRead t r (kA w)))) ((s.kLoad t r w 2).1.kRead t r (kD w)))]).kGo t r (r.pc + 1))) ∧
    (s.KReady t 0x0C r w → (s.kLoad t r w 2).2 = false → exec (.kChg t) s = .next (((s.kLoad t r w 2).1.kWrites t r (kD w) [f64Add ((s.kLoad t r w 2).1.kRead t r (kD w)) (f64Mul ((s.kLoad t r w 2).1.kRead t r (kA w)) ((s.kLoad t r w 2).1.outPeriod r.unit)), f64Add ((s.kLoad t r w 2).1.kRead t r (kD w + 1)) (if f64Le (f64Abs (f64Mul ((s.kLoad t r w 2).1.kRead t r (kA w)) ((s.kLoad t r w 2).1.outPeriod r.unit))) (f64Abs ((s.kLoad t r w 2).1.kRead t r (kD w))) then f64Add (f64Sub ((s.kLoad t r w 2).1.kRead t r (kD w)) (f64Add ((s.kLoad t r w 2).1.kRead t r (kD w)) (f64Mul ((s.kLoad t r w 2).1.kRead t r (kA w)) ((s.kLoad t r w 2).1.outPeriod r.unit)))) (f64Mul ((s.kLoad t r w 2).1.kRead t r (kA w)) ((s.kLoad t r w 2).1.outPeriod r.unit)) else f64Add (f64Sub (f64Mul ((s.kLoad t r w 2).1.kRead t r (kA w)) ((s.kLoad t r w 2).1.outPeriod r.unit)) (f64Add ((s.kLoad t r w 2).1.kRead t r (kD w)) (f64Mul ((s.kLoad t r w 2).1.kRead t r (kA w)) ((s.kLoad t r w 2).1.outPeriod r.unit)))) ((s.kLoad t r w 2).1.kRead t r (kD w)))]).kGo t r (r.pc + 1))) ∧
    (s.KReady t 0x0D r w → (s.kLoad t r w 3).2 = false → exec (.kWelf t) s = .next (((s.kLoad t r w 3).1.kWrites t r (kD w) [(f64Add ((s.kLoad t r w 3).1.kRead t r (kD w)) f64One), (f64Add ((s.kLoad t r w 3).1.kRead t r (kD w + 1)) (f64Div (f64Sub ((s.kLoad t r w 3).1.kRead t r (kA w)) ((s.kLoad t r w 3).1.kRead t r (kD w + 1))) (f64Add ((s.kLoad t r w 3).1.kRead t r (kD w)) f64One))), f64Add ((s.kLoad t r w 3).1.kRead t r (kD w + 2)) (f64Mul (f64Sub ((s.kLoad t r w 3).1.kRead t r (kA w)) ((s.kLoad t r w 3).1.kRead t r (kD w + 1))) (f64Sub ((s.kLoad t r w 3).1.kRead t r (kA w)) (f64Add ((s.kLoad t r w 3).1.kRead t r (kD w + 1)) (f64Div (f64Sub ((s.kLoad t r w 3).1.kRead t r (kA w)) ((s.kLoad t r w 3).1.kRead t r (kD w + 1))) (f64Add ((s.kLoad t r w 3).1.kRead t r (kD w)) f64One)))))]).kGo t r (r.pc + 1))) ∧
    (s.KReady t 0x0E r w → (s.kLoad t r w 8).2 = false → exec (.kVarf t) s = .next (((s.kLoad t r w 8).1.kWrites t r (kD w) [if f64Lt ((s.kLoad t r w 8).1.kRead t r (kA w)) (f64OfInt 2) then f64Nan ((s.kLoad t r w 8).1.kRead t r (kA w)) ((s.kLoad t r w 8).1.kRead t r (kA w + 2)) else f64Div ((s.kLoad t r w 8).1.kRead t r (kA w + 2)) (f64Sub ((s.kLoad t r w 8).1.kRead t r (kA w)) f64One), f64Sqrt (f64Add (f64Mul ((s.kLoad t r w 8).1.kRead t r (kA w + 1)) ((s.kLoad t r w 8).1.kRead t r (kA w + 1))) (f64Div ((s.kLoad t r w 8).1.kRead t r (kA w + 2)) ((s.kLoad t r w 8).1.kRead t r (kA w))))]).kGo t r (r.pc + 1))) ∧
    (s.KReady t 0x0F r w → (s.kLoad t r w 3).2 = false → exec (.kLinr t) s = .next (((s.kLoad t r w 3).1.kWrites t r (kD w) [f64Add ((s.kLoad t r w 3).1.kRead t r (kD w)) f64One, f64Add ((s.kLoad t r w 3).1.kRead t r (kD w + 1)) ((s.kLoad t r w 3).1.kRead t r 0x59), f64Add ((s.kLoad t r w 3).1.kRead t r (kD w + 2)) r.x, f64Add ((s.kLoad t r w 3).1.kRead t r (kD w + 3)) (f64Mul ((s.kLoad t r w 3).1.kRead t r 0x59) ((s.kLoad t r w 3).1.kRead t r 0x59)), f64Add ((s.kLoad t r w 3).1.kRead t r (kD w + 4)) (f64Mul ((s.kLoad t r w 3).1.kRead t r 0x59) r.x)]).kGo t r (r.pc + 1))) ∧
    (s.KReady t 0x10 r w → (s.kLoad t r w 12).2 = false → f64Lt ((s.kLoad t r w 12).1.kRead t r (kA w)) (f64OfInt 2) = false → f64IsZero (f64Sub (f64Mul ((s.kLoad t r w 12).1.kRead t r (kA w)) ((s.kLoad t r w 12).1.kRead t r (kA w + 3))) (f64Mul ((s.kLoad t r w 12).1.kRead t r (kA w + 1)) ((s.kLoad t r w 12).1.kRead t r (kA w + 1)))) = false → exec (.kLinf t) s = .next (((s.kLoad t r w 12).1.kWrites t r (kD w) [(f64Div (f64Sub (f64Mul ((s.kLoad t r w 12).1.kRead t r (kA w)) ((s.kLoad t r w 12).1.kRead t r (kA w + 4))) (f64Mul ((s.kLoad t r w 12).1.kRead t r (kA w + 1)) ((s.kLoad t r w 12).1.kRead t r (kA w + 2)))) (f64Sub (f64Mul ((s.kLoad t r w 12).1.kRead t r (kA w)) ((s.kLoad t r w 12).1.kRead t r (kA w + 3))) (f64Mul ((s.kLoad t r w 12).1.kRead t r (kA w + 1)) ((s.kLoad t r w 12).1.kRead t r (kA w + 1))))), f64Div (f64Sub ((s.kLoad t r w 12).1.kRead t r (kA w + 2)) (f64Mul (f64Div (f64Sub (f64Mul ((s.kLoad t r w 12).1.kRead t r (kA w)) ((s.kLoad t r w 12).1.kRead t r (kA w + 4))) (f64Mul ((s.kLoad t r w 12).1.kRead t r (kA w + 1)) ((s.kLoad t r w 12).1.kRead t r (kA w + 2)))) (f64Sub (f64Mul ((s.kLoad t r w 12).1.kRead t r (kA w)) ((s.kLoad t r w 12).1.kRead t r (kA w + 3))) (f64Mul ((s.kLoad t r w 12).1.kRead t r (kA w + 1)) ((s.kLoad t r w 12).1.kRead t r (kA w + 1))))) ((s.kLoad t r w 12).1.kRead t r (kA w + 1)))) ((s.kLoad t r w 12).1.kRead t r (kA w))]).kGo t r (r.pc + 1))) ∧
    (s.KReady t 0x10 r w → (s.kLoad t r w 12).2 = false → (f64Lt ((s.kLoad t r w 12).1.kRead t r (kA w)) (f64OfInt 2) = true ∨ f64IsZero (f64Sub (f64Mul ((s.kLoad t r w 12).1.kRead t r (kA w)) ((s.kLoad t r w 12).1.kRead t r (kA w + 3))) (f64Mul ((s.kLoad t r w 12).1.kRead t r (kA w + 1)) ((s.kLoad t r w 12).1.kRead t r (kA w + 1)))) = true) → exec (.kLinf t) s = .next (((s.kLoad t r w 12).1.kWrites t r (kD w) [f64Nan ((s.kLoad t r w 12).1.kRead t r (kA w)) (f64Sub (f64Mul ((s.kLoad t r w 12).1.kRead t r (kA w)) ((s.kLoad t r w 12).1.kRead t r (kA w + 3))) (f64Mul ((s.kLoad t r w 12).1.kRead t r (kA w + 1)) ((s.kLoad t r w 12).1.kRead t r (kA w + 1)))), f64Nan ((s.kLoad t r w 12).1.kRead t r (kA w)) (f64Sub (f64Mul ((s.kLoad t r w 12).1.kRead t r (kA w)) ((s.kLoad t r w 12).1.kRead t r (kA w + 3))) (f64Mul ((s.kLoad t r w 12).1.kRead t r (kA w + 1)) ((s.kLoad t r w 12).1.kRead t r (kA w + 1))))]).kGo t r (r.pc + 1))) ∧
    (s.KReady t 0x11 r w → (s.kLoad t r w 4).2 = false → exec (.kHist t) s = .next ((((s.kLoad t r w 4).1.modCtx t r.key (fun c => { c with hb := c.hb.set (histBin r.kern.bins (f64Div (f64Sub ((s.kLoad t r w 4).1.kRead t r (kA w)) ((s.kLoad t r w 4).1.kRead t r (0x48 + kI w))) ((s.kLoad t r w 4).1.kRead t r (0x49 + kI w)))) (min 0xFFFFFFFF (c.hb.getD (histBin r.kern.bins (f64Div (f64Sub ((s.kLoad t r w 4).1.kRead t r (kA w)) ((s.kLoad t r w 4).1.kRead t r (0x48 + kI w))) ((s.kLoad t r w 4).1.kRead t r (0x49 + kI w)))) 0 + 1)) })).ctxStore t r.key [82 + (histBin r.kern.bins (f64Div (f64Sub ((s.kLoad t r w 4).1.kRead t r (kA w)) ((s.kLoad t r w 4).1.kRead t r (0x48 + kI w))) ((s.kLoad t r w 4).1.kRead t r (0x49 + kI w)))) / 2]).kGo t r (r.pc + 1))) ∧
    (s.KReady t 0x12 r w → (s.kLoad t r w 8).2 = false → f64Le piD (f64Mul (f64Mul (f64Mul twoPi (f64OfInt (kI w))) (f64OfRat (((s.kLoad t r w 8).1.unit r.unit).nco.ftw * 200000000 : Nat) (2 ^ 48))) ((s.kLoad t r w 8).1.outPeriod r.unit)) = false → exec (.kGcoef t) s = .next (((s.kLoad t r w 8).1.kWrites t r (kD w) [f64Zero, f64Zero, f64Mul (f64OfInt 2) (f64Cos (f64Mul (f64Mul (f64Mul twoPi (f64OfInt (kI w))) (f64OfRat (((s.kLoad t r w 8).1.unit r.unit).nco.ftw * 200000000 : Nat) (2 ^ 48))) ((s.kLoad t r w 8).1.outPeriod r.unit))), (f64Mul (f64Mul (f64Mul twoPi (f64OfInt (kI w))) (f64OfRat (((s.kLoad t r w 8).1.unit r.unit).nco.ftw * 200000000 : Nat) (2 ^ 48))) ((s.kLoad t r w 8).1.outPeriod r.unit)), f64Zero, f64Zero, f64OfInt (kI w)]).kGo t r (r.pc + 1))) ∧
    (s.KReady t 0x12 r w → (s.kLoad t r w 8).2 = false → f64Le piD (f64Mul (f64Mul (f64Mul twoPi (f64OfInt (kI w))) (f64OfRat (((s.kLoad t r w 8).1.unit r.unit).nco.ftw * 200000000 : Nat) (2 ^ 48))) ((s.kLoad t r w 8).1.outPeriod r.unit)) = true → exec (.kGcoef t) s = .next ((((s.kLoad t r w 8).1.kWrites t r (kD w) [f64Zero, f64Zero, f64Mul (f64OfInt 2) (f64Cos (f64Mul (f64Mul (f64Mul twoPi (f64OfInt (kI w))) (f64OfRat (((s.kLoad t r w 8).1.unit r.unit).nco.ftw * 200000000 : Nat) (2 ^ 48))) ((s.kLoad t r w 8).1.outPeriod r.unit))), (f64Mul (f64Mul (f64Mul twoPi (f64OfInt (kI w))) (f64OfRat (((s.kLoad t r w 8).1.unit r.unit).nco.ftw * 200000000 : Nat) (2 ^ 48))) ((s.kLoad t r w 8).1.outPeriod r.unit)), f64Zero, f64Zero, f64OfInt (kI w)]).flag (RDC_STAT t) RDC_STAT.ALIAS true).kGo t r (r.pc + 1))) ∧
    (s.KReady t 0x13 r w → (s.kLoad t r w 2).2 = false → f64IsZero ((s.kLoad t r w 2).1.kRead t r (kD w + 4)) = false → exec (.kGrtz t) s = .next ((((s.kLoad t r w 2).1.kWrites t r (kD w) [f64Sub (f64Add ((s.kLoad t r w 2).1.kRead t r (kA w)) (f64Mul ((s.kLoad t r w 2).1.kRead t r (kD w + 2)) ((s.kLoad t r w 2).1.kRead t r (kD w)))) ((s.kLoad t r w 2).1.kRead t r (kD w + 1)), ((s.kLoad t r w 2).1.kRead t r (kD w))]).kWrite t r (kD w + 4) (f64Add ((s.kLoad t r w 2).1.kRead t r (kD w + 4)) f64One)).kGo t r (r.pc + 1))) ∧
    (s.KReady t 0x13 r w → (s.kLoad t r w 2).2 = false → f64IsZero ((s.kLoad t r w 2).1.kRead t r (kD w + 4)) = true → exec (.kGrtz t) s = .next (((((s.kLoad t r w 2).1.kWrite t r (kD w + 5) ((s.kLoad t r w 2).1.goertzelRef t r ((s.kLoad t r w 2).1.kRead t r (kD w + 6)))).kWrites t r (kD w) [f64Sub (f64Add ((s.kLoad t r w 2).1.kRead t r (kA w)) (f64Mul ((s.kLoad t r w 2).1.kRead t r (kD w + 2)) ((s.kLoad t r w 2).1.kRead t r (kD w)))) ((s.kLoad t r w 2).1.kRead t r (kD w + 1)), ((s.kLoad t r w 2).1.kRead t r (kD w))]).kWrite t r (kD w + 4) (f64Add ((s.kLoad t r w 2).1.kRead t r (kD w + 4)) f64One)).kGo t r (r.pc + 1))) ∧
    (s.KReady t 0x14 r w → (s.kLoad t r w 24).2 = false → f64IsZero ((s.kLoad t r w 24).1.kRead t r (kA w + 4)) = true → exec (.kGfin t) s = .next (((s.kLoad t r w 24).1.kWrites t r (kD w) (List.replicate 4 (f64Nan ((s.kLoad t r w 24).1.kRead t r (kA w + 4)) ((s.kLoad t r w 24).1.kRead t r (kA w + 4))))).kGo t r (r.pc + 1))) ∧
    (s.KReady t 0x14 r w → (s.kLoad t r w 24).2 = false → f64IsZero ((s.kLoad t r w 24).1.kRead t r (kA w + 4)) = false →
      let th := (f64Mul ((s.kLoad t r w 24).1.kRead t r (kA w + 3)) (f64Sub ((s.kLoad t r w 24).1.kRead t r (kA w + 4)) f64One))
      let re := (f64Sub ((s.kLoad t r w 24).1.kRead t r (kA w)) (f64Mul (f64Cos ((s.kLoad t r w 24).1.kRead t r (kA w + 3))) ((s.kLoad t r w 24).1.kRead t r (kA w + 1))))
      let im := (f64Mul (f64Sin ((s.kLoad t r w 24).1.kRead t r (kA w + 3))) ((s.kLoad t r w 24).1.kRead t r (kA w + 1)))
      let yr := f64Add (f64Mul re (f64Cos th)) (f64Mul im (f64Sin th))
      let yi := f64Sub (f64Mul im (f64Cos th)) (f64Mul re (f64Sin th))
      let amp := f64Div (f64Mul (f64OfInt 2) (f64Sqrt (f64Add (f64Mul yr yr) (f64Mul yi yi)))) ((s.kLoad t r w 24).1.kRead t r (kA w + 4))
      let psi := wrapPi (f64Sub (f64Add (f64Arg yi yr) halfPi) ((s.kLoad t r w 24).1.kRead t r (kA w + 5)))
      exec (.kGfin t) s = .next (((s.kLoad t r w 24).1.kWrites t r (kD w) [amp, psi, f64Mul amp (f64Cos psi), f64Mul amp (f64Sin psi)]).kGo t r (r.pc + 1))) ∧
    (s.KReady t 0x0B r w → (s.kLoad t r w 2).2 = true → exec (.kKsum t) s = .next (((s.kLoad t r w 2).1.kReject t r.key false).kFinish t r)) ∧
    (s.KReady t 0x0C r w → (s.kLoad t r w 2).2 = true → exec (.kChg t) s = .next (((s.kLoad t r w 2).1.kReject t r.key false).kFinish t r)) ∧
    (s.KReady t 0x0D r w → (s.kLoad t r w 3).2 = true → exec (.kWelf t) s = .next (((s.kLoad t r w 3).1.kReject t r.key false).kFinish t r)) ∧
    (s.KReady t 0x0E r w → (s.kLoad t r w 8).2 = true → exec (.kVarf t) s = .next (((s.kLoad t r w 8).1.kReject t r.key false).kFinish t r)) ∧
    (s.KReady t 0x0F r w → (s.kLoad t r w 3).2 = true → exec (.kLinr t) s = .next (((s.kLoad t r w 3).1.kReject t r.key false).kFinish t r)) ∧
    (s.KReady t 0x10 r w → (s.kLoad t r w 12).2 = true → exec (.kLinf t) s = .next (((s.kLoad t r w 12).1.kReject t r.key false).kFinish t r)) ∧
    (s.KReady t 0x11 r w → (s.kLoad t r w 4).2 = true → exec (.kHist t) s = .next (((s.kLoad t r w 4).1.kReject t r.key false).kFinish t r)) ∧
    (s.KReady t 0x12 r w → (s.kLoad t r w 8).2 = true → exec (.kGcoef t) s = .next (((s.kLoad t r w 8).1.kReject t r.key false).kFinish t r)) ∧
    (s.KReady t 0x13 r w → (s.kLoad t r w 2).2 = true → exec (.kGrtz t) s = .next (((s.kLoad t r w 2).1.kReject t r.key false).kFinish t r)) ∧
    (s.KReady t 0x14 r w → (s.kLoad t r w 24).2 = true → exec (.kGfin t) s = .next (((s.kLoad t r w 24).1.kReject t r.key false).kFinish t r))

/-- O35. LIM, VSET, BINV, STS, LDSS, EMIT, EVT and HEMIT of a reduction kernel. Derived from 08_reduction_engines.md,
09_sites_and_site_walker.md. For every region whose section r stands at the legal word w of the instruction, with the
words of its context and of the site's flags readable. LIM sets the verdict bit by the constant pair, or by the pair
of the site context, and leaves it without a valid site. VSET sets it for a NaN or a nonzero operand. BINV writes the
verdict's bin and STS a binary32 statistic into the site context, unless the host has written that 32-bit word in the
same PCLK cycle (R281), LDSS reads one back; without a valid site BINV and STS do nothing and LDSS gives a NaN. EMIT
and HEMIT produce records, HEMIT one for each bin, EVT an event unless it asks for a verdict and there is none. Where
a word of the context is uncorrectable the instruction does not complete (R263). Without errors in memory the site is
the context's, where its VALID flag is set. Where the rules leave a point open, it follows the choice of log entry 60. -/
def Obligations.KernelVerdictsAndRecords : Prop :=
  ∀ (s : State) (t : Fin 16) (r : KRun) (w : Nat),
    (s.KReady t 0x18 r w → (s.kLoad t r w 0).2 = false → bitOf (kI w) 3 = true → exec (.kLim t) s = .next ((((s.kLoad t r w 0).1.kCycles t 1).setV t r (kD w) (limFails ((s.kLoad t r w 0).1.kRead t r (0x48 + 2 * (kI w % 8))) ((s.kLoad t r w 0).1.kRead t r (0x49 + 2 * (kI w % 8))) ((s.kLoad t r w 0).1.kRead t r (kA w)))).kGo t r (r.pc + 1))) ∧
    (s.KReady t 0x18 r w → (s.kLoad t r w 0).2 = false → bitOf (kI w) 3 = false → ∀ v : State, ((s.kLoad t r w 0).1.kCycles t 4).kSite t r = (v, none, true) → exec (.kLim t) s = .next ((v).kGo t r (r.pc + 1))) ∧
    (s.KReady t 0x18 r w → (s.kLoad t r w 0).2 = false → bitOf (kI w) 3 = false → ∀ (v : State) (c : Nat), ((s.kLoad t r w 0).1.kCycles t 4).kSite t r = (v, some c, true) → (v.memGet (c + 0x48 + 8 * (kI w % 8)) 8).2.2 = false → exec (.kLim t) s = .next (((v.memGet (c + 0x48 + 8 * (kI w % 8)) 8).1.setV t r (kD w) (limFails (f64OfF32 (w32 (v.memGet (c + 0x48 + 8 * (kI w % 8)) 8).2.1)) (f64OfF32 (w32 ((v.memGet (c + 0x48 + 8 * (kI w % 8)) 8).2.1 / 2 ^ 32))) ((s.kLoad t r w 0).1.kRead t r (kA w)))).kGo t r (r.pc + 1))) ∧
    (s.KReady t 0x19 r w → (s.kLoad t r w 1).2 = false → exec (.kVset t) s = .next (((s.kLoad t r w 1).1.setV t r (kD w) (f64IsNan ((s.kLoad t r w 1).1.kRead t r (kA w)) || !f64IsZero ((s.kLoad t r w 1).1.kRead t r (kA w)))).kGo t r (r.pc + 1))) ∧
    (s.KReady t 0x1A r w → (s.kLoad t r w 4).2 = false → ∀ v : State, ((s.kLoad t r w 4).1).kSite t r = (v, none, true) → exec (.kBinv t) s = .next ((v).kGo t r (r.pc + 1))) ∧
    (s.KReady t 0x1A r w → (s.kLoad t r w 4).2 = false → ∀ (v : State) (c : Nat), ((s.kLoad t r w 4).1).kSite t r = (v, some c, true) → exec (.kBinv t) s = .next ((v.redPut (c + 0x24 + kI w) 1 (verdictBin (v.kctx t r.key).v)).kGo t r (r.pc + 1))) ∧
    (s.KReady t 0x1B r w → (s.kLoad t r w 4).2 = false → ∀ v : State, ((s.kLoad t r w 4).1).kSite t r = (v, none, true) → exec (.kSts t) s = .next ((v).kGo t r (r.pc + 1))) ∧
    (s.KReady t 0x1B r w → (s.kLoad t r w 4).2 = false → ∀ (v : State) (c : Nat), ((s.kLoad t r w 4).1).kSite t r = (v, some c, true) → exec (.kSts t) s = .next ((v.redPut (c + 0x28 + 4 * kI w) 4 (f32OfF64 (v.kRead t r (kA w))).toNat).kGo t r (r.pc + 1))) ∧
    (s.KReady t 0x1C r w → (s.kLoad t r w 4).2 = false → ∀ v : State, ((s.kLoad t r w 4).1).kSite t r = (v, none, true) → exec (.kLdss t) s = .next ((v.kWrite t r (kD w) (f64Nan 0 0)).kGo t r (r.pc + 1))) ∧
    (s.KReady t 0x1C r w → (s.kLoad t r w 4).2 = false → ∀ (v : State) (c : Nat), ((s.kLoad t r w 4).1).kSite t r = (v, some c, true) → (v.memGet (c + 0x28 + 4 * kI w) 4).2.2 = false → exec (.kLdss t) s = .next (((v.memGet (c + 0x28 + 4 * kI w) 4).1.kWrite t r (kD w) (f64OfF32 (w32 (v.memGet (c + 0x28 + 4 * kI w) 4).2.1))).kGo t r (r.pc + 1))) ∧
    (s.KReady t 0x1D r w → (s.kLoad t r w 2).2 = false → exec (.kEmit t) s = .next (((s.kLoad t r w 2).1.kRecord t r (2 + kI w) ((s.kLoad t r w 2).1.kRead t r (kA w)).toNat).kGo t r (r.pc + 1))) ∧
    (s.KReady t 0x1E r w → (s.kLoad t r w 1).2 = false → bitOf (kI w) 2 = true → ((s.kLoad t r w 1).1.kctx t r.key).v = 0 → exec (.kEvt t) s = .next (((s.kLoad t r w 1).1).kGo t r (r.pc + 1))) ∧
    (s.KReady t 0x1E r w → (s.kLoad t r w 1).2 = false → (bitOf (kI w) 2 = false ∨ ((s.kLoad t r w 1).1.kctx t r.key).v ≠ 0) → exec (.kEvt t) s = .next (((s.kLoad t r w 1).1.emitRegion t (evRdcVevt + kI w % 4)).kGo t r (r.pc + 1))) ∧
    (s.KReady t 0x1F r w → (s.kLoad t r w 0).2 = false → r.kern.bins = 0 → exec (.kHemit t) s = .next (((s.kLoad t r w 0).1.kCycles t 1).kGo t r (r.pc + 1))) ∧
    (s.KReady t 0x1F r w → (s.kLoad t r w 0).2 = false → r.kern.bins ≠ 0 → exec (.kHemit t) s = .next (((((List.range r.kern.bins).foldl (fun u b => u.kRecord t r 10 ((u.kctx t r.key).hb.getD b 0 + 2 ^ 32 * (b + 256 * kI w))) (s.kLoad t r w 0).1).kCycles t (2 * r.kern.bins))).kGo t r (r.pc + 1))) ∧
    (∀ (i : Nat) (on : Bool), i < 32 → ((s.setV t r i on).kctx t r.key).v = (if on then withBit (s.kctx t r.key).v i else
      withoutBit (s.kctx t r.key).v i)) ∧
    (s.ecc = [] → s.kSite t r = (s, ((s.kctx t r.key).site.bind (fun i =>
      if s.ctxFlag (t / 4) i 0 then some (s.ctxAt (t / 4) i) else none)), true)) ∧
    (∀ a x : Nat, ∀ n ∈ [1, 4], s.redPut a n x = if s.cycMem.any (fun y => y.1 < a / 4 * 4 + 4 ∧ a / 4 * 4 < y.1 + y.2) then s else s.memPut a n x) ∧
    (s.KReady t 0x18 r w → (s.kLoad t r w 0).2 = true → exec (.kLim t) s = .next (((s.kLoad t r w 0).1.kReject t r.key false).kFinish t r)) ∧
    (s.KReady t 0x19 r w → (s.kLoad t r w 1).2 = true → exec (.kVset t) s = .next (((s.kLoad t r w 1).1.kReject t r.key false).kFinish t r)) ∧
    (s.KReady t 0x1A r w → (s.kLoad t r w 4).2 = true → exec (.kBinv t) s = .next (((s.kLoad t r w 4).1.kReject t r.key false).kFinish t r)) ∧
    (s.KReady t 0x1B r w → (s.kLoad t r w 4).2 = true → exec (.kSts t) s = .next (((s.kLoad t r w 4).1.kReject t r.key false).kFinish t r)) ∧
    (s.KReady t 0x1D r w → (s.kLoad t r w 2).2 = true → exec (.kEmit t) s = .next (((s.kLoad t r w 2).1.kReject t r.key false).kFinish t r)) ∧
    (s.KReady t 0x1E r w → (s.kLoad t r w 1).2 = true → exec (.kEvt t) s = .next (((s.kLoad t r w 1).1.kReject t r.key false).kFinish t r)) ∧
    (s.KReady t 0x1F r w → (s.kLoad t r w 0).2 = true → exec (.kHemit t) s = .next (((s.kLoad t r w 0).1.kReject t r.key false).kFinish t r))

/-- O36. Value jobs, close jobs and the check of the counts. Derived from 08_reduction_engines.md. VALUE_JOB with an idle
reducer that nothing holds (a record that waits, or its share of enforcement), of a context that is not poisoned and a
value that its kernel does not exclude or fills with zero: the job leaves the queue, the context counts the job and
the section, and the section goes to ENTRY with the value, its flags and the timestamp, flag bit 14 for the first
section of the context; without errors and inversions no register and no byte but the context's TFIRST changes before
that. A poisoned context or an excluded value ends the job at once. CLOSE_JOB with contexts to close starts the CLOSE
section of the first that is not poisoned, with none left it completes. COUNT_CHECK at the next multiple of 800,000
writes RDC_LOAD of every region; where every unit's counts balance, every RDC_DIFF becomes 0 and nothing is raised; a
unit whose difference is new and not 0 sets its check bit and raises COUNT_MISMATCH. Where the rules leave a point
open, it follows the choices of log entries 61, 130. -/
def Obligations.ReducerJobsAndCounts : Prop :=
  ∀ (s : State) (t : Fin 16),
    (∀ (key unit qty ts flags idx : Nat) (x : DWord) (counted : Bool) (l : List Job),
      (s.red t).queue = .value key unit qty x ts flags idx counted :: l → (s.red t).run = none → s.kHeld t = false →
      let r : KRun := { close := false, key := key, kern := (s.kctx t key).kern, unit := unit, qty := qty, pc := (s.kctx t key).kern.entry, y := List.replicate 8 0#64, f := flags % 4096 + (if (s.kctx t key).kern.excludes flags then 2 ^ 12 else 0) + (if (s.kctx t key).early then 2 ^ 13 else 0) + (if (s.kctx t key).runs = 0 then 2 ^ 14 else 0), x := if (s.kctx t key).kern.excludes flags then f64Zero else x, ts := ts, counted := counted }
      ((s.kctx t key).poisoned = false → ((s.kctx t key).kern.excludes flags = false ∨
          getFld (s.kctx t key).kern.hdr RDC_KHDR.ZFILL = 1) → ∃ u : State,
        exec (.valueJob t) s = .next ((u.kGo t r r.pc).refreshQueue t) ∧ (u.red t).queue = l ∧ (u.red t).run = some r ∧
        (u.kctx t key).jobs = (s.kctx t key).jobs + 1 ∧ (u.kctx t key).runs = (s.kctx t key).runs + 1 ∧
        (s.ecc = [] → s.hub.inject = none → SameRegs [] s u ∧
          ∀ a : Nat, (∀ b : Nat, s.ctxWordAt t key 81 = some b → ¬(b ≤ a ∧ a < b + 8)) → u.byte a = s.byte a)) ∧
      (((s.kctx t key).poisoned = true ∨ ((s.kctx t key).kern.excludes flags = true ∧
          getFld (s.kctx t key).kern.hdr RDC_KHDR.ZFILL = 0)) → ∃ u : State,
        exec (.valueJob t) s = .next (u.kFinish t r) ∧ (u.red t).queue = l ∧ (u.kctx t key).jobs = (s.kctx t key).jobs + 1 ∧
        (u.kctx t key).runs = (s.kctx t key).runs ∧ SameRegs [] s u ∧ SameMem s u)) ∧
    (∀ (win step at' key w : Nat) (early : Bool) (ks : List Nat) (l : List Job),
      (s.red t).queue = .close win step at' early (key :: ks) :: l → (s.red t).run = none → s.kHeld t = false →
      (s.red t).closeWait = [] → (s.kctx t key).poisoned = false → s.ecc = [] →
      (s.kFetch t (s.kctx t key).kern (s.kctx t key).kern.close).2 = .ok w →
      Completes (.closeJob t) s (fun u => (u.red t).queue = l ∧
        (u.red t).run = some (s.closeRun t key step at' early ks) ∧ u.is (RDC_STAT t) RDC_STAT.BUSY = true ∧
        SameRegs [RDC_STAT t] s u ∧ SameMem s u)) ∧
    (∀ (win step at' : Nat) (early : Bool) (l : List Job),
      (s.red t).queue = .close win step at' early [] :: l → (s.red t).run = none → s.kHeld t = false →
      exec (.closeJob t) s =
        .next ((((s.modRed t (fun r => { r with queue := l })).slotFree t win).jobDone t).refreshQueue t)) ∧
    ((∀ p : Fin 256, s.countDiff p = 0) → Completes .countCheck s (fun u => u.now = nextMultiple 800000 s.now ∧
      u.rdN (RDC_LOAD t) = min 1000 ((s.red t).cycles / 400) ∧ (u.red t).cycles = 0 ∧
      (∀ p : Fin 256, u.rd (RDC_DIFF p) = 0#32) ∧
      SameRegs ((List.range 16).map RDC_LOAD ++ (List.range 256).map RDC_DIFF) s u ∧ SameMem s u)) ∧
    (∀ p : Fin 256, (satS 32 (s.countDiff p)).1 ≠ 0 → (satS 32 (s.countDiff p)).1 ≠ s.rdI (RDC_DIFF p) → s.countCheckUnit p =
      (((s.wr (RDC_DIFF p) (s32 (satS 32 (s.countDiff p)).1)).wrBit (RDC_CHK (p / 16)) (p % 16) true).raiseUnit .countMismatch p))

/-- O37. Reads of the low registers of a unit, a region and a die: the value, the shadows of the reading function, and
nothing else. Derived from 15_register_maps.md, 08_reduction_engines.md, 10_event_fabric.md, 12_berrin_image.md,
14_faults_availability_life.md, 05_setpoints_sweeps_waveforms.md, 07_measurement_path.md. For every function f whose
read is carried out (not refused, the die's spine up, no inversion armed on it). RDC_PROD_LO_READ, EVT_CAP_LO_READ,
IMG_NL_MIN_LO_READ, PRF_SEQT_LO_READ, MEA_U_LASTV_LO_READ and MEA_U_LASTI_LO_READ of one DWORD answer the register
(sequence time for PRF_SEQT_LO) and latch the registers read after it into the shadows of f; the shadows of every
other function, every register and every byte of memory stand. A read of a capture marks it read. -/
def Obligations.ReadsOfUnitsRegionsAndDies : Prop :=
  ∀ (s : State) (f : Fin 8) (p : Fin 256) (r : Fin 16) (d : Fin 4) (m : Fin 8),
    (s.Readable f (RDC_PROD_LO p) → Completes (.rdcProdLoRead f p 0) s (fun t => t.out.reads = (f.val, s.rd (RDC_PROD_LO p)) :: s.out.reads ∧ (∀ k : Fin 9, t.shadow f (RDC_PROD_LO p + 4 + 4 * k) = s.shows f (RDC_PROD_LO p + 4 + 4 * k)) ∧
      (∀ (g : Fin 8) (h : Nat), g ≠ f → h < 2 ^ 28 → t.shadow g h = s.shadow g h) ∧ SameRegs [] s t ∧ SameMem s t)) ∧
    (s.Readable f (EVT_CAP_LO d m) → Completes (.evtCapLoRead f d m 0) s (fun t => t.out.reads = (f.val, s.rd (EVT_CAP_LO d m)) :: s.out.reads ∧ t.shadow f (EVT_CAP_LO d m + 4) = s.rd (EVT_CAP_LO d m + 4) ∧ bitOf (t.die d).capUnread m = false ∧
      (∀ (g : Fin 8) (h : Nat), g ≠ f → h < 2 ^ 28 → t.shadow g h = s.shadow g h) ∧ SameRegs [] s t ∧ SameMem s t)) ∧
    (s.Readable f (IMG_NL_MIN_LO p) → Completes (.imgNlMinLoRead f p 0) s (fun t => t.out.reads = (f.val, s.rd (IMG_NL_MIN_LO p)) :: s.out.reads ∧ (∀ k : Fin 5, t.shadow f (IMG_NL_MIN_LO p + 4 + 4 * k) = s.rd (IMG_NL_MIN_LO p + 4 + 4 * k)) ∧
      (∀ (g : Fin 8) (h : Nat), g ≠ f → h < 2 ^ 28 → t.shadow g h = s.shadow g h) ∧ SameRegs [] s t ∧ SameMem s t)) ∧
    (s.Readable f (PRF_SEQT_LO r) → Completes (.prfSeqtLoRead f r 0) s (fun t => t.out.reads = (f.val, w32 (s.seqTime r % 2 ^ 32)) :: s.out.reads ∧ t.shadow f (PRF_SEQT_LO r + 4) = w32 (s.seqTime r / 2 ^ 32) ∧
      (∀ (g : Fin 8) (h : Nat), g ≠ f → h < 2 ^ 28 → t.shadow g h = s.shadow g h) ∧ SameRegs [] s t ∧ SameMem s t)) ∧
    (s.Readable f (MEA_U_LASTV_LO p) → Completes (.meaULastvLoRead f p 0) s (fun t => t.out.reads = (f.val, s.rd (MEA_U_LASTV_LO p)) :: s.out.reads ∧ t.shadow f (MEA_U_LASTV_LO p + 4) = s.rd (MEA_U_LASTV_LO p + 4) ∧
      (∀ (g : Fin 8) (h : Nat), g ≠ f → h < 2 ^ 28 → t.shadow g h = s.shadow g h) ∧ SameRegs [] s t ∧ SameMem s t)) ∧
    (s.Readable f (MEA_U_LASTI_LO p) → Completes (.meaULastiLoRead f p 0) s (fun t => t.out.reads = (f.val, s.rd (MEA_U_LASTI_LO p)) :: s.out.reads ∧ t.shadow f (MEA_U_LASTI_LO p + 4) = s.rd (MEA_U_LASTI_LO p + 4) ∧
      (∀ (g : Fin 8) (h : Nat), g ≠ f → h < 2 ^ 28 → t.shadow g h = s.shadow g h) ∧ SameRegs [] s t ∧ SameMem s t))

/-- O38. Reads of the low registers of the hub: the value, the shadows of the reading function, and nothing else; a
refused read answers 0. Derived from 15_register_maps.md, 08_reduction_engines.md, 10_event_fabric.md,
12_berrin_image.md, 14_faults_availability_life.md, 05_setpoints_sweeps_waveforms.md, 07_measurement_path.md. For
every function f whose read is carried out. FLT_FIRST_TS_LO_READ, LIFE_OPS_LO_READ, LIFE_ARR_LO_READ,
LIFE_LAST_STOP_TS_LO_READ and SERIAL_LO_READ of one DWORD answer the register and latch the one after it into the
shadow of f; MBX_RXC_READ answers the head entry's control word and removes the entry. The shadows of other functions,
every register and every byte of memory stand. A read of a fenced function, or of a request that crosses a 64-byte
boundary, is logged and answers 0. A package held in reset does not answer. Where the rules leave a point open, it
follows the choice of log entry 106. -/
def Obligations.ReadsOfTheHub : Prop :=
  ∀ (s : State) (f : Fin 8) (n : Fin 545),
    (s.Readable f (FLT_FIRST_TS_LO n) → Completes (.fltFirstTsLoRead f n 0) s (fun t => t.out.reads = (f.val, s.rd (FLT_FIRST_TS_LO n)) :: s.out.reads ∧ t.shadow f (FLT_FIRST_TS_LO n + 4) = s.rd (FLT_FIRST_TS_LO n + 4) ∧
      (∀ (g : Fin 8) (h : Nat), g ≠ f → h < 2 ^ 28 → t.shadow g h = s.shadow g h) ∧ SameRegs [] s t ∧ SameMem s t)) ∧
    (s.Readable f (LIFE_OPS_LO) → Completes (.lifeOpsLoRead f 0) s (fun t => t.out.reads = (f.val, s.rd (LIFE_OPS_LO)) :: s.out.reads ∧ t.shadow f (LIFE_OPS_LO + 4) = s.rd (LIFE_OPS_LO + 4) ∧
      (∀ (g : Fin 8) (h : Nat), g ≠ f → h < 2 ^ 28 → t.shadow g h = s.shadow g h) ∧ SameRegs [] s t ∧ SameMem s t)) ∧
    (s.Readable f (LIFE_ARR_LO) → Completes (.lifeArrLoRead f 0) s (fun t => t.out.reads = (f.val, s.rd (LIFE_ARR_LO)) :: s.out.reads ∧ t.shadow f (LIFE_ARR_LO + 4) = s.rd (LIFE_ARR_LO + 4) ∧
      (∀ (g : Fin 8) (h : Nat), g ≠ f → h < 2 ^ 28 → t.shadow g h = s.shadow g h) ∧ SameRegs [] s t ∧ SameMem s t)) ∧
    (s.Readable f (LIFE_LAST_STOP_TS_LO) → Completes (.lifeLastStopTsLoRead f 0) s (fun t => t.out.reads = (f.val, s.rd (LIFE_LAST_STOP_TS_LO)) :: s.out.reads ∧ t.shadow f (LIFE_LAST_STOP_TS_LO + 4) = s.rd (LIFE_LAST_STOP_TS_LO + 4) ∧
      (∀ (g : Fin 8) (h : Nat), g ≠ f → h < 2 ^ 28 → t.shadow g h = s.shadow g h) ∧ SameRegs [] s t ∧ SameMem s t)) ∧
    (s.Readable f (HUB_SERIAL_LO) → Completes (.serialLoRead f 0) s (fun t => t.out.reads = (f.val, w32 (Config.serial.toNat % 2 ^ 32)) :: s.out.reads ∧ t.shadow f (HUB_SERIAL_LO + 4) = w32 (Config.serial.toNat / 2 ^ 32) ∧
      (∀ (g : Fin 8) (h : Nat), g ≠ f → h < 2 ^ 28 → t.shadow g h = s.shadow g h) ∧ SameRegs [] s t ∧ SameMem s t)) ∧
    (s.Readable f (ROPE_MBX_RXC) → Completes (.mbxRxcRead f 0) s (fun t => t.out.reads = (f.val, s.mbxHead) :: s.out.reads ∧ t.hub.mbx = s.hub.mbx.tail ∧
      (∀ (g : Fin 8) (h : Nat), g ≠ f → h < 2 ^ 28 → t.shadow g h = s.shadow g h) ∧ SameRegs [] s t ∧ SameMem s t)) ∧
    (s.accepts = true → s.fenced f = true → exec (.lifeOpsLoRead f 0) s =
      .next ((s.refuse f LIFE_OPS_LO false false rsnFenced).answer f 0#32)) ∧
    (∀ more : Nat, s.accepts = true → (LIFE_OPS_LO % 64 / 4 + more ≥ 16) → exec (.lifeOpsLoRead f more) s =
      .next ((s.refuse f LIFE_OPS_LO false false (if s.fenced f then rsnFenced else rsnSize)).answer f 0#32)) ∧
    (∀ more : Nat, s.accepts = false → exec (.lifeOpsLoRead f more) s = .next s)

/-- O39. Folding, snapshot and clear of the site accumulators, and the site records of the journal. Derived from
09_sites_and_site_walker.md, 14_faults_availability_life.md. Memory free of errors, no inversion armed. ACC_FOLD at
the next multiple of 800,000: every unit that holds a site has no pending increment left, a unit that holds none is
unchanged, no register changes, and no byte outside the contexts of held sites; where unit p alone holds a site, its
charge is added to the context's, saturated. SNAP, carried out, folds the selected site and shows its STRESS and
CHARGE; CLR folds it and zeroes both, clearing the two overflow bits of CFLAGS. SITE_SNAPSHOT with EN, one interval
after the last, journals bytes 0x0C to 0x23 of every changed context, of which none is left; without EN it does
nothing. GO, carried out, journals the 256 bytes of every context of the range that exists, and sets BUSY where there
is one; while BUSY it does nothing. Where the rules leave a point open, it follows the choice of log entry 131. -/
def Obligations.SiteAccumulators : Prop :=
  ∀ (s : State) (d : Fin 4), s.ecc = [] → s.hub.inject = none →
    (Completes .accFold s (fun t => t.now = max s.now (nextMultiple msTicks s.now) ∧
      (∀ p : Fin 256, (s.siteOf p ≠ none → (t.unit p).accQ = 0 ∧ (t.unit p).accOvr = false) ∧
        (s.siteOf p = none → t.unit p = s.unit p)) ∧
      (∀ a : Nat, (∀ (p : Fin 256) (i : Fin 16384), s.siteOf p = some i.val →
          ¬(s.ctxAt (p / 64) i ≤ a ∧ a < s.ctxAt (p / 64) i + 256)) → (∀ p : Fin 256, (s.siteOf p).getD 0 < 16384) →
        t.byte a = s.byte a) ∧
      (∀ (p : Fin 256) (i : Fin 10240), s.siteOf p = some i.val → (∀ q : Fin 256, q ≠ p → s.siteOf q = none) →
        (s.unit p).accQ ≠ 0 → t.mem64 (s.ctxAt (p / 64) i + 0x18) 12 =
          unsigned 96 (satCharge (signed 96 (s.mem64 (s.ctxAt (p / 64) i + 0x18) 12) + (s.unit p).accQ)).1) ∧
      SameRegs [] s t)) ∧
    (∀ f : Fin 8, s.Carried f (SITE_ACC_CTRL d) 1#32 → ∀ i : Fin 16384, s.rdN (SITE_ACC_SEL d) % 2 ^ 14 = i.val →
      Completes (.snap f d) s (fun t =>
        t.rd64 (SITE_ACC_STRESS_LO d) = (s.foldSite d i).mem64 (s.ctxAt d i + 0x10) 8 ∧
        t.rdN (SITE_ACC_CHG_0 d) + 2 ^ 32 * t.rdN (SITE_ACC_CHG_1 d) + 2 ^ 64 * t.rdN (SITE_ACC_CHG_2 d) =
          (s.foldSite d i).mem64 (s.ctxAt d i + 0x18) 12 ∧
        SameRegs [SITE_ACC_STRESS_LO d, SITE_ACC_STRESS_HI d, SITE_ACC_CHG_0 d, SITE_ACC_CHG_1 d, SITE_ACC_CHG_2 d] s t ∧
        SameMem (s.foldSite d i) t)) ∧
    (∀ f : Fin 8, s.Carried f (SITE_ACC_CTRL d) 2#32 → ∀ i : Fin 16384, s.rdN (SITE_ACC_SEL d) % 2 ^ 14 = i.val →
      Completes (.clr f d) s (fun t =>
        t.mem64 (s.ctxAt d i + 0x10) 8 = 0 ∧ t.mem64 (s.ctxAt d i + 0x18) 12 = 0 ∧
        t.mem64 (s.ctxAt d i + 4) 2 = (s.foldSite d i).mem64 (s.ctxAt d i + 4) 2 &&& 0xFFE7 ∧ i.val ∈ (t.die d).changed ∧
        (∀ a : Nat, ¬(s.ctxAt d i + 0x10 ≤ a ∧ a < s.ctxAt d i + 0x24) → ¬(s.ctxAt d i + 4 ≤ a ∧ a < s.ctxAt d i + 6) →
          t.byte a = (s.foldSite d i).byte a) ∧ SameRegs [] s t)) ∧
    (s.is (SITE_JCFG d) SITE_JCFG.EN = true → Completes (.siteSnapshot d) s (fun t => (t.die d).changed = [] ∧
      t.now = max s.now (s.snapNext d) ∧ (t.die d).snapAt = t.now ∧ (s.die d).snapAt + 600 * 800000000 ≤ t.now ∧
      (∀ i ∈ (((s.advance (s.snapNext d)).foldDie d).die d).changed, JRec.site d i false (t.bytes (s.ctxAt d i + 0xC) 24) ∈ t.nvm.queue) ∧
      SameRegs [] s t)) ∧
    (s.is (SITE_JCFG d) SITE_JCFG.EN = false → exec (.siteSnapshot d) s = .next s) ∧
    (∀ f : Fin 8, s.Carried f (SITE_JCTRL d) 1#32 →
      (s.is (SITE_JSTAT d) SITE_JSTAT.BUSY = false → Completes (.siteJournalGo f d) s (fun t =>
        t.is (SITE_JSTAT d) SITE_JSTAT.BUSY = decide (s.rdN (SITE_JFIRST d) % 2 ^ 14 < 10240) ∧
        (∀ i : Fin 10240, s.rdN (SITE_JFIRST d) % 2 ^ 14 ≤ i.val →
          i.val < s.rdN (SITE_JFIRST d) % 2 ^ 14 + max 1 (s.rdN (SITE_JCOUNT d) % 2 ^ 14) →
          JRec.site d i true (t.bytes (s.ctxAt d i) 256) ∈ t.nvm.queue) ∧ SameRegs [SITE_JSTAT d] s t)) ∧
      (s.is (SITE_JSTAT d) SITE_JSTAT.BUSY = true → Completes (.siteJournalGo f d) s (fun t => OnlyRegs [] s t)))

/-- O40. The site-select port, RESTART of a walker stream, CLR_CNT of a relay. Derived from 09_sites_and_site_walker.md.
For the switch w that breaks on die d: SITE_PATTERN_DRIVE, once, advances to the end of the break and drives SA and
SD, with the strobe two ticks later; SITE_MAKE of a driven pattern advances by the break, two ticks of setup and the
strobe, marks the switch made, drives SEN high and SBRK low and records the region's pattern, then counts the make,
closes the relays, emits the event and, where another switch waits, lets it wait 10 ns more (a reaction that has made
the die safe keeps SEN low); without such a switch neither does anything; the switch that waits starts at the end of
those 10 ns, from which its break runs. SITE_SETTLED of a made switch, SRDY not used, advances to its start plus the
settle time and removes it, and shows the levels of the input balls; where SRDY ends in a timeout TMO is set and
SITE_PORT_TMO raised. SITE_PORT_ERR shows SERR_N low, and raises its source with SERR_EN only. RESTART, carried out,
returns the stream to its first position and squashes the footholds of its region, but for a commit decided already.
CLR_CNT, carried out, zeroes the count and the warning of the selected relay alone and journals the relays. Where the
rules leave a point open, it follows the choices of log entries 62, 64, 132. -/
def Obligations.SitePortAndWalker : Prop :=
  ∀ (s : State) (d : Fin 4),
    (s.breaking d = none → ((s.die d).portFree = none → exec (.sitePatternDrive d) s = .next s) ∧ exec (.siteMake d) s = .next s) ∧
    (∀ (z : Nat) (v : PortSwitch), (s.die d).portFree = some z → s.breaking d = none →
      (s.die d).switches.find? (fun w => w.start = none) = some v → v.driven = false → v.made = none → v.sa < 2 ^ 16 → v.sd < 2 ^ 8 →
      Completes (.sitePatternDrive d) s (fun t => t.now = max s.now (z + s.breakTicks d) ∧ (t.die d).portFree = none ∧
        (t.die d).sbrk = true ∧ t.rdF (SITE_PORT_STAT d) SITE_PORT_STAT.SA = v.sa ∧ t.rdF (SITE_PORT_STAT d) SITE_PORT_STAT.SD = v.sd ∧
        (t.die d).switches.any (fun x => x.start = some z && x.driven && x.site = v.site && x.region = v.region) = true ∧
        SameRegs [SITE_PORT_STAT d] s t ∧ SameMem s t)) ∧
    (∀ w : PortSwitch, s.breaking d = some w →
      ((s.die d).portFree = none → w.driven = true → exec (.sitePatternDrive d) s = .next s) ∧ (w.driven = false → exec (.siteMake d) s = .next s) ∧
      ((s.die d).portFree = none → w.driven = false → w.sa < 2 ^ 16 → w.sd < 2 ^ 8 → Completes (.sitePatternDrive d) s (fun t =>
        t.now = max s.now (w.start.getD 0 + s.breakTicks d) ∧ t.rdF (SITE_PORT_STAT d) SITE_PORT_STAT.SA = w.sa ∧
        t.rdF (SITE_PORT_STAT d) SITE_PORT_STAT.SD = w.sd ∧
        (t.die d).switches = (s.die d).switches.map (fun v => if v = w then { w with driven := true } else v) ∧
        (t.die d).strobe = some (w.start.getD 0 + s.breakTicks d + 16, w.start.getD 0 + s.breakTicks d + 16 + s.strobeTicks d) ∧
        SameRegs [SITE_PORT_STAT d] s t ∧ SameMem s t)) ∧
      (w.driven = true → w.region < 4 → (s.die d).lastPat.length = 4 → ∃ u : State,
        u.now = max s.now (w.start.getD 0 + s.breakTicks d + 16 + s.strobeTicks d) ∧ (u.die d).sen = true ∧ (u.die d).sbrk = false ∧
        (u.die d).switches = (s.die d).switches.map (fun v => if v = w then { w with made := some u.now } else v) ∧
        (u.die d).lastPat.getD w.region none = some (w.sa + 0x10000 * w.sd, true) ∧ SameRegs [] s u ∧ SameMem s u ∧
        exec (.siteMake d) s = .next ((((((u.bump (SITE_PORT_CNT d) 1).relaysClose d w.site).emit d 0xC10 u.now).modDie d
          (fun x => { x with portFree := if x.switches.any (fun v => v.start = none) then some (u.now + 8) else none })).refreshPort d).senSettle))) ∧
    (∀ (z : Nat) (srdy : Option Nat) (pins : Fin 16), (s.die d).portFree = some z → z ≤ s.now →
      exec (.siteSettled d (srdy, pins)) s = exec (.siteSettled d (srdy, pins)) (s.portCatch d) ∧ ((s.portCatch d).die d).portFree = none) ∧
    (∀ (srdy : Option Nat) (pins : Fin 16), (∀ z ∈ (s.die d).portFree, s.now < z) → (s.die d).switches.find? (fun w => w.made ≠ none) = none →
      exec (.siteSettled d (srdy, pins)) s = .next s) ∧
    (∀ (w : PortSwitch) (srdy : Option Nat) (pins : Fin 16), (∀ z ∈ (s.die d).portFree, s.now < z ∧ (s.settleEnd d (w.start.getD 0) (w.made.getD 0) srdy).1 < z) →
      (s.die d).switches.find? (fun w => w.made ≠ none) = some w →
      (s.is (SITE_PORT_CFG d) SITE_PORT_CFG.SRDY_EN = false → Completes (.siteSettled d (srdy, pins)) s (fun t =>
        t.rdF (SITE_PORT_STAT d) SITE_PORT_STAT.SST2 = pins.val % 8 ∧
        t.is (SITE_PORT_STAT d) SITE_PORT_STAT.SERR_N = bitOf pins 3 ∧
        t.now = max s.now (w.start.getD 0 + s.settleTicks d) ∧ (t.die d).switches = (s.die d).switches.erase w ∧
        SameRegs [SITE_PORT_STAT d] s t ∧ SameMem s t)) ∧
      (∀ e : Nat, s.settleEnd d (w.start.getD 0) (w.made.getD 0) srdy = (e, true) → ∃ u : State, u.now = max s.now e ∧
        (u.die d).switches = (s.die d).switches.erase w ∧ u.is (SITE_PORT_FLAG d) SITE_PORT_FLAG.TMO = true ∧
        SameRegs [SITE_PORT_STAT d, SITE_PORT_FLAG d] s u ∧ SameMem s u ∧
        exec (.siteSettled d (srdy, pins)) s = .next (u.raise .sitePortTmo d 3 d))) ∧
    (s.is (SITE_PORT_CFG d) SITE_PORT_CFG.SERR_EN = true → ∃ u : State,
      u.is (SITE_PORT_FLAG d) SITE_PORT_FLAG.ERR = true ∧ u.is (SITE_PORT_STAT d) SITE_PORT_STAT.SERR_N = true ∧
      OnlyRegs [SITE_PORT_FLAG d, SITE_PORT_STAT d] s u ∧
      exec (.sitePortErr d) s = .next (u.raise .sitePortErr d 3 d)) ∧
    (s.is (SITE_PORT_CFG d) SITE_PORT_CFG.SERR_EN = false → Completes (.sitePortErr d) s (fun t =>
      t.is (SITE_PORT_STAT d) SITE_PORT_STAT.SERR_N = true ∧ OnlyRegs [SITE_PORT_STAT d] s t)) ∧
    (∀ (f : Fin 8) (k : Fin 4) (r : Nat), s.Carried f (SITE_WS_CTRL d k) 1#32 →
      r = 4 * d + s.rdF (SITE_WS_CFG d k) SITE_WS_CFG.REGION → Completes (.restart f d k) s (fun t =>
      t.rdN (SITE_WS_POS d k) = s.wsFirst d k 0 false % 2 ^ 24 ∧
      (s.is (SITE_WS_CFG d k) SITE_WS_CFG.EN = true → s.seqRunning r = true → s.commitDecided r = false → (t.seq r).foot = []) ∧
      SameRegs ([SITE_WS_POS d k, SEQ_SQ_HOST r, SEQ_STAT r] ++ (List.range 4).map (fun c => pilStat (4 * r + c))) s t ∧
      SameMem s t)) ∧
    (∀ (f : Fin 8) (r : Fin 65536), s.Carried f LIFE_RW_CTRL 1#32 → s.rdN LIFE_RW_SEL % 65536 = r.val →
      Completes (.clrCnt f) s (fun t => mapGet 0 r t.hub.relayCnt = 0 ∧ mapGet 0 r t.hub.relayWarned = 0 ∧
        (∀ q : Fin 65536, q ≠ r → mapGet 0 q t.hub.relayCnt = mapGet 0 q s.hub.relayCnt ∧
          mapGet 0 q t.hub.relayWarned = mapGet 0 q s.hub.relayWarned) ∧
        t.rdF LIFE_RW_WARN ⟨0, 17⟩ = s.rdF LIFE_RW_WARN ⟨0, 17⟩ - (if mapGet 0 r s.hub.relayWarned = 0 then 0 else 1) ∧
        JRec.relays t.hub.relayCnt t.hub.relayClass t.hub.relayWarned ∈ t.nvm.queue ∧
        SameRegs [LIFE_RW_WARN] s t ∧ SameMem s t))

/-- O41. Software fires and levels on a die, in the package and in the system; EVIO input edges and output pulses. Derived
from 10_event_fabric.md, 15_register_maps.md. Carried out: EVT_FIRE puts one firing of the channel into its route
stage at the next PCLK cycle; EVT_FIRE_SET does so for every bit at 1 whose channel the function may write, and logs
one refusal where it asks for another; EVT_SLVL takes the bits of the channels that the function may write and leaves
the others; EVT_PFIRE sends one transfer to the hub's package channel; EVT_SFIRE at the source package of a valid
channel issues and holds one transfer, which forms one event with another of the same tick; elsewhere it is refused.
No other register changes but the fabric's flags, and no byte of memory. EVIO_INPUT_EDGE to the level that the pin
has, or on an output, does nothing; another level shows in PIN, and the active edge emits the pin's event, once in a
tick. EVIO_PULSE_END ends the pulse at its tick and frees the output's slot. Where the rules leave a point open, it
follows the choice of log entry 134. -/
def Obligations.SoftwareFiresAndPins : Prop :=
  ∀ (s : State) (f : Fin 8) (d : Fin 4) (v : Word),
    (s.Carried f (EVT_FIRE d) v → Completes (.evtFire f d v) s (fun t =>
      (t.die d).fires = (s.die d).fires ++ [{ ch := v.toNat % 512, tick := s.nextPclk, lin := 0, weight := 1 }] ∧
      SameRegs [] s t ∧ SameMem s t)) ∧
    (∀ k : Fin 16, s.Carried f (EVT_FIRE_SET d k) v → Completes (.evtFireSet f d k v) s (fun t =>
      (t.die d).fires = (s.die d).fires ++ ((List.range 32).filter (fun j =>
        bitOf v.toNat j && decide (s.chanRight f d (32 * k + j) = none))).map (fun j =>
          { ch := 32 * k + j, tick := s.nextPclk, lin := 0, weight := 1 }) ∧
      ((∀ j : Fin 32, bitOf v.toNat j = true → s.chanRight f d (32 * k + j) = none) → SameRegs [] s t) ∧
      ((∃ j : Fin 32, bitOf v.toNat j = true ∧ s.chanRight f d (32 * k + j) ≠ none) →
        t.rdN (HUB_SEC_CNT f) = (s.rdN (HUB_SEC_CNT f) + 1) % 2 ^ 32 ∧ t.is (EVT_STAT d) ⟨3, 1⟩ = true) ∧ SameMem s t)) ∧
    (∀ k : Fin 16, s.Carried f (EVT_SLVL d k) v → Completes (.evtSlvlWrite f d k v) s (fun t =>
      (∀ j : Fin 32, t.bit (EVT_SLVL d k) j =
        if s.chanRight f d (32 * k + j) = none then bitOf v.toNat j else s.bit (EVT_SLVL d k) j) ∧
      ((∀ j : Fin 32, bitOf v.toNat j = s.bit (EVT_SLVL d k) j ∨ s.chanRight f d (32 * k + j) = none) →
        SameRegs [EVT_SLVL d k] s t) ∧
      ((∃ j : Fin 32, bitOf v.toNat j ≠ s.bit (EVT_SLVL d k) j ∧ s.chanRight f d (32 * k + j) ≠ none) →
        t.rdN (HUB_SEC_CNT f) = (s.rdN (HUB_SEC_CNT f) + 1) % 2 ^ 32) ∧ SameMem s t)) ∧
    (s.Carried f EVT_PFIRE v → Completes (.evtPfire f v) s (fun t =>
      t.hub.pkg = s.hub.pkg ++ [{ ch := v.toNat % 256, tick := s.nextPclk, lin := 0, weight := 1 }] ∧
      SameRegs [] s t ∧ SameMem s t)) ∧
    (∀ j : Fin 64, v.toNat % 64 = j.val → s.Carried f EVT_SFIRE v →
      (s.is (EVT_SCH j) EVT_SCH.VALID = true → s.rdF (EVT_SCH j) ⟨0, 4⟩ = s.pkgNum →
        s.hub.sys.find? (fun x => x.ch = j.val && x.issue = s.nextPclk) = none → Completes (.evtSfire f v) s (fun t =>
        t.hub.sys = s.hub.sys ++ [{ ch := j, issue := s.nextPclk, due := s.sysDue s.nextPclk 0, lin := 0, weight := 1 }] ∧
        t.rdN (EVT_SISSUE j) = (s.rdN (EVT_SISSUE j) + 1) % 2 ^ 32 ∧
        SameRegs ([EVT_SISSUE j, EVT_PSTAT] ++ (List.range 4).map EVT_STAT) s t ∧ SameMem s t)) ∧
      (∀ y : SysXfer, s.is (EVT_SCH j) EVT_SCH.VALID = true → s.rdF (EVT_SCH j) ⟨0, 4⟩ = s.pkgNum →
        s.hub.sys.find? (fun x => x.ch = j.val && x.issue = s.nextPclk) = some y → Completes (.evtSfire f v) s (fun t =>
          t.hub.sys = s.hub.sys.map (fun x => if x = y then { x with weight := min 7 (x.weight + 1) } else x) ∧
          t.rdN (EVT_SISSUE j) = (s.rdN (EVT_SISSUE j) + (min 7 (y.weight + 1) - y.weight)) % 2 ^ 32 ∧
          (1 ≤ y.weight → t.is EVT_PSTAT EVT_PSTAT.COINCIDENT = true) ∧
          SameRegs ([EVT_SISSUE j, EVT_PSTAT] ++ (List.range 4).map EVT_STAT) s t ∧ SameMem s t)) ∧
      (s.is (EVT_SCH j) EVT_SCH.VALID = false ∨ s.rdF (EVT_SCH j) ⟨0, 4⟩ ≠ s.pkgNum →
        exec (.evtSfire f v) s = .next ((s.wroteNow EVT_SFIRE v).refuse f EVT_SFIRE true false rsnOwner))) ∧
    (∀ (k : Fin 8) (high : Bool),
      (s.is (EVT_EVIO d k) EVT_EVIO.PIN = high ∨ s.is (EVT_EVIO d k) EVT_EVIO.DIR = true →
        exec (.evioInputEdge d k high) s = .next s) ∧
      (s.is (EVT_EVIO d k) EVT_EVIO.PIN ≠ high → s.is (EVT_EVIO d k) EVT_EVIO.DIR = false →
        s.is (EVT_EVIO d k) EVT_EVIO.INV = high ∨ mapGet 0 k (s.die d).evioAt = s.now + 1 → Completes (.evioInputEdge d k high) s (fun t =>
          t.is (EVT_EVIO d k) EVT_EVIO.PIN = high ∧ OnlyRegs [EVT_EVIO d k] s t)) ∧
      (s.is (EVT_EVIO d k) EVT_EVIO.PIN ≠ high → s.is (EVT_EVIO d k) EVT_EVIO.DIR = false →
        s.is (EVT_EVIO d k) EVT_EVIO.INV ≠ high → mapGet 0 k (s.die d).evioAt ≠ s.now + 1 →
        ∃ u : State, u.is (EVT_EVIO d k) EVT_EVIO.PIN = high ∧ mapGet 0 k (u.die d).evioAt = s.now + 1 ∧
          SameRegs [EVT_EVIO d k] s u ∧ SameMem s u ∧
          exec (.evioInputEdge d k high) s = .next (u.emit d (0xC00 + k) s.now))) ∧
    (∀ k : Fin 8, ((s.die d).pulses.find? (fun x => x.1 = k.val) = none → exec (.evioPulseEnd d k) s = .next s) ∧
      (∀ a e : Nat, (s.die d).pulses.find? (fun x => x.1 = k.val) = some (k.val, a, e) → Completes (.evioPulseEnd d k) s (fun t =>
        t.now = max s.now e ∧ t.is (EVT_IN_STAT d (0x400 + k)) EVT_IN_STAT.PEND = false ∧
        (t.die d).pulses = (s.die d).pulses.filter (fun z => z.1 ≠ k.val) ∧
        SameRegs [EVT_IN_STAT d (0x400 + k)] s t ∧ SameMem s t)))

/-- O42. Routing of events: on a die, in the hub, on system channels, and the return of a class 2 credit. Derived from
10_event_fabric.md. The earliest firings of a channel route together. EVENT_ROUTE takes them out of the route stage;
their weights, at most 7 in all, count in ISSUE, two or more set COINCIDENT, more than 7 WSAT, and the consumers act
one tick after; a transfer that fails its parity, by an armed inversion or by itself, is discarded and raises
EVENT_PARITY. PACKAGE_EVENT_ROUTE takes the earliest transfers of the channel at the hub, counts them and sends one
transfer toward each die, which waits where the channel has no credit there; one that fails its parity on its way in
is discarded. SYSTEM_EVENT_RX, but for one on DOWN at package 15, holds the transfer until its due tick, or until now
with SYS_LATE where that has passed. SYSTEM_EVENT_DELIVER takes the earliest held transfers of the channel and sends
one over each spine, which crosses where the channel has its credit there and waits where it has not.
CLASS2_CREDIT_RETURN lets the waiting transfer of a hop leave, where its link is up. Without anything to route, each
does nothing. Where the rules leave a point open, it follows the choices of log entries 65, 142, 167. -/
def Obligations.EventRouting : Prop :=
  ∀ (s : State) (c : Nat),
    (∀ (d : Fin 4) (n : Fin 512),
      (∀ bad : Bool, (s.die d).fires.filter (fun x => x.ch = n.val) = [] → exec (.eventRoute d (n, bad)) s = .next s) ∧
      ((s.die d).fires.filter (fun x => x.ch = n.val ∧ x.tick = c) ≠ [] →
        (∀ x ∈ (s.die d).fires, x.ch = n.val → c ≤ x.tick) → ∃ u : State,
          (u.die d).fires = (s.die d).fires.filter (fun x => ¬(x.ch = n.val ∧ x.tick = c)) ∧ SameRegs [] s u ∧ SameMem s u ∧
          (s.parityArmed d n = false → exec (.eventRoute d (n, false)) s = .next (u.routeEvent d n c
            (((s.die d).fires.filter (fun x => x.ch = n.val ∧ x.tick = c)).map Firing.weight).sum
            (maxLin ((s.die d).fires.filter (fun x => x.ch = n.val ∧ x.tick = c))))) ∧
          exec (.eventRoute d (n, true)) s = .next ((u.advance c).raise .eventParity d 3 d) ∧
          (s.parityArmed d n = true → exec (.eventRoute d (n, false)) s =
            .next ((u.injectDone.modHub (fun h => { h with injected := true })).raise .eventParity d 3 d))) ∧
      (∀ w : Fin 64, ((s.die d).fires.filter (fun x => x.ch = n.val ∧ x.tick = c)).map Firing.weight = [w.val] →
        (∀ x ∈ (s.die d).fires, x.ch = n.val → c ≤ x.tick) → s.parityArmed d n = false → s.inputsOf d n = [] →
        s.packageOf 0 d n = [] → Completes (.eventRoute d (n, false)) s (fun t => t.now = max s.now (c + 1) ∧
          t.rdN (EVT_ISSUE d n) = (s.rdN (EVT_ISSUE d n) + min 7 w.val) % 2 ^ 32 ∧
          t.is (EVT_STAT d) EVT_STAT.WSAT = (s.is (EVT_STAT d) EVT_STAT.WSAT || decide (7 < w.val)) ∧
          t.is (EVT_STAT d) EVT_STAT.COINCIDENT = (s.is (EVT_STAT d) EVT_STAT.COINCIDENT || decide (2 ≤ w.val)) ∧
          SameRegs [EVT_ISSUE d n, EVT_STAT d] s t ∧ SameMem s t))) ∧
    (∀ (n : Fin 256) (bad : List (Fin 5)), (s.hub.pkg.filter (fun x => x.ch = n.val) = [] → exec (.packageEventRoute (n, bad)) s = .next s) ∧
      (s.hub.pkg.filter (fun x => x.ch = n.val ∧ x.tick = c) ≠ [] → (∀ x ∈ s.hub.pkg, x.ch = n.val → c ≤ x.tick) → 4 ∈ bad → ∃ u : State,
        u.now = max s.now c ∧ u.hub.pkg = s.hub.pkg.filter (fun x => ¬(x.ch = n.val ∧ x.tick = c)) ∧ SameRegs [] s u ∧ SameMem s u ∧
        exec (.packageEventRoute (n, bad)) s = .next (u.hubParity (s.pkgDie n))) ∧
      (∀ w : Fin 8, 4 ∉ bad → (s.hub.pkg.filter (fun x => x.ch = n.val ∧ x.tick = c)).map PkgXfer.weight = [w.val] →
        (∀ x ∈ s.hub.pkg, x.ch = n.val → c ≤ x.tick) → s.systemOf n = [] →
        (∀ d : Fin 4, c < (s.hop n (4 + d)).free ∧ (s.hop n (4 + d)).wait = none) →
        Completes (.packageEventRoute (n, bad)) s (fun t => t.now = max s.now c ∧
          t.hub.pkg = s.hub.pkg.filter (fun x => ¬(x.ch = n.val ∧ x.tick = c)) ∧
          t.rdN (EVT_PISSUE n) = (s.rdN (EVT_PISSUE n) + w) % 2 ^ 32 ∧
          t.is EVT_PSTAT EVT_PSTAT.COINCIDENT = (s.is EVT_PSTAT EVT_PSTAT.COINCIDENT || decide (2 ≤ w.val)) ∧
          (∀ d : Fin 4, ((t.hop n (4 + d)).wait.map PkgXfer.weight) = some w.val ∧
            ((t.hop n (4 + d)).wait.map PkgXfer.tick) = some c ∧ ((t.hop n (4 + d)).wait.map PkgXfer.bad) = some (bad.any (fun x => x.val = d.val)) ∧ (t.hop n (4 + d)).free = (s.hop n (4 + d)).free) ∧
          SameRegs [EVT_PISSUE n, EVT_PSTAT] s t ∧ SameMem s t))) ∧
    (∀ (port : Fin 2) (j : Fin 64) (hops src : Fin 16) (w lin : Fin 8), (∀ bad : Bool, s.slotDiscarded port = true →
        exec (.systemEventRx port j c (hops, src) (w, bad) lin) s = .next s) ∧
      (s.slotDiscarded port = false → exec (.systemEventRx port j c (hops, src) (w, true) lin) s = .next (s.hubParity none)) ∧
      (s.slotDiscarded port = false → Completes (.systemEventRx port j c (hops, src) (w, false) lin) s (fun t =>
      t.hub.sys = s.hub.sys ++ [{ ch := j, issue := c, due := max s.now (s.sysDue c hops), lin := lin, weight := w }] ∧
      t.is EVT_PSTAT EVT_PSTAT.SYS_LATE = (s.is EVT_PSTAT EVT_PSTAT.SYS_LATE ||
        (s.is EVT_SYS_CFG EVT_SYS_CFG.ALIGN && decide (s.sysDue c hops < s.now))) ∧
      SameRegs ([EVT_PSTAT] ++ (List.range 4).map EVT_STAT) s t ∧ SameMem s t))) ∧
    (∀ (j : Fin 64) (bad : List (Fin 4)), (s.hub.sys.filter (fun x => x.ch = j.val) = [] → exec (.systemEventDeliver (j, bad)) s = .next s) ∧
      (6 ≤ c → s.hub.sys.filter (fun x => x.ch = j.val ∧ x.due = c) ≠ [] → (∀ x ∈ s.hub.sys, x.ch = j.val → c ≤ x.due) →
        s.packageOf 2 0 j = [] → s.hub.inject = none →
        (∀ d : Fin 4, s.inputsOf d (768 + j) = [] ∧ s.channelsOf d (0xE00 + j) = [] ∧ (s.hop (256 + j) (4 + d)).wait = none) →
        (∀ d ∈ bad, ((s.advance c).hop (256 + j) (4 + d)).free > c - 6 ∨ (s.advance c).hopUp (4 + d) = false) →
        Completes (.systemEventDeliver (j, bad)) s (fun t => t.now = max s.now c ∧
          (∀ d : Fin 4, if (s.hop (256 + j) (4 + d)).free ≤ c - 6 ∧ (s.advance c).hopUp (4 + d) = true
            then t.hop (256 + j) (4 + d) = { free := c + 2, wait := none }
            else (t.hop (256 + j) (4 + d)).free = (s.hop (256 + j) (4 + d)).free ∧
              (t.hop (256 + j) (4 + d)).wait.map PkgXfer.bad = some (bad.any (fun x => x.val = d.val)) ∧
              (t.hop (256 + j) (4 + d)).wait.map PkgXfer.weight =
                some (min 7 ((s.hub.sys.filter (fun x => x.ch = j.val ∧ x.due = c)).map SysXfer.weight).sum)) ∧
          t.hub.sys = s.hub.sys.filter (fun x => ¬(x.ch = j.val ∧ x.due = c)) ∧
          t.is EVT_PSTAT EVT_PSTAT.COINCIDENT = (s.is EVT_PSTAT EVT_PSTAT.COINCIDENT ||
            decide (2 ≤ ((s.hub.sys.filter (fun x => x.ch = j.val ∧ x.due = c)).map SysXfer.weight).sum)) ∧
          (∀ d : Fin 4, t.is (EVT_STAT d) EVT_STAT.WSAT = (s.is (EVT_STAT d) EVT_STAT.WSAT ||
            decide (7 < ((s.hub.sys.filter (fun x => x.ch = j.val ∧ x.due = c)).map SysXfer.weight).sum))) ∧
          SameRegs ([EVT_PSTAT] ++ (List.range 4).map EVT_STAT) s t ∧ SameMem s t)) ∧
      (∀ d : Fin 4, 6 ≤ c → s.hub.sys.filter (fun x => x.ch = j.val ∧ x.due = c) ≠ [] → (∀ x ∈ s.hub.sys, x.ch = j.val → c ≤ x.due) →
        bad = [d] → s.hub.inject = none → (∀ e : Fin 4, (s.hop (256 + j) (4 + e)).wait = none ∧ ((s.hop (256 + j) (4 + e)).free ≤ c - 6 ↔ e = d)) →
        (s.advance c).hopUp (4 + d) = true → Completes (.systemEventDeliver (j, bad)) s (fun t =>
          t.is (FLT_SRC_STAT (srcNum .eventParity d)) FLT_SRC_STAT.LATCHED = true))) ∧
    (∀ (n : Fin 320) (h : Fin 10), ((s.hop n h).wait = none ∨ s.hopUp h = false →
        exec (.class2CreditReturn n h) s = .next s) ∧
      (∀ x : PkgXfer, (s.hop n h).wait = some x → x.ch = n.val → s.hopUp h = true → ∃ u : State, u.now = max s.now (s.hop n h).free ∧
        u.hop n h = { free := u.now + (hopTicks h).2, wait := none } ∧ SameRegs [] s u ∧ SameMem s u ∧
        exec (.class2CreditReturn n h) s =
          .next (if h.val < 8 then u.pkgArrive h (u.now + (hopTicks h).1) x else u.sysLeave h x)))

/-- O43. Records on their way to the host: spine, hub, ring, writeback, notice. Derived from
11_data_movement_and_credits.md, 07_measurement_path.md, 15_register_maps.md. SPINE_RECORD_SEND takes the oldest
record of the result buffer, as its slot in memory holds it where it has one, on a quota credit; without a record, a
credit or a spine it does nothing. RECORD_DELIVER takes the oldest record of the spine, returns its credit and writes
it to the next slot of its region's ring, with DROP_SINCE after a drop, or counts a drop; its fate waits for a notice;
a nightlight record goes to ring 0 and has none. RING_WRITEBACK posts TAIL and the drop count; what is posted in a
stall waits for its end. A held message is sent at RING_MSIX_HOLDOFF_END. RING_HEAD_WRITE, carried out, moves HEAD
within the used slots, else sets HEAD_ERR; a record dropped earlier in that PCLK cycle for want of a slot takes the
slot that comes free. RING_ENABLE, carried out, of a disabled ring sets TAIL to HEAD. NOTICE_SEND sends the fates of a
unit, while fewer than 32 notices are on their way to its die; COMPLETION_NOTICE moves them from FLIGHT to DELIV and
DROP. Nothing to do: no change. Where the rules leave a point open, it follows the choices of log entries 57, 68. -/
def Obligations.RecordsAndRings : Prop :=
  ∀ (s : State) (t : Fin 16) (r : Fin 64) (p : Fin 256), s.hub.inject = none →
    ((s.red t).buf = [] ∨ s.spineOut (t / 4) = true ∨
        s.spineQuota t ≤ (s.region t).quotaUse → exec (.spineRecordSend t) s = .next s) ∧
    (∀ (x : Rec) (l : List Rec), s.ecc = [] → (s.red t).buf = x :: l → (s.red t).waiting = [] → s.spineOut (t / 4) = false →
      (s.region t).quotaUse < s.spineQuota t → Completes (.spineRecordSend t) s (fun u =>
        (u.red t).buf = l ∧ (u.region t).quotaUse = (s.region t).quotaUse + 1 ∧
        u.hub.spine = s.hub.spine ++ [(t.val, { x with bytes := s.lateFlag t x (match x.slot with | some a => s.bytes a 32 | none => x.bytes) })] ∧
        SameRegs [] s u ∧ SameMem s u)) ∧
    (s.hub.spine = [] → exec .recordDeliver s = .next s) ∧
    (∀ (x : Rec) (l : List (Nat × Rec)), s.hub.spine = (t.val, x) :: l → x.nl = true → s.ringTakes 0 = true → Completes .recordDeliver s (fun u =>
        u.hub.spine = l ∧ (u.region t).quotaUse = (s.region t).quotaUse - 1 ∧ u.hub.fates = s.hub.fates ∧
        u.out.posted = .write ((s.rd64 (DMA_RING_BASE_LO 0) + 32 * (s.rdN (DMA_RING_TAIL 0) % 2 ^ s.ringLog 0)) % 2 ^ 64)
          (if mapGet 0 x.unit s.hub.dropMarks = 1 then withFlags x.bytes flDropSince else x.bytes) :: s.out.posted ∧
        u.rdN (DMA_RING_TAIL 0) = (s.rdN (DMA_RING_TAIL 0) + 1) % 2 ^ 32 ∧ SameRegs [DMA_RING_TAIL 0] s u ∧ SameMem s u)) ∧
    (∀ (x : Rec) (l : List (Nat × Rec)), s.hub.spine = (t.val, x) :: l → x.nl = true → s.ringTakes 0 = false → Completes .recordDeliver s (fun u =>
        u.hub.spine = l ∧ u.hub.fates = s.hub.fates ∧ u.out.posted = s.out.posted ∧
        u.rdN (DMA_RING_DROP 0) = (s.rdN (DMA_RING_DROP 0) + 1) % 2 ^ 32 ∧ SameRegs [DMA_RING_DROP 0, DMA_RING_STAT 0] s u ∧ SameMem s u)) ∧
    (∀ (x : Rec) (l : List (Nat × Rec)), s.hub.spine = (t.val, x) :: l → x.nl = false → s.rdF (DMA_RMAP t) ⟨0, 6⟩ = r.val →
      (s.ringTakes r = true → Completes .recordDeliver s (fun u =>
        u.hub.spine = l ∧ (u.region t).quotaUse = (s.region t).quotaUse - 1 ∧
        u.out.posted = .write ((s.rd64 (DMA_RING_BASE_LO r) + 32 * (s.rdN (DMA_RING_TAIL r) % 2 ^ s.ringLog r)) % 2 ^ 64)
          (if mapGet 0 x.unit s.hub.dropMarks = 1 then withFlags x.bytes flDropSince else x.bytes) :: s.out.posted ∧
        u.rdN (DMA_RING_TAIL r) = (s.rdN (DMA_RING_TAIL r) + 1) % 2 ^ 32 ∧ mapGet 0 x.unit u.hub.dropMarks = 0 ∧
        (mapGet {} x.unit u.hub.fates).deliv = (mapGet {} x.unit s.hub.fates).deliv + 1 ∧
        (mapGet {} x.unit u.hub.fates).drop = (mapGet {} x.unit s.hub.fates).drop ∧
        SameRegs [DMA_RING_TAIL r] s u ∧ SameMem s u)) ∧
      (s.ringTakes r = false → Completes .recordDeliver s (fun u =>
        u.hub.spine = l ∧ (u.region t).quotaUse = (s.region t).quotaUse - 1 ∧ u.out.posted = s.out.posted ∧
        u.rdN (DMA_RING_DROP r) = (s.rdN (DMA_RING_DROP r) + 1) % 2 ^ 32 ∧
        u.is (DMA_RING_STAT r) DMA_RING_STAT.DROPPED = true ∧ mapGet 0 x.unit u.hub.dropMarks = 1 ∧
        (mapGet {} x.unit u.hub.fates).drop = (mapGet {} x.unit s.hub.fates).drop + 1 ∧
        (mapGet {} x.unit u.hub.fates).deliv = (mapGet {} x.unit s.hub.fates).deliv ∧
        SameRegs [DMA_RING_DROP r, DMA_RING_STAT r] s u ∧ SameMem s u))) ∧
    ((s.ring r).since = 0 ∨ s.is DMA_STAT DMA_STAT.LINK_DOWN = true → exec (.ringWriteback r) s = .next s) ∧
    ((s.ring r).since ≠ 0 → s.is DMA_STAT DMA_STAT.LINK_DOWN = false → s.is (DMA_RING_CTRL r) DMA_RING_CTRL.IEN = false → Completes (.ringWriteback r) s (fun u =>
      u.now = (if s.wbCnt r ≤ (s.ring r).since then s.now else max s.now ((s.ring r).firstAt + s.ringUs r)) ∧
      (let w := Posted.write (s.rd64 (DMA_RING_WB_LO r)) (leBytes 4 (s.rdN (DMA_RING_TAIL r)) ++ leBytes 4 ((s.ring r).drops % 2 ^ 32))
       if s.is DMA_STAT DMA_STAT.STALL then u.hub.postWait = s.hub.postWait ++ [w] ∧ u.out.posted = s.out.posted
       else u.hub.postWait = s.hub.postWait ∧ u.out.posted = w :: s.out.posted) ∧
      (u.ring r).since = 0 ∧ SameRegs [] s u ∧ SameMem s u)) ∧
    ((s.ring r).held = false → exec (.ringMsixHoldoffEnd r) s = .next s) ∧
    (∀ a : Nat, (s.ring r).held = true → (s.ring r).lastInt = some a → s.is (DMA_RING_CTRL r) DMA_RING_CTRL.IEN = true →
      s.masked (s.rdF (DMA_RING_CTRL r) DMA_RING_CTRL.OWNER) (s.rdF (DMA_RING_CTRL r) DMA_RING_CTRL.VEC) = false →
      Completes (.ringMsixHoldoffEnd r) s (fun u => u.now = max s.now (a + s.ringUs r) ∧ (u.ring r).held = false ∧
        (u.ring r).lastInt = some u.now ∧
        (let w := Posted.msix (s.rdF (DMA_RING_CTRL r) DMA_RING_CTRL.OWNER) (s.rdF (DMA_RING_CTRL r) DMA_RING_CTRL.VEC)
         if s.is DMA_STAT DMA_STAT.STALL then u.hub.postWait = s.hub.postWait ++ [w] ∧ u.out.posted = s.out.posted
         else u.hub.postWait = s.hub.postWait ∧ u.out.posted = w :: s.out.posted) ∧ SameRegs [] s u ∧ SameMem s u)) ∧
    (∀ (f : Fin 8) (v : Word), s.Carried f (DMA_RING_HEAD r) v →
      ((v.toNat + 2 ^ 32 - s.rdN (DMA_RING_HEAD r)) % 2 ^ 32 ≤ s.ringUsed r →
        (s.ring r).late = [] ∨ s.inCycle (s.ring r).lateAt = false → Completes (.ringHeadWrite f r v) s (fun u =>
        u.rd (DMA_RING_HEAD r) = v ∧ OnlyRegs [DMA_RING_HEAD r] s u)) ∧
      (∀ (k : Fin 256) (noted : Bool) (bs : List (BitVec 8)), (v.toNat + 2 ^ 32 - s.rdN (DMA_RING_HEAD r)) % 2 ^ 32 ≤ s.ringUsed r →
        s.inCycle (s.ring r).lateAt = true → (s.ring r).late = [(some k.val, false, noted, bs)] → (s.wr (DMA_RING_HEAD r) v).ringTakes r = true →
        Completes (.ringHeadWrite f r v) s (fun u => u.rd (DMA_RING_HEAD r) = v ∧
          u.rdN (DMA_RING_TAIL r) = (s.rdN (DMA_RING_TAIL r) + 1) % 2 ^ 32 ∧
          u.rdN (DMA_RING_DROP r) = (s.rdN (DMA_RING_DROP r) + 2 ^ 32 - 1) % 2 ^ 32 ∧
          u.out.posted = .write ((s.rd64 (DMA_RING_BASE_LO r) + 32 * (s.rdN (DMA_RING_TAIL r) % 2 ^ s.ringLog r)) % 2 ^ 64) bs :: s.out.posted ∧
          mapGet 0 k u.hub.dropMarks = 0 ∧ (noted = true → (mapGet {} k s.hub.fates).drop ≠ 0 →
            (mapGet {} k u.hub.fates).deliv = (mapGet {} k s.hub.fates).deliv + 1 ∧
            (mapGet {} k u.hub.fates).drop = (mapGet {} k s.hub.fates).drop - 1) ∧
          SameRegs [DMA_RING_HEAD r, DMA_RING_TAIL r, DMA_RING_DROP r, DMA_RING_STAT r] s u ∧ SameMem s u)) ∧
      (s.ringUsed r < (v.toNat + 2 ^ 32 - s.rdN (DMA_RING_HEAD r)) % 2 ^ 32 → Completes (.ringHeadWrite f r v) s (fun u =>
        u.is (DMA_RING_STAT r) DMA_RING_STAT.HEAD_ERR = true ∧ OnlyRegs [DMA_RING_STAT r] s u))) ∧
    (∀ (f : Fin 8) (v : Word), s.Carried f (DMA_RING_CTRL r) (v ||| 1#32) → Completes (.ringEnable f r v) s (fun u =>
      u.ringOn r = true ∧ (s.ringOn r = false → u.rd (DMA_RING_TAIL r) = s.rd (DMA_RING_HEAD r) ∧ (u.ring r).since = 0) ∧
      (s.ringOn r = true → u.rd (DMA_RING_TAIL r) = s.rd (DMA_RING_TAIL r)) ∧
      SameRegs [DMA_RING_CTRL r, DMA_RING_TAIL r] s u ∧ SameMem s u)) ∧
    ((mapGet {} p s.hub.fates).deliv + (mapGet {} p s.hub.fates).drop = 0 ∨ s.spineOut (p / 64) = true ∨
        32 ≤ s.noticesOut (p / 64) →
      exec (.noticeSend p) s = .next s) ∧
    (∀ x : FateState, mapGet {} p s.hub.fates = x → x.deliv + x.drop ≠ 0 → s.spineOut (p / 64) = false → s.noticesOut (p / 64) < 32 →
      Completes (.noticeSend p) s (fun u => u.now = (if 64 ≤ x.deliv + x.drop then s.now else max s.now (x.firstAt + usTicks)) ∧
        mapGet {} p u.hub.fates = {} ∧ u.hub.notices = s.hub.notices ++ [(p.val, x.deliv, x.drop)] ∧
        SameRegs [] s u ∧ SameMem s u)) ∧
    (∀ d : Fin 4, (s.hub.notices.find? (fun x => x.1 / 64 = d.val) = none → exec (.completionNotice d) s = .next s) ∧
      (∀ a b : Nat, s.hub.notices.find? (fun x => x.1 / 64 = d.val) = some (p.val, a, b) →
        Completes (.completionNotice d) s (fun u =>
          u.flight p = s.flight p - (a + b) ∧
          u.rd64 (RDC_DELIV_LO p) = (s.rd64 (RDC_DELIV_LO p) + a) % 2 ^ 64 ∧
          u.rd64 (RDC_DROP_LO p) = (s.rd64 (RDC_DROP_LO p) + b) % 2 ^ 64 ∧
          u.hub.notices = s.hub.notices.erase (p.val, a, b) ∧
          SameRegs [RDC_DELIV_LO p, RDC_DELIV_LO p + 4, RDC_DROP_LO p,
            RDC_DROP_LO p + 4] s u ∧ SameMem s u)))

/-- O44. The host link: stall, hot reset, link down and up, D3hot. Derived from 11_data_movement_and_credits.md,
14_faults_availability_life.md, 15_register_maps.md. HOST_STALL, STALL_US after the credits ended or at once where the
link is down, sets STALL and STALL_SEEN and raises HOST_STALL, once; HOST_STALL_END, while the link is up, clears
STALL and the source's LIVE, sends the writes that waited in their order and sets the cause. PCIE_HOT_RESET returns
every ring register to its reset value, every MSI-X DWORD to masked and every function to D0, no other register.
PCIE_LINK_DOWN does the same, loses the writes that wait, sets LINK_DOWN and begins a stall; PCIE_LINK_UP clears
LINK_DOWN alone. D3HOT_ENTRY disables the rings that the function owns and those only; D3HOT_EXIT ends D3hot and sends
the messages of its set and enabled causes. Where the rules leave a point open, it follows the choices of log entries
68, 71, 103, 109. -/
def Obligations.HostLinkAndPower : Prop :=
  ∀ s : State,
    (s.is DMA_STAT DMA_STAT.STALL = true → exec .hostStall s = .next s) ∧
    (s.is DMA_STAT DMA_STAT.STALL = false → ∃ u : State, u.is DMA_STAT DMA_STAT.STALL = true ∧
      u.now = (if s.is DMA_STAT DMA_STAT.LINK_DOWN then s.now else s.now + 800 * max 1 (s.rdF DMA_CFG ⟨0, 16⟩)) ∧
      u.is DMA_STAT DMA_STAT.STALL_SEEN = true ∧ SameRegs [DMA_STAT] s u ∧ SameMem s u ∧
      exec .hostStall s = .next ((u.setCause 0 causeLink).raisePkg .hostStall 0 true)) ∧
    (s.is DMA_STAT DMA_STAT.STALL = false ∨ s.is DMA_STAT DMA_STAT.LINK_DOWN = true → exec .hostStallEnd s = .next s) ∧
    (s.is DMA_STAT DMA_STAT.STALL = true → s.is DMA_STAT DMA_STAT.LINK_DOWN = false → ∃ u : State,
      u.is DMA_STAT DMA_STAT.STALL = false ∧ u.is (FLT_SRC_STAT (srcNum .hostStall 0)) FLT_SRC_STAT.LIVE = false ∧
      u.out.posted = s.hub.postWait.reverse ++ s.out.posted ∧ u.hub.postWait = [] ∧
      SameRegs [DMA_STAT, FLT_SRC_STAT (srcNum .hostStall 0)] s u ∧ SameMem s u ∧ exec .hostStallEnd s = .next (u.setCause 0 causeLink)) ∧
    (Canon resetOf s.imgVals → Completes .pcieHotReset s (fun t =>
      (∀ j : Fin 1024, t.rd (DMA_RING_CTRL 0 + 4 * j) = s.resetVal (DMA_RING_CTRL 0 + 4 * j)) ∧
      (∀ a : Nat, a < DMA_RING_CTRL 0 ∨ DMA_RING_CTRL 64 ≤ a → t.rd a = s.rd a) ∧
      (∀ (f : Fin 8) (o : Fin 4096), t.msix f o = msixReset o) ∧ t.hub.d3 = 0 ∧ SameMem s t)) ∧
    (Canon resetOf s.imgVals → ∃ u : State,
      (∀ j : Fin 1024, u.rd (DMA_RING_CTRL 0 + 4 * j) = s.resetVal (DMA_RING_CTRL 0 + 4 * j)) ∧
      u.is DMA_STAT DMA_STAT.LINK_DOWN = true ∧ u.is DMA_STAT DMA_STAT.STALL = s.is DMA_STAT DMA_STAT.STALL ∧
      (∀ a : Nat, a < DMA_RING_CTRL 0 ∨ DMA_RING_CTRL 64 ≤ a → a ≠ DMA_STAT → u.rd a = s.rd a) ∧
      (∀ (f : Fin 8) (o : Fin 4096), u.msix f o = msixReset o) ∧ u.hub.d3 = 0 ∧ u.hub.postWait = [] ∧ SameMem s u ∧
      (s.is DMA_STAT DMA_STAT.STALL = true → exec .pcieLinkDown s = .next u) ∧
      (s.is DMA_STAT DMA_STAT.STALL = false → ∃ v : State, v.is DMA_STAT DMA_STAT.STALL = true ∧
        v.is DMA_STAT DMA_STAT.STALL_SEEN = true ∧ OnlyRegs [DMA_STAT] u v ∧
        exec .pcieLinkDown s = .next ((v.setCause 0 causeLink).raisePkg .hostStall 0 true))) ∧
    Completes .pcieLinkUp s (fun t => t.is DMA_STAT DMA_STAT.LINK_DOWN = false ∧ OnlyRegs [DMA_STAT] s t) ∧
    (∀ f : Fin 8, Completes (.d3hotEntry f) s (fun t => bitOf t.hub.d3 f = true ∧
      (∀ r : Fin 64, t.ringOn r = (s.ringOn r && decide (s.rdF (DMA_RING_CTRL r) DMA_RING_CTRL.OWNER ≠ f.val))) ∧
      (∀ g : Fin 8, g ≠ f → bitOf t.hub.d3 g = bitOf s.hub.d3 g) ∧
      SameRegs ((List.range 64).map DMA_RING_CTRL) s t ∧ SameMem s t)) ∧
    (∀ f : Fin 8, (bitOf s.hub.d3 f = false → exec (.d3hotExit f) s = .next s) ∧
      (bitOf s.hub.d3 f = true → ∃ u : State, bitOf u.hub.d3 f = false ∧ SameRegs [] s u ∧ SameMem s u ∧
        exec (.d3hotExit f) s = .next (u.each (indices 12 (fun c => s.bit (HUB_INT_STAT f) c && s.bit (HUB_INT_EN f) c))
          (fun v c => v.sendCause f c))))

/-- O45. Spine outages: CRC errors, retrain attempts, the link down and up, the access timeout. Derived from
11_data_movement_and_credits.md, 14_faults_availability_life.md. SPINE_CRC counts, raises its source and counts the
failures in a row; the one after 32 failed replays is a retrain attempt. SPINE_RETRAIN counts an attempt; the first of
an outage clears UP, sets RETRAINING and raises SPINE_RETRAIN. SPINE_DOWN after three attempts raises SPINE_DOWN,
once; an access that waits for the die completes then, a read with all ones. SPINE_RETRY of a link that is down makes
an attempt 10 ms after the last. SPINE_UP of a link that is not up sets UP alone in its status, ends the sources' LIVE
and the count of attempts, sets the cause, and lets the transfers and the accesses go on that have waited.
REG_ACCESS_TIMEOUT at a die whose spine is down sets REG_TMO, and a read answers all ones; elsewhere it does nothing.
Where the rules leave a point open, it follows the choices of log entries 70, 166, 171. -/
def Obligations.SpineOutages : Prop :=
  ∀ (s : State) (d : Fin 4),
    (∃ u : State, u.rdN (DIE_SPINE_CRC d) = (s.rdN (DIE_SPINE_CRC d) + 1) % 2 ^ 32 ∧ OnlyRegs [DIE_SPINE_CRC d] s u ∧
      ((s.die d).spineFails < 32 → exec (.spineCrc d) s = .next ((u.report .spineCrc d 3 d).modDie d (fun x => { x with spineFails := (s.die d).spineFails + 1 }))) ∧
      (32 ≤ (s.die d).spineFails → exec (.spineCrc d) s =
        .next (((u.report .spineCrc d 3 d).modDie d (fun x => { x with spineFails := 0 })).spineAttempt d))) ∧
    (s.spineOut d = true → Completes (.spineRetrain d) s (fun t =>
      t.rdN (DIE_SPINE_RETRAIN d) = (s.rdN (DIE_SPINE_RETRAIN d) + 1) % 2 ^ 32 ∧
      (t.die d).spineTries = (s.die d).spineTries + 1 ∧ (t.die d).spineTryAt = s.now ∧ SameRegs [DIE_SPINE_RETRAIN d] s t ∧ SameMem s t)) ∧
    (s.spineOut d = false → ∃ u : State, u.rdN (DIE_SPINE_RETRAIN d) = (s.rdN (DIE_SPINE_RETRAIN d) + 1) % 2 ^ 32 ∧
      (u.die d).spineTries = (s.die d).spineTries + 1 ∧ (u.die d).spineTryAt = s.now ∧ u.is (DIE_SPINE_STAT d) DIE_SPINE_STAT.UP = false ∧
      u.is (DIE_SPINE_STAT d) DIE_SPINE_STAT.RETRAINING = true ∧ SameRegs [DIE_SPINE_RETRAIN d, DIE_SPINE_STAT d] s u ∧
      SameMem s u ∧
      exec (.spineRetrain d) s = .next ((u.setCause 0 causeLink).raise .spineRetrain d 3 d 0 true)) ∧
    (s.spineDown d = true → exec (.spineDown d) s = .next s ∧
      (s.spineOut d = true → Completes (.spineRetry d) s (fun t =>
        t.rdN (DIE_SPINE_RETRAIN d) = (s.rdN (DIE_SPINE_RETRAIN d) + 1) % 2 ^ 32 ∧
        t.now = max s.now ((s.die d).spineTryAt + 8000000) ∧ (t.die d).spineTryAt = t.now ∧
        (t.die d).spineTries = (s.die d).spineTries + 1 ∧ SameRegs [DIE_SPINE_RETRAIN d] s t ∧ SameMem s t))) ∧
    (s.spineDown d = false → exec (.spineRetry d) s = .next s ∧
      (3 ≤ (s.die d).spineTries → s.hub.spineWait = [] →
        exec (.spineDown d) s = .next (s.fenceSettle.raise .spineDown d 3 d 0 true)) ∧
      (∀ (f : Fin 8) (a : Nat), 3 ≤ (s.die d).spineTries → s.hub.spineWait = [(d.val, .read f a false)] → ∃ u : State,
        u.is DMA_STAT DMA_STAT.REG_TMO = true ∧ u.out.reads = (f.val, 0xFFFFFFFF#32) :: s.out.reads ∧ u.hub.spineWait = [] ∧
        SameRegs [DMA_STAT] s u ∧ SameMem s u ∧
        exec (.spineDown d) s = .next (u.fenceSettle.raise .spineDown d 3 d 0 true)) ∧
      (∀ t : State, (s.die d).spineTries = 2 → exec (.spineRetrain d) s = .next t → t.hub.spineWait = [] →
        exec (.spineDown d) s = .next (t.fenceSettle.raise .spineDown d 3 d 0 true))) ∧
    (s.is (DIE_SPINE_STAT d) DIE_SPINE_STAT.UP = true → exec (.spineUp d) s = .next s) ∧
    (s.is (DIE_SPINE_STAT d) DIE_SPINE_STAT.UP = false → ∃ u : State, u.rd (DIE_SPINE_STAT d) = 1#32 ∧
      u.spineOut d = false ∧ u.spineDown d = false ∧ (u.die d).spineTries = 0 ∧
      SameRegs [DIE_SPINE_STAT d, FLT_SRC_STAT (srcNum .spineRetrain d), FLT_SRC_STAT (srcNum .spineDown d)] s u ∧ SameMem s u ∧
      exec (.spineUp d) s = .next (((u.setCause 0 causeLink).hopsResume d).spineFlush d)) ∧
    (∀ (f : Fin 8) (a : Nat) (v : Word), s.hub.spineWait = [(d.val, .write f a v)] → s.hopsWaiting (4 + d) = [] →
      ∃ u : State, u = { s with hub := { s.hub with spineWait := [] } } ∧
        s.spineFlush d = ((u.spineXfer d 1).reachWrite a v (fun x => x.writeReg f a v)).fenceSettle) ∧
    (∀ (f : Fin 8) (read : Bool), (s.spineDown d = false → exec (.regAccessTimeout f d read) s = .next s) ∧
      (s.spineDown d = true → Completes (.regAccessTimeout f d read) s (fun t => t.is DMA_STAT DMA_STAT.REG_TMO = true ∧
        t.out.reads = (if read then [(f.val, 0xFFFFFFFF#32)] else []) ++ s.out.reads ∧
        SameRegs [DMA_STAT] s t ∧ SameMem s t)))

/-- O46. Slots of ROPE: management messages, fault reports, audit slots, beacons; the mailbox and the credit audit.
Derived from 11_data_movement_and_credits.md, 14_faults_availability_life.md, 15_register_maps.md. Nothing that
arrives on DOWN at package 15 has an effect. MANAGEMENT_SLOT_RX for this package enters the receive queue and goes no
further; one for a package above leaves on UP with a class 3 credit where it came in on DOWN, and goes nowhere where
it came in on UP; one that does not stay here returns its credit. ROPE_FAULT_SLOT_RX is counted and copied; with
SAFE_PROP one of severity 6 of another package raises ROPE_PEER_SAFE; a member learns the anchor's reference from the
anchor's REFIN_LOST, and that it is unroped from a live ROPE_ALIGN_LOST of a package above it (log entry 112).
AUDIT_SLOT_RX completes the sum of its pool: the three counts are recorded; a wrong sum is marked, counted, reported
and reloaded. BEACON_RX ends here. MBX_SEND, carried out, with a port, a credit and nothing waiting sends the message
with the next number; while BUSY it only stores DEST and LEN. CREDIT_AUDIT at the next multiple of 800,000 without a
lost credit records the counts of every pool and changes no register. Where the rules leave a point open, it follows
the choices of log entries 73, 75, 112, 141, 170. -/
def Obligations.RopeSlotsAndAudit : Prop :=
  ∀ s : State,
    (∀ (port : Fin 2) (dest src : Fin 16) (num : BitVec 8) (len : Fin 9) (data : DWord),
      (s.slotDiscarded port = true → exec (.managementSlotRx port dest src num len data) s = .next s) ∧
      (dest.val = s.pkgNum → dest.val ≠ 15 → Completes (.managementSlotRx port dest src num len data) s (fun t =>
        t.hub.mbx = s.hub.mbx ++ [{ port := some port.val, src := src, num := num.toNat, len := len, data := data }] ∧ t.out = s.out ∧
        SameRegs [] s t ∧ SameMem s t)) ∧
      (dest.val < s.pkgNum → dest.val ≠ 15 →
        Completes (.managementSlotRx 0 dest src num len data) s (fun t => t.hub.mbx = s.hub.mbx ∧
          t.out.rope = (if s.is (ROPE_STAT 0) ROPE_STAT.LINK_UP then [(0, .credit 3)] else []) ++ s.out.rope ∧
          SameRegs [] s t ∧ SameMem s t) ∧
        (s.pkgNum ≠ 15 → s.is (ROPE_STAT 0) ROPE_STAT.LINK_UP = true → 0 < (s.ropePort 0).cred3 →
          Completes (.managementSlotRx 1 dest src num len data) s (fun t => t.hub.mbx = s.hub.mbx ∧
            t.out.rope = (0, .mgmt src dest num.toNat len data) ::
              ((if s.is (ROPE_STAT 1) ROPE_STAT.LINK_UP then [(1, .credit 3)] else []) ++ s.out.rope) ∧
            (t.ropePort 0).cred3 = (s.ropePort 0).cred3 - 1 ∧ SameRegs [] s t ∧ SameMem s t)))) ∧
    (∀ (port : Fin 2) (pkg : Fin 16) (src : BitVec 16) (sev : BitVec 8) (live : Bool) (ts : DWord),
      (s.slotDiscarded port = true → exec (.ropeFaultSlotRx port pkg src sev live ts) s = .next s) ∧
      (s.slotDiscarded port = false → port = 0 → s.isMember = true → src.toNat = srcNum .refinLost 0 → pkg = 0 → sev ≠ 6#8 →
        Completes (.ropeFaultSlotRx port pkg src sev live ts) s (fun t => t.hub.clk.anchorHold = live ∧
          t.is HUB_ALN_STAT HUB_ALN_STAT.HOLDOVER = (live || s.is HUB_CAL_STAT HUB_CAL_STAT.HOLDOVER) ∧
          t.rdN ROPE_PEER_FLT = (s.rdN ROPE_PEER_FLT + 1) % 2 ^ 32 ∧
          SameRegs [ROPE_PEER_FLT, ROPE_PEER_LAST, ROPE_BADSLOT 1, HUB_ALN_STAT] s t ∧ SameMem s t)) ∧
      (s.slotDiscarded port = false → s.isMember = false ∨ port = 1 ∨ (src.toNat ≠ srcNum .refinLost 0 ∧ src.toNat ≠ srcNum .ropeAlignLost 0) →
      (s.is ROPE_CFG ROPE_CFG.SAFE_PROP = false ∨ sev ≠ 6#8 ∨ pkg.val = s.pkgNum →
        Completes (.ropeFaultSlotRx port pkg src sev live ts) s (fun t =>
          t.rdN ROPE_PEER_FLT = (s.rdN ROPE_PEER_FLT + 1) % 2 ^ 32 ∧
          t.rdN ROPE_PEER_LAST = pkg + 2 ^ 8 * sev.toNat + 2 ^ 16 * src.toNat ∧
          SameRegs [ROPE_PEER_FLT, ROPE_PEER_LAST, ROPE_BADSLOT (1 - port)] s t ∧ SameMem s t)) ∧
      (s.is ROPE_CFG ROPE_CFG.SAFE_PROP = true → sev = 6#8 → pkg.val ≠ s.pkgNum → ∃ u : State,
        u.rdN ROPE_PEER_FLT = (s.rdN ROPE_PEER_FLT + 1) % 2 ^ 32 ∧
        u.rdN ROPE_PEER_LAST = pkg + 2 ^ 8 * 6 + 2 ^ 16 * src.toNat ∧
        SameRegs [ROPE_PEER_FLT, ROPE_PEER_LAST, ROPE_BADSLOT (1 - port)] s u ∧ SameMem s u ∧
        exec (.ropeFaultSlotRx port pkg src sev live ts) s = .next (u.raise .ropePeerSafe 0 5 pkg src.toNat)))) ∧
    (∀ (pkg : Fin 16) (sev : BitVec 8) (ts : DWord), s.isMember = true → pkg.val < s.pkgNum → sev ≠ 6#8 → ∃ u : State,
      u.rdN ROPE_PEER_FLT = (s.rdN ROPE_PEER_FLT + 1) % 2 ^ 32 ∧ u.rdN ROPE_PEER_LAST = pkg + 2 ^ 8 * sev.toNat + 2 ^ 16 * srcNum .ropeAlignLost 0 ∧
      SameRegs [ROPE_PEER_FLT, ROPE_PEER_LAST, ROPE_BADSLOT 1] s u ∧ SameMem s u ∧
      exec (.ropeFaultSlotRx 0 pkg (BitVec.ofNat 16 (srcNum .ropeAlignLost 0)) sev true ts) s = .next u.unrope) ∧
    (∀ (port : Fin 2) (k : Fin 4) (occ owed : BitVec 16) (n : Fin 208) (x : Nat × Nat × Nat), n.val = 0x20 + 4 * port + k →
      s.slotDiscarded port = false → s.pool n = some x →
      ((mapGet (0, 0, 0, 0) n s.hub.audit).2.1 + occ.toNat + owed.toNat = x.1 →
        Completes (.auditSlotRx port k occ owed) s (fun t =>
          mapGet (0, 0, 0, 0) n t.hub.audit = (x.1, (mapGet (0, 0, 0, 0) n s.hub.audit).2.1, occ.toNat, owed.toNat) ∧
          t.hub.auditMism = s.hub.auditMism ∧ SameRegs [] s t ∧ SameMem s t)) ∧
      ((mapGet (0, 0, 0, 0) n s.hub.audit).2.1 + occ.toNat + owed.toNat ≠ x.1 → ∃ u : State,
        mapGet (0, 0, 0, 0) n u.hub.audit = (x.1, (mapGet (0, 0, 0, 0) n s.hub.audit).2.1, occ.toNat, owed.toNat) ∧
        mapGet 0 n u.hub.auditMism = s.now + 1 ∧
        u.rdF DMA_AUD_STAT DMA_AUD_STAT.MISM_CNT =
          min (s.rdF DMA_AUD_STAT DMA_AUD_STAT.MISM_CNT + 1) (2 ^ DMA_AUD_STAT.MISM_CNT.len - 1) ∧
        SameRegs [DMA_AUD_STAT] s u ∧ SameMem s u ∧
        exec (.auditSlotRx port k occ owed) s = .next (((u.setCause 0 causeLink).raisePkg .creditAuditP n).poolReload n))) ∧
    (∀ (port : Fin 2) (ts : DWord), exec (.beaconRx port ts) s = .next s) ∧
    (∀ (f : Fin 8) (dest len : Fin 16), s.Carried f ROPE_MBX_TX (w32 (0x80000000 + 16 * len + dest)) →
      (∀ p : Fin 2, s.is ROPE_MBX_TX ROPE_MBX_TX.BUSY = false → s.mgmtPorts dest 2 = [p.val] → (p = 1 → s.sendsDown = true) →
        s.is (ROPE_STAT p) ROPE_STAT.LINK_UP = true → 0 < (s.ropePort p).cred3 → (s.ropePort 0).wait3 = [] →
        (s.ropePort 1).wait3 = [] → Completes (.mbxSend f dest len) s (fun t =>
          t.out.rope = (p.val, .mgmt s.pkgNum dest s.hub.mbxNum (min 8 len)
            (BitVec.ofNat 64 (s.rdN ROPE_MBX_TXD_LO + 2 ^ 32 * s.rdN ROPE_MBX_TXD_HI))) :: s.out.rope ∧
          (t.ropePort p).cred3 = (s.ropePort p).cred3 - 1 ∧ t.hub.mbxNum = (s.hub.mbxNum + 1) % 256 ∧
          t.rdF ROPE_MBX_TX ROPE_MBX_TX.NUM = s.hub.mbxNum % 256 ∧ t.is ROPE_MBX_TX ROPE_MBX_TX.BUSY = false ∧
          SameRegs [ROPE_MBX_TX] s t ∧ SameMem s t)) ∧
      (s.is ROPE_MBX_TX ROPE_MBX_TX.BUSY = true → Completes (.mbxSend f dest len) s (fun t =>
        t.rdF ROPE_MBX_TX ROPE_MBX_TX.DEST = dest ∧ t.rdF ROPE_MBX_TX ROPE_MBX_TX.LEN = len ∧
        OnlyRegs [ROPE_MBX_TX] s t))) ∧
    (∀ z : State, z = s.advance (nextMultiple msTicks s.now) →
      (∀ (n : Fin 208) (x : Nat × Nat × Nat), z.pool n = some x → x.2.1 + x.2.2 ≤ x.1) →
      Completes (.creditAudit []) s (fun t => t.now = z.now ∧
        (∀ (n : Fin 208) (x : Nat × Nat × Nat), n.val ∈ poolNums → z.pool n = some x → (n.val < 0x20 ∨ 0x28 ≤ n.val) →
          mapGet (0, 0, 0, 0) n t.hub.audit = (x.1, x.1 - x.2.1 - x.2.2, x.2)) ∧ SameRegs [] s t ∧ SameMem s t))

/-- O47. ROPE frames received, NAK, the link down and its retrain attempts. Derived from 11_data_movement_and_credits.md,
02_clocks_time_alignment.md, 14_faults_availability_life.md. ROPE_FRAME_RX on a link that is down does nothing; a
frame that fails its checks is counted, answered with a NAK and raises ROPE_CRC, the eighth in a row takes the link
down; a frame behind a failed one is ignored until its replay, but ends the run of failures; an intact frame ends the
run of failures, has frames replayed where it says NAK, takes its number, returns its credits and has its seven slots
dispatched, and where they are all idle and nothing waits, nothing else changes but the mailbox's BUSY. The port sends
one frame for each that it receives: 128 bytes that pass the checks, with the next number, kept for a replay.
ROPE_NAK_RX sends the replayed frames, counts them and raises ROPE_CRC. ROPE_LINK_DOWN of a link that is up: LINK_UP
clears, the lanes are shown, waiting slots are discarded and counted, the port starts afresh, the cause is set and the
fault raised; on UP alignment is lost too, on DOWN a calibration ends; a boot that stood at the alignment goes on
(R374). ROPE_RETRAIN of a link that is down shows the lanes only. Where the rules leave a point open, it follows the
choices of log entries 73, 169. -/
def Obligations.RopeLinks : Prop :=
  ∀ (s : State) (p : Fin 2),
    (s.is (ROPE_STAT p) ROPE_STAT.LINK_UP = true → bitOf s.hub.ropeInj p = false →
      frameOk ((s.frameTx p).out.frames.headD (0, [])).2 = true ∧ (s.frameTx p).out.frames.map Prod.fst = p.val :: s.out.frames.map Prod.fst ∧
      byteField ((s.frameTx p).out.frames.headD (0, [])).2 1 1 = (s.ropePort p).fseq % 256 ∧
      ((s.frameTx p).ropePort p).kept.head? = some ((s.frameTx p).out.frames.headD (0, [])).2 ∧
      ((s.frameTx p).ropePort p).fseq = ((s.ropePort p).fseq + 1) % 256 ∧ SameRegs [] s (s.frameTx p) ∧ SameMem s (s.frameTx p)) ∧
    (∀ (bs : List (BitVec 8)) (phase : Nat) (bad : List (Fin 7)),
      (s.is (ROPE_STAT p) ROPE_STAT.LINK_UP = false → exec (.ropeFrameRx p bs phase bad) s = .next s) ∧
      (s.is (ROPE_STAT p) ROPE_STAT.LINK_UP = true → frameOk bs = false → ∃ u : State,
        u.rdN (ROPE_CRC p) = (s.rdN (ROPE_CRC p) + 1) % 2 ^ 32 ∧ (u.ropePort p).fails = (s.ropePort p).fails + 1 ∧
        (u.ropePort p).replay = true ∧ u.out.rope = (p.val, .nak (s.ropePort p).rxSeq) :: s.out.rope ∧
        SameRegs [ROPE_CRC p] s u ∧ SameMem s u ∧
        exec (.ropeFrameRx p bs phase bad) s = .next (if 7 ≤ (s.ropePort p).fails
          then (u.raisePkg .ropeCrc).ropeDown p 15 true else (u.raisePkg .ropeCrc).frameTx p)) ∧
      (s.is (ROPE_STAT p) ROPE_STAT.LINK_UP = true → frameOk bs = true → (s.ropePort p).replay = true →
        byteField bs 1 1 ≠ ((s.ropePort p).rxSeq + 1) % 256 → ∃ u : State, (u.ropePort p).fails = 0 ∧ (u.ropePort p).replay = true ∧
          OnlyRegs [] { s with hub := u.hub } u ∧ exec (.ropeFrameRx p bs phase bad) s = .next (u.frameTx p)) ∧
      (s.is (ROPE_STAT p) ROPE_STAT.LINK_UP = true → frameOk bs = true →
        (s.ropePort p).replay = false ∨ byteField bs 1 1 = ((s.ropePort p).rxSeq + 1) % 256 →
        (∃ u : State, (u.ropePort p).rxSeq = byteField bs 1 1 ∧ (u.ropePort p).fails = 0 ∧ (u.ropePort p).replay = false ∧
          (u.ropePort p).heard = true ∧ SameRegs [] s u ∧ SameMem s u ∧
          (∀ v : State, v = (if bitOf (byteField bs 3 1) 0 then u.nakRx p (min (min 16 (if bitOf (byteField bs 3 1) 1
              then ((s.ropePort p).fseq + 255 - byteField bs 2 1) % 256 else 16)) (s.ropePort p).kept.length) else u) →
            exec (.ropeFrameRx p bs phase bad) s = .next (((v.ropeCredits p (byteField bs 4 1) (byteField bs 6 1) (byteField bs 7 1)).each
              (List.range 7) (fun x k => x.slotRx p phase (bad.any (fun y => y.val = k)) ((bs.drop (8 + 16 * k)).take 16))).frameTx p))) ∧
        (bitOf (byteField bs 3 1) 0 = false → (∀ k : Fin 7, (bs.drop (8 + 16 * k)).take 16 = List.replicate 16 0#8) → (s.ropePort p).wait0 = [] →
          (s.ropePort p).wait3 = [] → (∀ x ∈ s.hub.hops, x.1 % 64 = 8 + p.val → x.2.wait = none) → Completes (.ropeFrameRx p bs phase bad) s (fun t =>
            (t.ropePort p).cred0 = min 2 ((s.ropePort p).cred0 + byteField bs 4 1) ∧
            (t.ropePort p).cred3 = min 16 ((s.ropePort p).cred3 + byteField bs 7 1) ∧
            (t.ropePort p).rxSeq = byteField bs 1 1 ∧ SameRegs [ROPE_MBX_TX] s t ∧ SameMem s t)))) ∧
    (∀ n : Fin 17, ∃ u : State, u.rdN (ROPE_REPLAY p) = (s.rdN (ROPE_REPLAY p) + n) % 2 ^ 32 ∧
      bitOf u.hub.ropeInj p = false ∧ u.hub.injected = (s.hub.injected || bitOf s.hub.ropeInj p) ∧
      u.out.frames = ((s.ropePort p).kept.take n).map (fun x => (p.val, x)) ++ s.out.frames ∧
      SameRegs [ROPE_REPLAY p] s u ∧ SameMem s u ∧ exec (.ropeNakRx p n) s = .next (u.raisePkg .ropeCrc)) ∧
    (∀ lanes : Fin 16, s.is (ROPE_STAT p) ROPE_STAT.LINK_UP = false → exec (.ropeLinkDown p lanes) s = .next s) ∧
    (∀ lanes : Fin 16, s.is (ROPE_STAT p) ROPE_STAT.LINK_UP = true → ∃ u : State,
      u.is (ROPE_STAT p) ROPE_STAT.LINK_UP = false ∧ u.rdF (ROPE_STAT p) ⟨1, 4⟩ = lanes ∧
      u.rdF (ROPE_STAT p) ROPE_STAT.PARTNER = s.rdF (ROPE_STAT p) ROPE_STAT.PARTNER ∧
      u.rdN (ROPE_BADSLOT p) =
        (s.rdN (ROPE_BADSLOT p) + (((s.ropePort p).wait0.filter (fun x => match x with | .fault _ _ _ _ _ => true | _ => false)).length +
          (s.ropePort p).wait3.length)) % 2 ^ 32 ∧
      u.ropePort p = {} ∧ SameRegs [ROPE_STAT p, ROPE_BADSLOT p, ROPE_MBX_TX] s u ∧ SameMem s u ∧
      (∀ v : State, v = ((u.setCause 0 causeLink).modHub (fun h =>
          { h with mbx := h.mbx.map (fun m => if m.port = some p.val then { m with port := none } else m) })).raisePkg .ropeLinkDown 0
            true →
        (p = 1 → exec (.ropeLinkDown p lanes) s = .next (v.modClk (fun c => { c with marker := none })).bootResume) ∧
        (p = 0 → exec (.ropeLinkDown p lanes) s = .next (v.flag HUB_ALN_STAT HUB_ALN_STAT.CHAIN_LONG false).unrope.bootResume))) ∧
    (∀ lanes : Fin 16, (s.is (ROPE_STAT p) ROPE_STAT.LINK_UP = true → exec (.ropeRetrain p lanes) s = .next s) ∧
      (s.is (ROPE_STAT p) ROPE_STAT.LINK_UP = false → Completes (.ropeRetrain p lanes) s (fun t =>
        t.rdF (ROPE_STAT p) ⟨1, 4⟩ = lanes ∧ OnlyRegs [ROPE_STAT p] s t)))

/-- O48. Commands of the image loader, and the end of VERIFY, WRITE_SLOT and ERASE_SLOT. Derived from 12_berrin_image.md,
15_register_maps.md. A GO, carried out. VERIFY, WRITE_SLOT and ERASE_SLOT of a target that exists start an operation
and set BUSY, the latter two only on a slot that neither BOOT nor RUN names (else code 16). APPLY to a region starts
in phase 1 from a slot, in phase 2 from the staging buffer, and its region shows state 2. SET_BOOT of a slot with an
image moves BOOT, code 0; of an empty slot code 16. A target that does not exist ends with code 8, an operation in
progress with code 9. CANCEL of an APPLY up to phase 4 ends it with code 11, with nothing to cancel code 9; a swap
whose boundary lies in the PCLK cycle of a CANCEL comes first, and the CANCEL ends with 9. LOADER_OPERATION_END ends
VERIFY with the code of its checks, WRITE_SLOT of a good image with the slot holding it, ERASE_SLOT with the slot
empty and code 0; where the NVM failed with the slot empty, NVM_FAIL and code 12; while a thermal shutdown has the
array off a write or an erase waits. Where the rules leave a point open, it follows the choices of log entries 78, 82,
163. -/
def Obligations.LoaderCommands : Prop :=
  ∀ (s : State) (f : Fin 8) (target : Fin 32) (slot src at' : Fin 2) (op : Fin 16),
    (∀ x : ImgOp, x = { op := op, target := target, slot := slot, src := src,
                        at' := if at' = 1 then some (s.rd64 IMG_AT_LO) else none, keys := s.rd IMG_KEY_STAT } → s.hub.imgOp = none → target.val ≤ 16 →
      (op = 1 → slot = 0 → src = 0 → at' = 0 → s.Carried f IMG_CMD (imgCmdWord 1 target 0 0 0) →
        Completes (.verify f target) s (fun t => t.is IMG_STAT IMG_STAT.BUSY = true ∧ t.hub.imgOp = some x ∧
          SameRegs [IMG_CMD, IMG_STAT] s t ∧ SameMem s t)) ∧
      (op = 2 → src = 0 → at' = 0 → s.Carried f IMG_CMD (imgCmdWord 2 target slot 0 0) → s.slotInUse target slot = false →
        Completes (.writeSlot f target slot) s (fun t => t.is IMG_STAT IMG_STAT.BUSY = true ∧ t.hub.imgOp = some x ∧
          SameRegs [IMG_CMD, IMG_STAT] s t ∧ SameMem s t)) ∧
      (op = 5 → src = 0 → at' = 0 → s.Carried f IMG_CMD (imgCmdWord 5 target slot 0 0) → s.slotInUse target slot = false →
        Completes (.eraseSlot f target slot) s (fun t => t.is IMG_STAT IMG_STAT.BUSY = true ∧ t.hub.imgOp = some x ∧
          SameRegs [IMG_CMD, IMG_STAT] s t ∧ SameMem s t)) ∧
      (op = 3 → target.val ≠ 16 → s.Carried f IMG_CMD (imgCmdWord 3 target slot src at') → s.restarting target = false →
        Completes (.apply f target slot src at') s (fun t => t.is IMG_STAT IMG_STAT.BUSY = true ∧ t.hub.imgOp = some x ∧
          t.rdF IMG_STAT IMG_STAT.PHASE = (if src = 0 then 1 else 2) ∧ t.rdF (RGN_INFO target) RGN_INFO.STATE = 2 ∧
          SameRegs [IMG_CMD, IMG_STAT, RGN_INFO target, IMG_RGN_STAT target] s t ∧ SameMem s t))) ∧
    (s.hub.imgOp = none → target.val ≤ 16 → s.Carried f IMG_CMD (imgCmdWord 4 target slot 0 0) →
      (s.slotImage target slot ≠ [] → Completes (.setBoot f target slot) s (fun t =>
        t.bit (IMG_SLOTINFO target) 2 = decide (slot = 1) ∧ t.rdF IMG_STAT IMG_STAT.RESULT = 0 ∧ t.hub.imgOp = none ∧
        SameMem s t)) ∧
      (s.slotImage target slot = [] → ∃ u : State, OnlyRegs [IMG_CMD] s u ∧
        exec (.setBoot f target slot) s = .next (u.imgReport 4 target 16))) ∧
    (s.hub.imgOp = none → target.val ≤ 16 → s.slotInUse target slot = true →
      (s.Carried f IMG_CMD (imgCmdWord 2 target slot 0 0) → ∃ u : State, OnlyRegs [IMG_CMD] s u ∧
        exec (.writeSlot f target slot) s = .next (u.imgReport 2 target 16)) ∧
      (s.Carried f IMG_CMD (imgCmdWord 5 target slot 0 0) → ∃ u : State, OnlyRegs [IMG_CMD] s u ∧
        exec (.eraseSlot f target slot) s = .next (u.imgReport 5 target 16))) ∧
    (s.Carried f IMG_CMD (imgCmdWord 1 target 0 0 0) → 16 < target.val ∨ s.hub.imgOp ≠ none →
      ∃ u : State, OnlyRegs [IMG_CMD] s u ∧
        exec (.verify f target) s = .next (u.imgReport 1 target (if 16 < target.val then 8 else 9))) ∧
    (s.Carried f IMG_CMD (imgCmdWord 6 0 0 0 0) → s.hub.imgOp = none → ∃ u : State, OnlyRegs [IMG_CMD] s u ∧
      exec (.cancel f) s = .next (u.imgReport 6 0 9)) ∧
    (∀ x : ImgOp, s.hub.imgOp = some x →
      (x.op = 3 → s.rdF IMG_STAT IMG_STAT.PHASE ≤ 4 → s.Carried f IMG_CMD (imgCmdWord 6 0 0 0 0) →
        (∀ req : Nat, s.applyIn 4 = some x → x.reqAt = some req → x.at' ≠ none ∨ s.quiescent x.target = true → s.inCycle (s.swapAt x req) = false) →
        ∃ u : State, OnlyRegs [IMG_CMD] s u ∧ exec (.cancel f) s = .next ((u.unreconf x.target).imgEnd x 11)) ∧
      (∀ req : Nat, s.applyIn 4 = some x → x.reqAt = some req → x.at' ≠ none ∨ s.quiescent x.target = true → s.inCycle (s.swapAt x req) = true →
        s.spineOut (x.target / 4) = false → (∀ p ∈ unitsOf x.target, s.regrouped x.content p = true → s.idle p = true) →
        s.Carried f IMG_CMD (imgCmdWord 6 0 0 0 0) → ∃ u : State, OnlyRegs [IMG_CMD] s u ∧ exec (.cancel f) s = .next (u.imgSwap.imgReport 6 0 9)) ∧
      (x.op = 1 → s.ecc = [] → ∀ ok : Bool,
        exec (.loaderOperationEnd ok) s = .next (s.imgEnd x (s.stagingCheck x).2.2)) ∧
      ((x.op = 2 ∨ x.op = 5) → s.is TMP_SHUT TMP_SHUT.SHUT = true → (x.op = 2 → s.ecc = [] ∧ (s.stagingCheck x).2.2 = 0) → ∀ ok : Bool,
        exec (.loaderOperationEnd ok) s = .next s) ∧
      (x.op = 2 → s.ecc = [] → s.is TMP_SHUT TMP_SHUT.SHUT = false → ∀ ok : Bool, ∃ u : State, u.slotImage x.target x.slot = (if ok
          then (s.stagingCheck x).2.1.take (byteField (s.stagingCheck x).2.1 8 4) else []) ∧ SameMem s u ∧
        exec (.loaderOperationEnd ok) s = .next (if (s.stagingCheck x).2.2 ≠ 0
          then s.imgEnd x (s.stagingCheck x).2.2 else if ok then u.imgEnd x 0 else (u.raisePkg .nvmFail).imgEnd x 12)) ∧
      (x.op = 5 → x.target ≤ 16 → s.is TMP_SHUT TMP_SHUT.SHUT = false → Completes (.loaderOperationEnd true) s (fun t => t.hub.imgOp = none ∧
        t.slotImage x.target x.slot = [] ∧ t.rdF IMG_STAT IMG_STAT.RESULT = 0 ∧ t.is IMG_STAT IMG_STAT.BUSY = false ∧
        SameMem s t))) ∧
    (s.hub.imgOp = none → ∀ ok : Bool, exec (.loaderOperationEnd ok) s = .next s)

/-- O49. The phases of a live load: read, verify, transfer, swap, the idle timeout and the end. Derived from
12_berrin_image.md, 06_step_sequencer_and_foothold.md. Memory free of errors. Without an APPLY in the phase each
command does nothing; in an outage of the spine none reaches the die. IMG_READ_DONE puts the slot's image into the
staging buffer, phase 2; an unreadable page ends the load with code 12. IMG_VERIFY_DONE ends it with the code of the
checks, or takes the content, phase 3. IMG_TRANSFER_DONE writes the inactive banks, phase 4, and makes the request
unless the region restarts; it waits while the spine retrains. IMG_SWAP waits for the quiescent point, sets WAIT_IDLE
where a regrouped unit is not idle, and otherwise swaps at the boundary. IDLE_TMO ends the load with code 10. IMG_DONE
ends it with code 0: SEQ_START_PC is ENTRY, and RUN and BOOT name the slot, or the image is volatile. Where the rules
leave a point open, it follows the choices of log entries 78, 79, 165. -/
def Obligations.ApplyPhases : Prop :=
  ∀ s : State, s.ecc = [] → s.hub.inject = none →
    s.hub.bankBad = false →
    (∀ ok : Bool, (s.applyIn 1 = none → exec (.imgReadDone ok) s = .next s)) ∧
    (s.applyIn 2 = none → exec .imgVerifyDone s = .next s) ∧ (s.applyIn 3 = none → exec .imgTransferDone s = .next s) ∧
    (s.applyIn 4 = none → exec .imgSwap s = .next s ∧ exec .idleTmo s = .next s) ∧
    (s.applyIn 6 = none → exec .imgDone s = .next s) ∧
    (∀ x : ImgOp, x.target < 16 →
      (s.applyIn 1 = some x →
        exec (.imgReadDone false) s = .next ((s.raisePkg .nvmFail).imgEnd x 12) ∧
        (s.slotImage x.target x.slot ≠ [] → Completes (.imgReadDone true) s (fun t =>
          t.rdF IMG_STAT IMG_STAT.PHASE = 2 ∧
          t.bytes hubMem (s.slotImage x.target x.slot).length = s.slotImage x.target x.slot ∧
          t.hub.imgOp = some { x with keys := s.rd IMG_KEY_STAT } ∧ SameRegs [IMG_STAT] s t))) ∧
      (s.applyIn 2 = some x → ∃ u : State, u.rdF IMG_STAT IMG_STAT.PHASE = 3 ∧ SameRegs [IMG_STAT] s u ∧ SameMem s u ∧
        u.hub.imgOp = some { x with content := imgContent (s.stagingCheck x).2.1,
                                    seq := byteField (s.stagingCheck x).2.1 12 4 } ∧
        exec .imgVerifyDone s = .next (if (s.stagingCheck x).2.2 = 0 then u
          else s.imgEnd x (s.stagingCheck x).2.2)) ∧
      (s.applyIn 3 = some x → (s.spineOut (x.target / 4) = true → exec .imgTransferDone s = .next s) ∧
        (s.spineOut (x.target / 4) = false → ∃ u : State, u.rdF IMG_STAT IMG_STAT.PHASE = 4 ∧ SameRegs [IMG_STAT] s u ∧
          (x.content.kernels = [] → u.bytes (s.part (x.target / 4) 6 + 0x20000 * (x.target % 4) +
            0x10000 * (1 - (s.region x.target).bank)) (4 * x.content.program.length) =
              x.content.program.flatMap (fun w => leBytes 4 w.toNat)) ∧
          exec .imgTransferDone s = .next (if s.restarting x.target then u else u.imgRequest x))) ∧
      (s.applyIn 4 = some x → x.reqAt = none → exec .imgSwap s = .next s) ∧
      (s.applyIn 4 = some x ∧ s.spineOut (x.target / 4) = true → exec .imgSwap s = .next s) ∧
      (∀ req a : Nat, s.applyIn 4 = some x → x.reqAt = some req → x.at' = some a → s.spineOut (x.target / 4) = false →
        (∀ p ∈ unitsOf x.target, s.regrouped x.content p = true → s.idle p = true) → exec .imgSwap s =
          .next ((((s.abortAt x.target (s.swapAt x req)).flag IMG_STAT IMG_STAT.WAIT_IDLE false).advance (s.swapAt x req)).swap x)) ∧
      (∀ req : Nat, s.applyIn 4 = some x → x.reqAt = some req → x.at' = none → s.spineOut (x.target / 4) = false →
        (s.quiescent x.target = false → exec .imgSwap s = .next s) ∧
        (s.quiescent x.target = true → (∃ p ∈ unitsOf x.target, s.regrouped x.content p = true ∧ s.idle p = false) →
          s.is IMG_STAT IMG_STAT.WAIT_IDLE = false → Completes .imgSwap s (fun t => t.is IMG_STAT IMG_STAT.WAIT_IDLE = true ∧
            t.hub.imgOp = some { x with idleFrom := s.swapAt x req } ∧ SameRegs [IMG_STAT] s t ∧ SameMem s t)) ∧
        (s.quiescent x.target = true → (∀ p ∈ unitsOf x.target, s.regrouped x.content p = true → s.idle p = true) →
          ∃ u : State, u.now = max s.now (s.swapAt x req) ∧ u.is IMG_STAT IMG_STAT.WAIT_IDLE = false ∧
            u.seqRunning x.target = s.seqRunning x.target ∧ SameRegs [IMG_STAT] s u ∧ SameMem s u ∧
            exec .imgSwap s = .next (u.swap x))) ∧
      (s.applyIn 4 = some x → s.is IMG_STAT IMG_STAT.WAIT_IDLE = false → exec .idleTmo s = .next s) ∧
      (s.applyIn 4 = some x → s.is IMG_STAT IMG_STAT.WAIT_IDLE = true → ∃ u : State,
        u.now = max s.now (x.idleFrom + msTicks * max 1 (s.rdF IMG_SWAP_TMO ⟨0, 16⟩)) ∧ SameRegs [] s u ∧ SameMem s u ∧
        exec .idleTmo s = .next ((u.unreconf x.target).imgEnd x 10)) ∧
      (s.applyIn 6 = some x ∧ s.spineOut (x.target / 4) = true → exec .imgDone s = .next s) ∧
      (s.applyIn 6 = some x → s.spineOut (x.target / 4) = false → x.content.chunks = [] → x.content.autostart = false → x.run = false → x.slot < 2 →
        Completes .imgDone s (fun t => t.hub.imgOp = none ∧ t.rdF IMG_STAT IMG_STAT.RESULT = 0 ∧
          t.is IMG_STAT IMG_STAT.BUSY = false ∧ t.rdF (SEQ_START_PC x.target) ⟨0, 14⟩ = x.content.entry % 2 ^ 14 ∧
          t.rdF (IMG_SLOTINFO x.target) ⟨4, 2⟩ = (if x.src = 1 then 1 else 0) ∧
          (x.src ≠ 1 → t.bit (IMG_SLOTINFO x.target) 3 = decide (x.slot = 1) ∧
            t.bit (IMG_SLOTINFO x.target) 2 = decide (x.slot = 1)) ∧ SameMem s t)))

/-- O50. Keys, rollback floors, boot, and the second of nightlight mode. Derived from 12_berrin_image.md,
16_pins_and_electrical.md, 15_register_maps.md. PROG, carried out, programs an empty key slot with IMG_KEY_DATA, once,
and journals the key; a second time it sets PROG_ERR only. REVOKE revokes the slot. IMG_MIN_SEQ is raised and never
lowered. BOOT, after a package reset that has waited for its ramps and not while a rail holds the package in reset,
completes once with DONE and step 7, or stands in step 5 with a region loaded until the skew calibration and a member
alignment have ended; a JTAG instruction of the pins or a spine outage holds it at step 2; after it, it does nothing.
NIGHTLIGHT_SECOND at the next whole second shows, for every unit of a nightlight region, the flags and the count of
its values, and with at least one value the minimum, the maximum and the mean, of the second that ended, and forgets
it; where NL_EN is 1 such a unit makes three records; where it is 0 no record is made and units of other regions are
unchanged. Where the rules leave a point open, it follows the choices of log entries 80, 81, 105, 145, 154. -/
def Obligations.KeysBootAndNightlight : Prop :=
  ∀ s : State,
    (∀ (f : Fin 8) (slot : Fin 4), s.Carried f IMG_KEY_CTRL (w32 (256 + slot)) →
      (s.bit IMG_KEY_STAT slot = false → Completes (.prog f slot) s (fun t => t.bit IMG_KEY_STAT slot = true ∧
        JRec.key slot ((List.range 16).flatMap (fun j => leBytes 4 (s.rdN (IMG_KEY_DATA j)))) ∈ t.nvm.queue ∧
        t.rdF IMG_KEY_CTRL IMG_KEY_CTRL.SLOT = slot ∧ SameRegs [IMG_KEY_CTRL, IMG_KEY_STAT] s t ∧ SameMem s t)) ∧
      (s.bit IMG_KEY_STAT slot = true → Completes (.prog f slot) s (fun t =>
        t.is IMG_KEY_STAT IMG_KEY_STAT.PROG_ERR = true ∧ OnlyRegs [IMG_KEY_CTRL, IMG_KEY_STAT] s t))) ∧
    (∀ (f : Fin 8) (slot : Fin 4), s.Carried f IMG_KEY_CTRL (w32 (512 + slot)) → Completes (.revoke f slot) s (fun t =>
      t.bit IMG_KEY_STAT (4 + slot) = true ∧ t.usableKey (t.rd IMG_KEY_STAT) slot = none ∧
      JRec.setting IMG_KEY_STAT (t.rd IMG_KEY_STAT &&& 0xFF#32) ∈ t.nvm.queue ∧ SameRegs [IMG_KEY_CTRL, IMG_KEY_STAT] s t ∧ SameMem s t)) ∧
    (∀ (f : Fin 8) (target : Fin 17) (v : Word), s.Carried f (minSeqAddr target) v →
      (s.rdN (IMG_MIN_SEQ target) < v.toNat → Completes (.minSeqWrite f target v) s (fun t =>
        t.rd (IMG_MIN_SEQ target) = v ∧ JRec.setting (IMG_MIN_SEQ target) v ∈ t.nvm.queue ∧
        SameRegs [IMG_MIN_SEQ target] s t ∧ SameMem s t)) ∧
      (v.toNat ≤ s.rdN (IMG_MIN_SEQ target) → Completes (.minSeqWrite f target v) s (fun t => OnlyRegs [] s t))) ∧
    (s.hub.rstWait = true → s.ramped = false → exec .boot s = .next s) ∧
    (s.hub.rstWait = true → s.ramped = true → exec .boot s = .next (s.packageReset false 2 none).boot) ∧
    (s.hub.rstWait = false → s.is HUB_BOOT_STAT HUB_BOOT_STAT.DONE = true ∨ s.hub.held ≠ none → exec .boot s = .next s) ∧
    (s.accepts = true → s.is HUB_BOOT_STAT HUB_BOOT_STAT.DONE = false → s.rdF HUB_BOOT_STAT HUB_BOOT_STAT.STEP ≠ 5 → 2 ≤ s.hub.jtag ∨ (∃ d : Fin 4, s.spineOut d = true) → Completes .boot s (fun t =>
      t.rdF HUB_BOOT_STAT HUB_BOOT_STAT.STEP = 2 ∧ OnlyRegs [HUB_BOOT_STAT] s t)) ∧
    (s.accepts = true → s.is HUB_BOOT_STAT HUB_BOOT_STAT.DONE = false → s.rdF HUB_BOOT_STAT HUB_BOOT_STAT.STEP ≠ 5 → s.hub.jtag < 2 →
      (∀ d : Fin 4, s.spineOut d = false) →
      Completes .boot s (fun t =>
        (t.is HUB_BOOT_STAT HUB_BOOT_STAT.DONE = true ∧ t.rdF HUB_BOOT_STAT HUB_BOOT_STAT.STEP = 7) ∨
        (t.rdF HUB_BOOT_STAT HUB_BOOT_STAT.STEP = 5 ∧ t.rdF HUB_BOOT_STAT HUB_BOOT_STAT.RGN_LOADED ≠ 0))) ∧
    (s.accepts = true → s.is HUB_BOOT_STAT HUB_BOOT_STAT.DONE = false → s.rdF HUB_BOOT_STAT HUB_BOOT_STAT.STEP = 5 →
      (s.hub.clk.skewN = none ∧ s.hub.clk.aligning = false → Completes .boot s (fun t =>
        t.is HUB_BOOT_STAT HUB_BOOT_STAT.DONE = true ∧ t.rdF HUB_BOOT_STAT HUB_BOOT_STAT.STEP = 7)) ∧
      (s.hub.clk.skewN ≠ none ∨ s.hub.clk.aligning = true → exec .boot s = .next s)) ∧
    (s.is DMA_CFG DMA_CFG.NL_EN = false → Completes .nightlightSecond s (fun t =>
      t.now = max s.now (nextMultiple secTicks s.now) ∧
      (∀ p : Fin 256, (s.nightlight (p / 16) = false → t.unit p = s.unit p ∧
          t.rd (IMG_NL_FLAGS p) = s.rd (IMG_NL_FLAGS p) ∧ t.rd64 (IMG_NL_MIN_LO p) = s.rd64 (IMG_NL_MIN_LO p)) ∧
        (∀ a : NlAcc, s.nightlight (p / 16) = true → mapGet {} (t.now / secTicks - 1) (s.unit p).mea.nl = a →
          (t.unit p).mea.nl = (s.unit p).mea.nl.filter (fun x => t.now / secTicks ≤ x.1) ∧
          t.rdN (IMG_NL_FLAGS p) = a.flags % 2 ^ 12 + 2 ^ 16 * (a.n % 2 ^ 11) ∧
          (a.n ≠ 0 → t.rd64 (IMG_NL_MIN_LO p) = a.min.toNat ∧ t.rd64 (IMG_NL_MAX_LO p) = a.max.toNat ∧
            t.rd64 (IMG_NL_MEAN_LO p) = (f64Div a.sum (f64OfInt a.n)).toNat) ∧
          (a.n = 0 → t.rd64 (IMG_NL_MIN_LO p) = s.rd64 (IMG_NL_MIN_LO p)))) ∧ t.out = s.out ∧ SameMem s t)) ∧
    (s.is DMA_CFG DMA_CFG.NL_EN = true → Completes .nightlightSecond s (fun t =>
      t.now = max s.now (nextMultiple secTicks s.now) ∧ (∀ (p : Fin 256) (a : NlAcc), s.nightlight (p / 16) = true →
        mapGet {} (t.now / secTicks - 1) (s.unit p).mea.nl = a → t.rdN (IMG_NL_FLAGS p) = a.flags % 2 ^ 12 + 2 ^ 16 * (a.n % 2 ^ 11) ∧
        (t.unit p).mea.seqNo = (if a.n = 0 then (s.unit p).mea.seqNo
          else ((((s.unit p).mea.seqNo + 1) % 2 ^ 32 + 1) % 2 ^ 32 + 1) % 2 ^ 32))))

/-- O51. Sensor readings, the thermal evaluation, the governor, thermal records, READMIT. Derived from
13_thermal_and_supply.md, 11_data_movement_and_credits.md, 15_register_maps.md. SENSOR_READING at the next
millisecond: a reading, converted with the sensor's trim, in range of an included sensor, not in its hundredth
deviation, is shown; the third in a row out of range excludes the sensor; an excluded sensor keeps its reading and
stays excluded. READMIT, carried out, of an excluded sensor includes it with its runs at 0; of any other it only
stores SENSOR. THERMAL_EVALUATION of a package that is cold and within every limit, with less than 109 values, adds
one value to each region's history, keeps or starts its cool time, starts a new millisecond of every unit and changes
no register but PWR_EST. GOVERNOR_UPDATE within every budget takes the new factors and raises nothing. THERMAL_RECORD
without REC_EN does nothing; with it 88 records leave, or are dropped at a disabled ring 0. Where the rules leave a
point open, it follows the choices of log entries 86, 87, 135, 157. -/
def Obligations.TemperatureAndGovernor : Prop :=
  ∀ s : State,
    (∀ (k : Fin 88) (raw : BitVec 16) (at' : Nat) (x : Int), s.hub.inject = none → s.sensorConv k raw.toInt = x → at' = max s.now (nextMultiple msTicks s.now) →
      (s.sensorOff k = false → -880 ≤ x → x ≤ 2800 → (s.sensor k).diff < 99 →
        Completes (.sensorReading k raw) s (fun t => t.now = at' ∧ (t.sensor k).raw = x ∧ (t.sensor k).at' = at' ∧
          (t.sensor k).out = 0 ∧ t.rdN (TMP_RD k) = unsigned 16 x ∧ SameRegs ((List.range 88).map TMP_RD) s t ∧ SameMem s t)) ∧
      (s.sensorOff k = false → x < -880 ∨ 2800 < x → (s.sensor k).out = 2 → ∃ u : State, u.now = at' ∧
        (u.sensor k).out = 3 ∧ (u.sensor k).raw = x ∧ u.rdN (TMP_RD k) = unsigned 16 x ∧
        SameRegs ((List.range 88).map TMP_RD) s u ∧ SameMem s u ∧ exec (.sensorReading k raw) s = .next (u.exclude k)) ∧
      (s.sensorOff k = true → Completes (.sensorReading k raw) s (fun t => t.now = at' ∧ (t.sensor k).raw = x ∧
        t.sensorOff k = true ∧ SameRegs ((List.range 88).map TMP_RD) s t ∧ SameMem s t))) ∧
    (∀ (f : Fin 8) (k : Fin 128), s.Carried f TMP_CTRL (w32 (256 + k)) →
      (k.val < 88 → s.sensorOff k = true → Completes (.readmit f k) s (fun t => t.sensorOff k = false ∧
        (t.sensor k).out = 0 ∧ (t.sensor k).diff = 0 ∧ t.rdN (TMP_RD k) = unsigned 16 (s.sensor k).raw ∧
        t.rdF TMP_CTRL TMP_CTRL.SENSOR = k ∧
        SameRegs ([TMP_CTRL, TMP_EXCL_0 + 4 * (k / 32)] ++ (List.range 88).map TMP_RD) s t ∧ SameMem s t)) ∧
      (88 ≤ k.val ∨ s.sensorOff k = false → Completes (.readmit f k) s (fun t =>
        t.rdF TMP_CTRL TMP_CTRL.SENSOR = k ∧ OnlyRegs [TMP_CTRL] s t))) ∧
    ((∀ r : Fin 16, s.thermVal r < 1472 ∧ s.is (TMP_RGN r) TMP_RGN.WARN = false ∧ s.rdF (TMP_RGN r) TMP_RGN.REQ = 0 ∧
        (s.therm r).throttle = false ∧ (s.therm r).rateThr = false ∧ (s.therm r).rateWarn = false ∧
        (s.therm r).hist.length < 109 ∧ s.legacyHot r = false) → Completes .thermalEvaluation s (fun t =>
      t.now = max s.now (nextMultiple msTicks s.now) ∧
      (∀ r : Fin 16, (t.therm r).hist = s.thermVal r :: (s.therm r).hist ∧
        (t.therm r).coolFrom = some ((s.therm r).coolFrom.getD t.now) ∧
        (t.region r).power.length = min 10 ((s.region r).power.length + 1)) ∧
      (∀ p : Fin 256, (t.unit p).pwN = 0 ∧ (t.unit p).pwV = 0 ∧ (t.unit p).pwI = 0) ∧
      t.hub.power.length = min 10 (s.hub.power.length + 1) ∧ SameRegs [PWR_EST] s t ∧ SameMem s t)) ∧
    (∀ k : Fin 65536, s.rdF PWR_GOV PWR_GOV.K = k.val → s.hub.govOver = 0 → s.hub.power.sum ≤ s.budget * s.hub.power.length →
      (∀ r : Fin 16, s.enfSteps r = 3 → (s.region r).power.sum ≤ s.capBudget * (s.region r).power.length) →
      Completes .governorUpdate s (fun t => t.now = max s.now (nextMultiple (10 * msTicks) s.now) ∧
        t.rdF PWR_GOV PWR_GOV.K = govStep k s.hub.power.sum s.hub.power.length s.budget ∧
        (∀ r : Fin 16, (t.region r).govK = if s.enfSteps r = 3
          then govStep (s.region r).govK (s.region r).power.sum (s.region r).power.length s.capBudget
          else (s.region r).govK) ∧ SameRegs [PWR_GOV] s t ∧ SameMem s t)) ∧
    (s.is TMP_CFG TMP_CFG.REC_EN = false → exec .thermalRecord s = .next s) ∧
    (s.is TMP_CFG TMP_CFG.REC_EN = true → s.ringOn 0 = false → Completes .thermalRecord s (fun t =>
      t.now = max s.now (nextMultiple (max 1 (s.rdF TMP_REC ⟨0, 8⟩) * secTicks) s.now) ∧
      t.hub.pkgSeq = (s.hub.pkgSeq + 88) % 2 ^ 32 ∧
      t.rdN (DMA_RING_DROP 0) = (s.rdN (DMA_RING_DROP 0) + 88) % 2 ^ 32 ∧ t.out = s.out ∧
      SameRegs [DMA_RING_DROP 0, DMA_RING_STAT 0] s t ∧ SameMem s t))

/-- O52. The grace timer, enforcement steps, thermal shutdown and restart. Derived from 13_thermal_and_supply.md,
14_faults_availability_life.md, 15_register_maps.md. GRACE_EXPIRY of a running timer stops it and puts the requested
steps in force where they are more. ENF_STEP_ADD with 1 or 2 steps under a request adds one, unless the value has
fallen by 1 °C, which only restarts the interval. ENF_STEP_REMOVE of a cool region without a request takes one away.
Every change of steps shows in ENF and then raises THERM_ENFORCE. THERM_SHUTDOWN, once or again in a restart, sets
SHUT with its sensor, counts, turns every die's analog domain off, raises its source, closes the windows that a HALT
step left open, and leaves a thermal record of the sensor where REC_EN asks for it; an excluded sensor below 125 °C
shuts nothing down. RESTART is kept in a shutdown that may end, 10 s after it. THERMAL_RESTART, with Trestart met and
allowed, turns the analog domains on and begins the trims and the skew calibration, with whose end the shutdown ends.
Otherwise each does nothing. Where the rules leave a point open, it follows the choices of log entries 88, 163. -/
def Obligations.ThermalEnforcement : Prop :=
  ∀ (s : State) (r : Fin 16),
    ((s.therm r).grace = none → exec (.graceExpiry r) s = .next s) ∧
    (∀ g : Nat, (s.therm r).grace = some g →
      (s.rdF (TMP_RGN r) TMP_RGN.REQ ≤ s.enfSteps r → Completes (.graceExpiry r) s (fun t => t.now = max s.now g ∧
        (t.therm r).grace = none ∧ t.is (TMP_RGN r) TMP_RGN.GRACE = false ∧ SameRegs [TMP_RGN r] s t ∧ SameMem s t)) ∧
      (s.enfSteps r < s.rdF (TMP_RGN r) TMP_RGN.REQ → ∃ u : State, u.now = max s.now g ∧ (u.therm r).grace = none ∧
        u.is (TMP_RGN r) TMP_RGN.GRACE = false ∧ u.enfSteps r = s.rdF (TMP_RGN r) TMP_RGN.REQ ∧ (u.therm r).stepAt = u.now ∧
        SameRegs [TMP_RGN r] s u ∧ SameMem s u ∧ exec (.graceExpiry r) s = .next (((u.raiseRegion .thermEnforce r).emit (r / 4)
          (0xC20 + r % 4) u.now).regionCause r causeThermal))) ∧
    (s.enfSteps r = 0 ∨ s.enfSteps r = 3 ∨ s.rdF (TMP_RGN r) TMP_RGN.REQ = 0 → exec (.enfStepAdd r) s = .next s) ∧
    (s.enfSteps r = 1 ∨ s.enfSteps r = 2 → s.rdF (TMP_RGN r) TMP_RGN.REQ ≠ 0 →
      (s.thermVal r ≤ (s.therm r).stepVal - 16 → Completes (.enfStepAdd r) s (fun t =>
        t.now = max s.now ((s.therm r).stepAt + s.stepTicks) ∧ (t.therm r).stepAt = t.now ∧ t.enfSteps r = s.enfSteps r ∧
        SameRegs [] s t ∧ SameMem s t)) ∧
      ((s.therm r).stepVal - 16 < s.thermVal r → ∃ u : State, u.now = max s.now ((s.therm r).stepAt + s.stepTicks) ∧
        u.enfSteps r = s.enfSteps r + 1 ∧ (u.therm r).stepAt = u.now ∧ (u.therm r).stepVal = s.thermVal r ∧
        SameRegs [TMP_RGN r] s u ∧ SameMem s u ∧ exec (.enfStepAdd r) s = .next (((u.raiseRegion .thermEnforce r).emit (r / 4)
          (0xC20 + r % 4) u.now).regionCause r causeThermal))) ∧
    ((s.therm r).coolFrom = none ∨ s.enfSteps r = 0 ∨ s.rdF (TMP_RGN r) TMP_RGN.REQ ≠ 0 ∨ s.legacyHot r = true →
      exec (.enfStepRemove r) s = .next s) ∧
    (∀ c : Nat, (s.therm r).coolFrom = some c → s.enfSteps r ≠ 0 → s.rdF (TMP_RGN r) TMP_RGN.REQ = 0 → s.legacyHot r = false →
      ∃ u : State, u.now = max s.now (max (c + 5 * s.stepTicks) ((s.therm r).stepAt + s.stepTicks)) ∧
        u.enfSteps r = s.enfSteps r - 1 ∧ (u.therm r).stepAt = u.now ∧ SameRegs [TMP_RGN r] s u ∧ SameMem s u ∧
        exec (.enfStepRemove r) s = .next (((u.raiseRegion .thermEnforce r).emit (r / 4) (0xC20 + r % 4) u.now).regionCause r
          causeThermal)) ∧
    (∀ k : Fin 88, ((s.is TMP_SHUT TMP_SHUT.SHUT = true ∧ s.hub.restartTrims = none) ∨ (s.sensorOff k = true ∧ s.sensorVal k < 2000) →
        exec (.thermShutdown k) s = .next s) ∧
      (s.is TMP_SHUT TMP_SHUT.SHUT = false ∨ s.hub.restartTrims ≠ none → s.sensorOff k = false ∨ 2000 ≤ s.sensorVal k → ∃ u : State,
        u.is TMP_SHUT TMP_SHUT.SHUT = true ∧ u.rdF TMP_SHUT TMP_SHUT.SENSOR = k ∧
        u.rdF TMP_SHUT TMP_SHUT.COUNT = min (s.rdF TMP_SHUT TMP_SHUT.COUNT + 1) 255 ∧
        u.hub.shuts = s.now :: s.hub.shuts.filter (fun a => s.now < a + 3600 * secTicks) ∧
        u.is TMP_SHUT TMP_SHUT.NO_AUTO = decide (3 ≤ u.hub.shuts.length) ∧
        u.hub.restartTrims = none ∧ u.rdN LIFE_SHUT = (s.rdN LIFE_SHUT + 1) % 2 ^ 32 ∧ (∀ d : Fin 4, u.rd (TMP_DSTAT d) = 3#32) ∧
        SameRegs (TMP_SHUT :: LIFE_SHUT :: (List.range 4).map TMP_DSTAT) s u ∧ SameMem s u ∧
        (∀ v : State, v = (((u.raisePkg .thermShutdown 0 true).each (List.range 16) State.closeLoose).emitHub 0x42).allCause causeShutdown →
          exec (.thermShutdown k) s = .next (if v.is TMP_CFG TMP_CFG.REC_EN then v.thermRecord k else v)))) ∧
    (∀ (f : Fin 8) (k : Fin 128), s.Carried f TMP_CTRL (w32 (128 + k)) → Completes (.tmpRestartWrite f k) s (fun t =>
      t.is TMP_CTRL TMP_CTRL.RESTART = (s.is TMP_CTRL TMP_CTRL.RESTART ||
        (s.is TMP_SHUT TMP_SHUT.SHUT && s.restartCool && decide (s.restartFrom ≤ s.now))) ∧
      t.rdF TMP_CTRL TMP_CTRL.SENSOR = k ∧ OnlyRegs [TMP_CTRL] s t)) ∧
    (∀ may : Bool, may = (s.is TMP_SHUT TMP_SHUT.SHUT && decide (s.hub.restartTrims = none) && s.restartCool && ((s.is TMP_CFG TMP_CFG.AUTO_RESTART &&
        !s.is TMP_SHUT TMP_SHUT.NO_AUTO) || s.is TMP_CTRL TMP_CTRL.RESTART)) →
      (may = false → exec .thermalRestart s = .next s) ∧
      (may = true → Completes .thermalRestart s (fun u => u.now = max s.now s.restartFrom + 20 * msTicks ∧
        u.is TMP_SHUT TMP_SHUT.SHUT = true ∧ u.hub.restartTrims = some (List.range 64) ∧ u.is TMP_CTRL TMP_CTRL.RESTART = false ∧
        (∀ d : Fin 4, u.rd (TMP_DSTAT d) = 0#32) ∧ u.hub.clk.skewN = some 0 ∧
        (∀ k : Fin 64, (u.cluster k).busy = true ∧ (u.cluster k).only = true) ∧
        (∀ p : Fin 256, (u.unit p).mea.refilter = true ∧ (u.unit p).mea.v.fir = [] ∧ (u.unit p).mea.i.fir = []) ∧ SameMem s u))) ∧
    (s.hub.restartTrims = some [] → s.hub.clk.skewN = none → ∃ u : State, u.is TMP_SHUT TMP_SHUT.SHUT = false ∧
      u.is TMP_SHUT TMP_SHUT.NO_AUTO = false ∧ u.hub.restartTrims = none ∧ SameRegs [TMP_SHUT] s u ∧ SameMem s u ∧
      s.restartEnd = ((u.unlive .thermShutdown 0).emitHub 0x43).allCause causeShutdown) ∧
    (s.hub.restartTrims ≠ some [] ∨ s.hub.clk.skewN ≠ none → s.restartEnd = s)

/-- O53. Supply warnings, their end, and overvoltage. Derived from 13_thermal_and_supply.md,
14_faults_availability_life.md. SUPPLY_WARN of a rail that warns already, or at a magnitude that is not below its
warning threshold, only shows the magnitude; otherwise WARN and WARN_SEEN of the rail set, the warning counts,
condition 0 of the promise is breached, SUPPLY_WARN is raised, its event and cause follow, a WRITE_SLOT in progress is
cut short, and the flush runs once the outputs are safe. SUPPLY_WARN_CLEAR above the warning's clear threshold clears
the rail's WARN, and LIVE of the source with the last one; above the release threshold the rail holds the package in
reset no longer. SUPPLY_OV across the threshold sets OV_SEEN of the rail, breaches condition 0 and raises SUPPLY_OV.
Where the rules leave a point open, it follows the choices of log entries 136, 158. -/
def Obligations.Supplies : Prop :=
  ∀ (s : State) (r : Fin 6) (mv : BitVec 16),
    (s.bit PWR_STAT r = true ∨ (railLimits r).1 ≤ 10 * mv.toNat → Completes (.supplyWarn r mv) s (fun t =>
      t.rdN (PWR_RAIL r) = mv.toNat ∧ OnlyRegs [PWR_RAIL r] s t)) ∧
    (s.bit PWR_STAT r = false → 10 * mv.toNat < (railLimits r).1 → ∃ u : State, u.rdN (PWR_RAIL r) = mv.toNat ∧ u.bit PWR_STAT r = true ∧
      u.bit PWR_STAT (8 + r) = true ∧ u.rdN PWR_WARN_CNT = (s.rdN PWR_WARN_CNT + 1) % 2 ^ 32 ∧
      OnlyRegs [PWR_RAIL r, PWR_STAT, PWR_WARN_CNT] s u ∧ exec (.supplyWarn r mv) s =
        .next (((((u.breach 0).raisePkg .supplyWarn 0 true).emitHub (0x50 + r)).allCause causeSupply).supplyCut.modHub (fun h =>
          { h with flushDue := true })).flushWhenSafe) ∧
    (10 * mv.toNat ≤ (railLimits r).2.1 → Completes (.supplyWarnClear r mv) s (fun t => t.rdN (PWR_RAIL r) = mv.toNat ∧
      t.hub = { s.hub with held := if (railLimits r).2.2.2.1 < 10 * mv.toNat then s.hub.held.filter (· ≠ r.val) else s.hub.held } ∧
      OnlyRegs [PWR_RAIL r] { s with hub := t.hub } t)) ∧
    ((railLimits r).2.1 < 10 * mv.toNat → (∃ q : Fin 6, q ≠ r ∧ s.bit PWR_STAT q = true) → Completes (.supplyWarnClear r mv) s (fun t =>
      t.rdN (PWR_RAIL r) = mv.toNat ∧ t.bit PWR_STAT r = false ∧ (∀ q : Fin 6, q ≠ r → t.bit PWR_STAT q = s.bit PWR_STAT q) ∧
      t.hub = { s.hub with held := if (railLimits r).2.2.2.1 < 10 * mv.toNat then s.hub.held.filter (· ≠ r.val) else s.hub.held } ∧
      OnlyRegs [PWR_RAIL r, PWR_STAT] { s with hub := t.hub } t)) ∧
    ((railLimits r).2.1 < 10 * mv.toNat → (∀ q : Fin 6, q ≠ r → s.bit PWR_STAT q = false) → Completes (.supplyWarnClear r mv) s (fun t =>
      t.rdN (PWR_RAIL r) = mv.toNat ∧ t.rdF PWR_STAT PWR_STAT.WARN = 0 ∧
      t.is (FLT_SRC_STAT (srcNum .supplyWarn 0)) FLT_SRC_STAT.LIVE = false ∧
      t.hub = { s.hub with held := if (railLimits r).2.2.2.1 < 10 * mv.toNat then s.hub.held.filter (· ≠ r.val) else s.hub.held } ∧
      OnlyRegs [PWR_RAIL r, PWR_STAT, FLT_SRC_STAT (srcNum .supplyWarn 0)] { s with hub := t.hub } t)) ∧
    (10 * mv.toNat ≤ (railLimits r).2.2.2.2 ∨ (railLimits r).2.2.2.2 < 10 * s.rdN (PWR_RAIL r) → Completes (.supplyOv r mv) s (fun t =>
      t.rdN (PWR_RAIL r) = mv.toNat ∧ OnlyRegs [PWR_RAIL r] s t)) ∧
    ((railLimits r).2.2.2.2 < 10 * mv.toNat → 10 * s.rdN (PWR_RAIL r) ≤ (railLimits r).2.2.2.2 →
      ∃ u : State, u.rdN (PWR_RAIL r) = mv.toNat ∧ u.bit PWR_STAT (16 + r) = true ∧ OnlyRegs [PWR_RAIL r, PWR_STAT] s u ∧
      exec (.supplyOv r mv) s = .next ((u.breach 0).raisePkg .supplyOv))

/-- O54. The end of a shadow, severities, the scrubber, the configuration check and the injection. Derived from
14_faults_availability_life.md, 15_register_maps.md. Memory free of errors. SHADOW_END ends a shadow whose reaction is
met, SETTLE_US after its end, and gives its stop the duration; otherwise nothing. SEVERITY_WRITE, carried out, of a
source number that exists stores SEV not below FLOOR, with SEV_CLIP where it clips, and PATH where it may; of a
reserved number it changes nothing. SCRUB_READ of a running scrubber advances to the instant of the next word and
steps; a stopped one does nothing. SCRUB_EN_WRITE, carried out, stores the enable, and breaches condition 4 where the
condition is lost. CFG_CRC_CHECK at the next multiple of 10 ms changes nothing where no register is upset; the flipped
bits of one register change its value, and raise CFG_CRC for its block of a region where the recomputed CRC differs.
CFG_RELOAD of a waiting block of a region gives its flipped registers their values back at the loop boundary and
counts. A write of FLT_INJ_CTRL with ARM arms what FLT_INJ_SEL names where it is valid and none is armed, on ROPE with
DONE at once; else it stores MODE and clears a DONE not set in this cycle. Where the rules leave a point open, it
follows the choices of log entries 92, 93, 94, 140. -/
def Obligations.FaultCommands : Prop :=
  ∀ s : State, s.ecc = [] → s.hub.inject = none →
    (∀ (level : Fin 5) (inst : Fin 256),
      (s.hub.shadows.find? (fun h => h.level = level.val && h.inst = inst.val && h.sev ≠ 4) = none →
        exec (.shadowEnd level inst) s = .next s) ∧
      (∀ h : Shadow, s.hub.shadows.find? (fun h => h.level = level.val && h.inst = inst.val && h.sev ≠ 4) = some h →
        (s.shadowMet h = false → exec (.shadowEnd level inst) s = .next s) ∧
        (s.shadowMet h = true → Completes (.shadowEnd level inst) s (fun t =>
          t.now = max s.now (s.shadowEndAt h + s.shadowTicks) ∧ t.hub.shadows = s.hub.shadows.erase h ∧
          (∀ i : Nat, h.stop = some i → (t.hub.stops[i]?).map StopRec.dur =
            (s.hub.stops[i]?).map (fun r => some (t.now - r.start))) ∧ SameRegs [] s t ∧ SameMem s t)))) ∧
    (∀ (f : Fin 8) (n : Fin 545) (v : Word), s.Carried f (FLT_SRC_CFG n) v → kindOf n = none →
      Completes (.severityWrite f n v) s (fun t => OnlyRegs [] s t)) ∧
    (∀ (f : Fin 8) (n : Fin 545) (v : Word), s.Carried f (FLT_SRC_CFG n) v → kindOf n ≠ none → Completes (.severityWrite f n v) s (fun t =>
      t.rdF (FLT_SRC_CFG n) FLT_SRC_CFG.SEV = max (getFld v FLT_SRC_CFG.SEV) (s.rdF (FLT_SRC_CFG n) FLT_SRC_CFG.FLOOR) ∧
      t.rdF (FLT_SRC_CFG n) FLT_SRC_CFG.FLOOR = s.rdF (FLT_SRC_CFG n) FLT_SRC_CFG.FLOOR ∧
      t.rdF (FLT_SRC_CFG n) FLT_SRC_CFG.PATH =
        (if pathFixed n then s.rdF (FLT_SRC_CFG n) FLT_SRC_CFG.PATH else getFld v FLT_SRC_CFG.PATH) ∧
      t.is FLT_STAT FLT_STAT.SEV_CLIP = (s.is FLT_STAT FLT_STAT.SEV_CLIP ||
        decide (getFld v FLT_SRC_CFG.SEV < s.rdF (FLT_SRC_CFG n) FLT_SRC_CFG.FLOOR)) ∧
      OnlyRegs [FLT_SRC_CFG n, FLT_STAT] s t)) ∧
    (∀ (d : Fin 5) (upset : BitVec 88), d.val < 4 → bitOf (s.rdN (DIE_ECC_CTRL d)) 0 = false →
      exec (.scrubRead d upset) s = .next s) ∧
    (∀ d : Fin 5, d.val = 4 ∨ bitOf (s.rdN (DIE_ECC_CTRL d)) 0 = true → s.scrubPos d + 1 < scrubWords d →
      Completes (.scrubRead d 0#88) s (fun t => t.now = max s.now ((s.scrubber d).due (s.scrubPos d) (scrubWords d)) ∧
        t.scrubPos d = s.scrubPos d + 1 ∧ t.ecc = [] ∧ SameRegs [DIE_SCRUB_POS d] s t ∧ SameMem s t)) ∧
    (∀ (f : Fin 8) (d : Fin 4) (v : Word), s.Carried f (DIE_ECC_CTRL d) v → Completes (.scrubEnWrite f d v) s (fun t =>
      t.rdN (DIE_ECC_CTRL d) = v.toNat % 2 ∧
      (s.scrubOk d = true → t.scrubOk d = false → t.bit LIFE_COND 4 = true ∧ t.bit LIFE_COND 12 = true) ∧
      (s.scrubOk d = false ∨ t.scrubOk d = true → t.rd LIFE_COND = s.rd LIFE_COND) ∧
      SameRegs [DIE_ECC_CTRL d, LIFE_COND] s t ∧ SameMem s t)) ∧
    (s.hub.cfgFlips = [] → Completes (.cfgCrcCheck []) s (fun t => t.now = max s.now (nextMultiple (10 * msTicks) s.now) ∧ t.hub = s.hub ∧
      SameRegs [] s t ∧ SameMem s t)) ∧
    (∀ (a : Nat) (x : Word) (d : Fin 5) (b : Fin 17), d.val < 4 → b.val < 12 → cfgBlockOf a = some (d.val, b.val) →
        x &&& imageMask a ≠ 0#32 → s.hub.cfgFlips = [] → ∃ u : State,
      u.now = max s.now (nextMultiple (10 * msTicks) s.now) ∧ u.rd a = s.rd a ^^^ (x &&& imageMask a) ∧
      u.cfgGood a = s.rd a &&& imageMask a ∧ SameRegs [a] s u ∧ SameMem s u ∧
      (u.cfgDiffers d b false = false → exec (.cfgCrcCheck [(a, x)]) s = .next u) ∧
      (u.cfgDiffers d b false = true → exec (.cfgCrcCheck [(a, x)]) s = .next ((u.modHub (fun h =>
        { h with cfgBad := if h.cfgBad.contains (d.val, b.val) then h.cfgBad else h.cfgBad ++ [(d.val, b.val)] })).raise
          .cfgCrc d 2 (4 * d + b / 3) b))) ∧
    (∀ (d : Fin 5) (b : Fin 17), (s.hub.cfgBad.contains (d.val, b.val) = false → exec (.cfgReload d b) s = .next s) ∧
      (s.hub.cfgBad.contains (d.val, b.val) = true → d.val < 4 → b.val < 12 → ∃ u : State,
        u.now = max s.now (s.boundary (4 * d + b / 3)) ∧ u.hub.cfgBad = s.hub.cfgBad.erase (d.val, b.val) ∧
        u.rdN (DIE_CFG_RELOAD d) = (s.rdN (DIE_CFG_RELOAD d) + 1) % 2 ^ 32 ∧
        (∀ x ∈ s.hub.cfgFlips, cfgBlockOf x.1 = some (d.val, b.val) →
          u.rd x.1 &&& imageMask x.1 = s.cfgGood x.1 &&& imageMask x.1) ∧
        SameRegs (DIE_CFG_RELOAD d :: (s.hub.cfgFlips.map (·.1)).filter (fun a => cfgBlockOf a = some (d.val, b.val))) s u ∧
        SameMem s u ∧
        exec (.cfgReload d b) s = .next (u.emit d 0xC39 u.now))) ∧
    (∀ (f : Fin 8) (v : Word) (c : Fin 8) (g : Nat), s.Carried f FLT_INJ_CTRL v →
      s.rdF FLT_INJ_SEL FLT_INJ_SEL.CHECKER = c.val → s.rdF FLT_INJ_SEL FLT_INJ_SEL.TARGET = g →
      (getFld v FLT_INJ_CTRL.ARM = 1 → s.is FLT_INJ_CTRL FLT_INJ_CTRL.ARM = false → c.val < 6 →
          ¬(c = 2 ∧ 12 < g % 256 ∧ g % 256 ≠ 16) →
        (c ≠ 4 → Completes (.arm f v) s (fun t => t.is FLT_INJ_CTRL FLT_INJ_CTRL.ARM = true ∧
          t.hub.inject = some { checker := c, die := s.rdF FLT_INJ_SEL FLT_INJ_SEL.DIE, target := g,
                                mode := getFld v FLT_INJ_CTRL.MODE } ∧ SameRegs [FLT_INJ_CTRL] s t ∧ SameMem s t)) ∧
        (c = 4 → Completes (.arm f v) s (fun t => t.is FLT_INJ_CTRL FLT_INJ_CTRL.DONE = true ∧
          bitOf t.hub.ropeInj (g % 2) = true ∧ t.hub.inject = none ∧ SameRegs [FLT_INJ_CTRL] s t ∧ SameMem s t))) ∧
      (getFld v FLT_INJ_CTRL.ARM = 0 ∨ s.is FLT_INJ_CTRL FLT_INJ_CTRL.ARM = true ∨ 6 ≤ c.val ∨
          (c = 2 ∧ 12 < g % 256 ∧ g % 256 ≠ 16) → Completes (.arm f v) s (fun t =>
        t.rdF FLT_INJ_CTRL FLT_INJ_CTRL.MODE = getFld v FLT_INJ_CTRL.MODE ∧
        t.is FLT_INJ_CTRL FLT_INJ_CTRL.DONE = (s.is FLT_INJ_CTRL FLT_INJ_CTRL.DONE &&
          (decide (getFld v FLT_INJ_CTRL.DONE = 0) || bitOf (s.setNow FLT_INJ_CTRL).toNat FLT_INJ_CTRL.DONE.lo)) ∧ OnlyRegs [FLT_INJ_CTRL] s t)))

/-- O55. POR, PERST, the software package reset and a supply reset. Derived from 14_faults_availability_life.md,
13_thermal_and_supply.md, 15_register_maps.md. With no site in force, no image operation, memory free of errors. Each
leaves time 0, its reset cause, units and regions as after reset, what the NVM holds, the learned keep-alive fit, the
calendar of the newest record, the settings, the queue of commands; every register at its reset value but for what it
keeps. POR and SUPPLY_RESET of VDD or VDDM (rails 0 and 1), with no journaled life record, bank or trim, keep only
what the NVM holds, and empty memory and the journal queue. PERST, PKG_RST with the key and SUPPLY_RESET of another
rail keep memory, the life registers, the calibration, the site contexts that have changed. SUPPLY_RESET at a
magnitude below the rail's threshold shows the rail and the magnitude it rises to, and holds the package in reset
while that is not above the release value; at one that is not below it, it only shows the magnitude. PKG_RST with the
key waits for the ramps of the outputs that force. Without the key it is refused to PF0. Where the rules leave a point
open, it follows the choices of log entries 8, 90, 96, 158, 159, 160. -/
def Obligations.PackageResets : Prop :=
  ∀ s : State, s.ecc = [] → s.hub.inject = none → s.hub.imgOp = none → (∀ p : Fin 256, s.siteOf p = none) →
    (s.nvm.life.1 = [] → s.nvm.banks = [] → s.nvm.trims = [] →
      Completes .por s (fun t => s.AfterReset t 0 none keepNvm [] ∧ t.mem = [] ∧ t.ecc = [] ∧ t.nvm.queue = [] ∧ t.dies = []) ∧
      (∀ (r : Fin 6) (lo hi : BitVec 16), r.val < 2 → 10 * lo.toNat < (railLimits r).2.2.1 → Completes (.supplyReset r (lo, hi)) s (fun t =>
        s.AfterReset t 3 (some r.val) keepNvm [PWR_RAIL r] ∧ t.rdN (PWR_RAIL r) = hi.toNat ∧ t.hub.held = (if (railLimits r).2.2.2.1 < 10 * hi.toNat then s.hub.held.filter (· ≠ r.val) else some r.val) ∧ t.mem = [] ∧ t.ecc = [] ∧
        t.nvm.queue = [] ∧ t.dies = []))) ∧
    Completes .perst s (fun t => s.AfterReset t 1 none (fun a => keepNvm a ||| s.keepCal a ||| if lifeRegs.contains a then allBits else 0#32) [] ∧ SameMem s t ∧ t.hub.life = s.hub.life ∧ t.hub.stops = s.hub.stops ∧ t.nvm.queue = s.nvm.queue.filter JRec.isBank ∧
      (∀ d : Fin 4, t.die d = { changed := (t.die d).changed } ∧ ∀ i : Nat, (t.die d).changed.contains i =
        ((s.die d).changed.contains i || s.nvm.queue.any (fun r => siteRec d i r)))) ∧
    (∀ f : Fin 8, s.Carried f HUB_RST_CTRL 0xA5000001#32 →
      ((∀ p : Fin 256, s.drives p = false) → Completes (.pkgRst f 0xA5#8) s (fun t => s.AfterReset t 2 none (fun a => keepNvm a ||| s.keepCal a ||| if lifeRegs.contains a then allBits else 0#32) [] ∧ SameMem s t ∧ t.hub.life = s.hub.life ∧ t.hub.stops = s.hub.stops ∧ t.nvm.queue = s.nvm.queue.filter JRec.isBank ∧
      (∀ d : Fin 4, t.die d = { changed := (t.die d).changed } ∧ ∀ i : Nat, (t.die d).changed.contains i =
        ((s.die d).changed.contains i || s.nvm.queue.any (fun r => siteRec d i r))))) ∧
      ((∃ p : Fin 256, s.drives p = true) → Completes (.pkgRst f 0xA5#8) s (fun t => t.hub.rstWait = true ∧ t.accepts = false ∧
        t.now = s.now ∧ SameMem s t))) ∧
    (∀ (r : Fin 6) (lo hi : BitVec 16), 2 ≤ r.val → 10 * lo.toNat < (railLimits r).2.2.1 → Completes (.supplyReset r (lo, hi)) s (fun t =>
      s.AfterReset t 3 (some r.val) (fun a => keepNvm a ||| s.keepCal a ||| if lifeRegs.contains a then allBits else 0#32) [PWR_RAIL r] ∧ t.rdN (PWR_RAIL r) = hi.toNat ∧ t.hub.held = (if (railLimits r).2.2.2.1 < 10 * hi.toNat then s.hub.held.filter (· ≠ r.val) else some r.val) ∧ SameMem s t ∧ t.hub.life = s.hub.life ∧ t.hub.stops = s.hub.stops ∧ t.nvm.queue = s.nvm.queue.filter JRec.isBank ∧
      (∀ d : Fin 4, t.die d = { changed := (t.die d).changed } ∧ ∀ i : Nat, (t.die d).changed.contains i =
        ((s.die d).changed.contains i || s.nvm.queue.any (fun r => siteRec d i r))))) ∧
    (∀ (r : Fin 6) (lo hi : BitVec 16), (railLimits r).2.2.1 ≤ 10 * lo.toNat → Completes (.supplyReset r (lo, hi)) s (fun t =>
      t.rdN (PWR_RAIL r) = lo.toNat ∧ OnlyRegs [PWR_RAIL r] s t)) ∧
    (∀ key : BitVec 8, key ≠ 0xA5#8 → s.accepts = true → exec (.pkgRst 0 key) s = .next (s.refuse 0 HUB_RST_CTRL true false rsnKey))

/-- O56. The restart of a region: its request, clear, reload and resumption. Derived from 14_faults_availability_life.md,
15_register_maps.md, 12_berrin_image.md. REGION_RESET, carried out, of a region in restart only shows RESET; otherwise
it records the excluded stop, casts the shadow and begins phase 1. RESTART_CLEAR of phase 1, once every switch is open
and no safe path runs, with nothing held and no site in force: phase 2, nightlight mode, sequencer, player and reducer
empty; no other region, no register outside the region but its rate in force, and no memory changes. RESTART_RELOADED
of phase 2: phase 3, 256 µs to its completion, and a skew calibration. RESTART_RESUME of phase 3 that no higher
reaction covers, once that calibration has ended, without an image: at its instant the phase and RESET end, and the
shadow with them. In another phase each does nothing. Where the rules leave a point open, it follows the choices of
log entries 23, 97, 160. -/
def Obligations.RegionRestart : Prop :=
  ∀ (s : State) (r : Fin 16),
    (∀ f : Fin 8, s.Carried f (RGN_CTRL r) 1#32 →
      (s.restarting r = true → Completes (.regionReset f r) s (fun t =>
        t.is (RGN_CTRL r) RGN_CTRL.RESET = true ∧ OnlyRegs [RGN_CTRL r] s t)) ∧
      (s.restarting r = false → ∃ u : State, u.is (RGN_CTRL r) RGN_CTRL.RESET = true ∧ u.restarting r = false ∧
        u.hub.stops = s.hub.stops ++ [{ src := Config.hostStopSource.toNat, inst := r, start := s.now, counted := false }] ∧
        (∃ h ∈ u.hub.shadows, h.level = 2 ∧ h.inst = r.val ∧ h.sev = 4 ∧ h.start = s.now) ∧
        u.rdN LIFE_STOPS_X = (s.rdN LIFE_STOPS_X + 1) % 2 ^ 32 ∧ SameMem s u ∧
        exec (.regionReset f r) s = .next (u.restartPhase1 r false false).cutReports)) ∧
    ((s.region r).restart ≠ 1 → exec (.restartClear r) s = .next s) ∧
    ((∃ p ∈ unitsOf r, s.closed p = true ∨ (s.unit p).safe ≠ .none) → exec (.restartClear r) s = .next s) ∧
    (s.ecc = [] → s.hub.inject = none → s.hub.imgOp = none → s.itemsHeld r = [] → (s.region r).restart = 1 →
      (∀ p ∈ unitsOf r, s.closed p = false ∧ (s.unit p).safe = .none ∧ s.siteOf p = none) →
      Completes (.restartClear r) s (fun t => (t.region r).restart = 2 ∧ t.nightlight r = true ∧ (t.region r).seq = {} ∧
        (t.region r).player = {} ∧ (t.region r).red = {} ∧ (t.region r).img = (s.region r).img ∧
        (∀ q : Fin 16, q ≠ r → t.region q = s.region q) ∧
        (∀ p : Fin 256, p.val / 16 ≠ r.val → t.unit p = s.unit p) ∧
        (∀ a : Nat, blockRegion a ≠ some r.val → regionScope r a = false → a ≠ TMP_RGN r → t.rd a = s.rd a) ∧ SameMem s t)) ∧
    (∀ shadowOk : Bool, ((s.region r).restart ≠ 2 → exec (.restartReloaded r shadowOk) s = .next s) ∧
      ((s.region r).restart = 2 → Completes (.restartReloaded r shadowOk) s (fun t => (t.region r).restart = 3 ∧
        (t.region r).restartDone = s.now + 256 * usTicks ∧ (t.region r).skewWait = true ∧ t.hub.clk.skewN = some 0 ∧
        ((s.region r).img = none → (s.region r).restartEcc = false → SameRegs [] s t ∧ SameMem s t)))) ∧
    ((s.region r).restart ≠ 3 ∨ (s.region r).skewWait = true ∨ (∃ h ∈ s.hub.shadows, 4 < h.sev ∧ within 2 r h.level h.inst = true) →
      exec (.restartResume r) s = .next s) ∧
    ((s.region r).restart = 3 → (s.region r).skewWait = false → (∀ h ∈ s.hub.shadows, 4 < h.sev → within 2 r h.level h.inst = false) →
      (s.region r).img = none → s.hub.imgOp = none → Completes (.restartResume r) s (fun t =>
        t.now = max s.now ((s.region r).restartDone + s.shadowTicks) ∧ t.restarting r = false ∧
        t.is (RGN_CTRL r) RGN_CTRL.RESET = false ∧
        t.rdF (RGN_INFO r) RGN_INFO.STATE = (if s.nightlight r then 0 else 1) ∧
        (∀ h ∈ t.hub.shadows, ¬(h.level = 2 ∧ h.inst = r.val ∧ h.sev = 4)) ∧ SameMem s t))

/-- O57. Journal records, the life journal, the operating second, the end of a RECENT bit. Derived from
14_faults_availability_life.md, 13_thermal_and_supply.md. JOURNAL_RECORD first carries out a flush whose outputs have
ramped. Without a waiting record, with 3,600 within the hour, or after a thermal shutdown that no flush meets, it does
nothing. Else the first content, or up to 127 site snapshots that stand first, are programmed at the end of the area's
log, in the next sector where they do not fit, with generation, CRC-32 and commit word, up to 4,064 bytes; the record
counts, its contents leave the queue, and it is the newest (calendar, flush marker, setting, key, keep-alive fit).
Power lost before the commit word leaves an uncommitted record and the queue; pages that do not verify cost a spare
sector, or raise NVM_FAIL without one. An erase under way ends first, and its sector counts one more. LIFE_JOURNAL at
the next multiple of 64 s, and JOURNAL, carried out, queue the calendar, the life registers, and the relays and the
fit where they changed (the fit: log entry 15), JOURNAL the snapshots of the changed site contexts too, whose snapshot
numbers count. OPERATING_SECOND at the next whole second counts one second, the Arrhenius weight, the package
temperature and each unit's force-on time, and changes no other register. LIFE_COND_RECENT_END, 24 h after the last
breach of a condition that no longer holds, clears its RECENT bit; else nothing. Where the rules leave a point open,
it follows the choices of log entries 15, 22, 89, 131, 161, 162, 163. -/
def Obligations.JournalAndLife : Prop :=
  ∀ s : State,
    (∀ ok eraseOk cut : Bool,
      (s.hub.flushDue = false ∨ s.ramped = false →
          s.nvm.queue = [] ∨ 3600 ≤ s.jRecent.length ∨ (s.is TMP_SHUT TMP_SHUT.SHUT = true ∧ s.nvm.flushing = false) →
        exec (.journalRecord ok eraseOk cut) s = .next s) ∧
      (s.hub.flushDue = true → s.ramped = true → Completes (.journalRecord ok eraseOk cut) s (fun t =>
        t.hub.flushDue = false ∧ JRec.mark true ∈ t.nvm.queue ∧ t.rd LIFE_OPS_LO = s.rd LIFE_OPS_LO)) ∧
      (∀ (r : JRec) (rest : List JRec) (m : Nat),
          s.hub.flushDue = false ∨ s.ramped = false → s.nvm.queue = r :: rest → s.jRecent.length < 3600 →
          s.is TMP_SHUT TMP_SHUT.SHUT = false →
        ((s.area r.area).erasing = some m → ok = true → cut = false → Completes (.journalRecord true true false) s (fun t =>
          mapGet 0 m (t.area r.area).wear = mapGet 0 m (s.area r.area).wear + 1 ∧ (t.area r.area).erasing ≠ some m)) ∧
        ((s.area r.area).erasing = none → (s.logFor r.area).fits (min maxPayload s.jLeft.length) = true →
          (cut = true → Completes (.journalRecord ok eraseOk true) s (fun t => t.nvm.queue = s.nvm.queue ∧ t.hub = s.hub ∧
            (ok = true → t.area r.area =
              (s.logFor r.area).program r.area r.type (s.nvm.part / maxPayload) (s.nvm.batch.map JRec.content) (s.jLeft.take maxPayload) false) ∧
            SameRegs [] s t ∧ SameMem s t)) ∧
          (Completes (.journalRecord true eraseOk false) s (fun t => t.area r.area =
              (s.logFor r.area).program r.area r.type (s.nvm.part / maxPayload) (s.nvm.batch.map JRec.content) (s.jLeft.take maxPayload) true ∧
            t.hub.jTimes = s.now :: s.jRecent ∧
            (maxPayload < s.jLeft.length → t.nvm.queue = s.nvm.queue ∧ t.nvm.part = s.nvm.part + maxPayload ∧ SameRegs [] s t) ∧
            (s.jLeft.length ≤ maxPayload → t.nvm.queue = s.nvm.queue.filter (fun q => !s.nvm.batch.contains q) ∧ t.nvm.part = 0 ∧
              (∀ a b : Nat, r = .cal a b → t.nvm.cal = (a, b)) ∧ (∀ done : Bool, r = .mark done → t.nvm.flushOpen = !done) ∧
              (∀ (a : Nat) (v : Word), r = .setting a v → mapGet 0#32 a t.nvm.settings = v) ∧
              (∀ (k : Nat) (bs : List (BitVec 8)), r = .key k bs → mapGet [] k t.nvm.keys = bs) ∧
              (∀ a b : Nat, r = .kaFit a b → t.nvm.kaFit = (a, b)) ∧
              (∀ (d i : Nat) (full : Bool) (bs : List (BitVec 8)), r = .site d i full bs → r.snapshot = false →
                mapGet [] (0x8000 * d + 2 * i + b2n full) t.nvm.sites = bs) ∧
              (r.content < 4 ∨ r.area = 4 → SameRegs [] s t)) ∧ SameMem s t)) ∧
          (s.nvm.spare ≠ 0 → Completes (.journalRecord false eraseOk false) s (fun t => t.nvm.queue = s.nvm.queue ∧
            t.nvm.spare = s.nvm.spare - 1 ∧ t.hub = s.hub ∧ SameRegs [] s t ∧ SameMem s t)) ∧
          (s.nvm.spare = 0 → ∃ u : State, u.nvm.queue = s.nvm.queue ∧ u.area r.area = s.logFor r.area ∧ u.hub = s.hub ∧ SameRegs [] s u ∧
            SameMem s u ∧ exec (.journalRecord false eraseOk false) s = .next (u.raisePkg .nvmFail))))) ∧
    Completes .lifeJournal s (fun t => t.now = max s.now (nextMultiple (64 * secTicks) s.now) ∧
      JRec.cal t.calendar.1 t.calendar.2 ∈ t.nvm.queue ∧
      JRec.life (lifeRegs.map (fun a => (a, s.rd a))) s.hub.life s.hub.stops ∈ t.nvm.queue ∧
      ((s.hub.relayCnt, s.hub.relayClass, s.hub.relayWarned) ≠ s.nvm.relays →
        JRec.relays s.hub.relayCnt s.hub.relayClass s.hub.relayWarned ∈ t.nvm.queue) ∧
      t.hub = s.hub ∧ SameRegs [] s t ∧ SameMem s t) ∧
    (∀ f : Fin 8, s.Carried f LIFE_CTRL 1#32 → s.ecc = [] → s.hub.inject = none → (∀ p : Fin 256, s.siteOf p = none) →
      Completes (.journal f) s (fun t => t.now = s.now ∧
      JRec.cal s.calendar.1 s.calendar.2 ∈ t.nvm.queue ∧ (∀ d : Fin 4, (t.die d).changed = [] ∧
        ∀ i : Nat, (s.die d).changed.contains i = true → t.nvm.queue.any (fun r => siteRec d i r) = true) ∧
      JRec.life (lifeRegs.map (fun a => (a, s.rd a))) s.hub.life s.hub.stops ∈ t.nvm.queue ∧
      ((s.hub.relayCnt, s.hub.relayClass, s.hub.relayWarned) ≠ s.nvm.relays →
        JRec.relays s.hub.relayCnt s.hub.relayClass s.hub.relayWarned ∈ t.nvm.queue) ∧
      t.hub = s.hub ∧ SameRegs [] s t ∧
      ∀ b : Nat, (∀ d : Fin 4, ∀ i ∈ (s.die d).changed, ¬(s.ctxAt d i + 0xC ≤ b ∧ b < s.ctxAt d i + 0x10)) → t.byte b = s.byte b)) ∧
    Completes .operatingSecond s (fun t => t.now = max s.now (nextMultiple secTicks s.now) ∧
      t.rd64 LIFE_OPS_LO = (s.rd64 LIFE_OPS_LO + 1) % 2 ^ 64 ∧
      t.rd64 LIFE_ARR_LO = (s.rd64 LIFE_ARR_LO + arrheniusAdd (s.rdF LIFE_ARR_CFG LIFE_ARR_CFG.EA)
        (s.rdF LIFE_ARR_CFG LIFE_ARR_CFG.TREF) s.pkgTherm) % 2 ^ 64 ∧
      t.hub.life.tjSum = s.hub.life.tjSum + s.pkgTherm ∧
      t.rdN LIFE_CYCLES = (s.rdN LIFE_CYCLES + b2n (cycleStep s.hub.life.cycle s.pkgTherm).2) % 2 ^ 32 ∧
      (∀ p : Fin 256, (t.unit p).fonTicks < secTicks ∧
        (s.closed p = true → t.rdN (LIFE_FON p) =
          (s.rdN (LIFE_FON p) + ((s.unit p).fonTicks + (t.now - (s.unit p).fonFrom)) / secTicks) % 2 ^ 32)) ∧
      SameRegs ([LIFE_OPS_LO, LIFE_OPS_HI, LIFE_ARR_LO, LIFE_ARR_HI, LIFE_TJ_MEAN, LIFE_CYCLES, LIFE_COND] ++
        (List.range 256).map LIFE_FON) s t ∧ SameMem s t) ∧
    (∀ c : Fin 6, (s.bit LIFE_COND (8 + c) = false ∨ s.breached c = true → exec (.lifeCondRecentEnd c) s = .next s) ∧
      (s.bit LIFE_COND (8 + c) = true → s.breached c = false → Completes (.lifeCondRecentEnd c) s (fun t =>
        t.now = max s.now (mapGet 0 c s.hub.breaches + 86400 * secTicks) ∧ t.bit LIFE_COND (8 + c) = false ∧
        t.bit LIFE_COND c = s.bit LIFE_COND c ∧ SameRegs [LIFE_COND] s t ∧ SameMem s t)))

/-- O58. Register writes, BAR2 writes, fences, interrupts and MSI-X. Derived from 15_register_maps.md,
11_data_movement_and_credits.md, 12_berrin_image.md. REGISTER_WRITE of no DWORD does nothing; with a byte enable at 0
or across a 64-byte boundary it is refused as a whole; carried out, one DWORD to CH_SETPT or CH_MODE does what
SETPT_WRITE or CH_MODE_WRITE does, and a plain register takes the value by its access codes. A package in reset takes
no write. BAR2_WRITE that is refused is logged; at a die whose spine is down it sets REG_TMO, in an outage before that
it waits; into an idle staging buffer it stores its bytes. A read of memory that it carries answers 0 where refused,
all ones where the spine is down, else the bytes. FENCE and FENCE_LIFT, carried out, set and clear FENCE, with FENCED
once no access of the function is in flight, never of function 0. INT_EN_WRITE, carried out, stores the enables and
sends the messages of the causes that rise; INT_STAT_CLEAR clears the bits at 1 that hardware has not set in its PCLK
cycle, and sets the causes met. MSIX_UNMASK unmasks the vector and sends a withheld message once. Where the rules
leave a point open, it follows the choices of log entries 70, 99, 102, 103, 106. -/
def Obligations.HostAccess : Prop :=
  ∀ (s : State) (f : Fin 8),
    (∀ (a : Fin 134217728) (be : BitVec 4) (vs : List Word),
      (s.accepts = true → be ≠ 0xF#4 ∨ 16 < a.val / 4 * 4 % 64 / 4 + vs.length → exec (.registerWrite f a be vs) s =
        .next (s.refuse f (a / 4 * 4) true false
          (if s.fenced f then rsnFenced else rsnSize))) ∧
      (s.accepts = false → exec (.registerWrite f a be vs) s = .next s) ∧
      exec (.registerWrite f a 0xF#4 []) s = .next s) ∧
    (∀ (a : Fin 134217728) (v : Word),
      (∀ p : Fin 256, a.val = CH_SETPT p → s.Carried f a v →
        exec (.registerWrite f a 0xF#4 [v]) s = .next ((s.wroteNow a v).setptWrite p v)) ∧
      (∀ p : Fin 256, a.val = CH_MODE p → s.Carried f a v →
        exec (.registerWrite f a 0xF#4 [v]) s = .next (((s.wroteNow a v).regSquash a).modeWrite p v)) ∧
      (∀ d : Fin 4, a.val = SITE_ACC_SEL d → s.Carried f a v → Completes (.registerWrite f a 0xF#4 [v]) s (fun t =>
        t.rdF a ⟨0, 14⟩ = v.toNat % 2 ^ 14 ∧ OnlyRegs [a.val] s t))) ∧
    (∀ (a : Fin 268435456) (bs : List (BitVec 8)), bs ≠ [] →
      (s.accepts = false → exec (.bar2Write f a (bs, [])) s = .next s) ∧
      (s.accepts = true →
        (∀ x : Nat, s.bar2Refusal f a bs.length true = some x → exec (.bar2Write f a (bs, [])) s = .next (s.refuse f a true true x)) ∧
        (s.bar2Refusal f a bs.length true = none → a.val < hubMem → s.spineDown (a / 0x2000000) = true →
          Completes (.bar2Write f a (bs, [])) s (fun t => t.is DMA_STAT DMA_STAT.REG_TMO = true ∧ OnlyRegs [DMA_STAT] s t)) ∧
        (s.bar2Refusal f a bs.length true = none → a.val < hubMem → s.spineDown (a / 0x2000000) = false →
          s.spineOut (a / 0x2000000) = true → Completes (.bar2Write f a (bs, [])) s (fun t =>
            t = s.modHub (fun h => { h with spineWait := h.spineWait ++ [(a.val / 0x2000000, SpineAcc.bar2 f a bs)] }))) ∧
        (s.ecc = [] → s.hub.inject = none → s.bar2Refusal f a bs.length true = none → hubMem ≤ a.val →
          a.val + bs.length ≤ hubMem + 0x200000 → s.stagingBusy = false → Completes (.bar2Write f a (bs, [])) s (fun t =>
            t.bytes a bs.length = bs ∧ (∀ b : Nat, ¬(a.val ≤ b ∧ b < a.val + bs.length) → t.byte b = s.byte b) ∧
            SameRegs [] s t)))) ∧
    (∀ (a b : Fin 268435456) (g : Fin 8) (n : Fin 4097), s.accepts = true →
      (∀ x : Nat, s.bar2Refusal g b n false = some x → exec (.bar2Write f a ([], [(g, b, n)])) s =
        .next ((s.refuse g b false true x).answerMem g (List.replicate n 0#8))) ∧
      (s.bar2Refusal g b n false = none → b.val < hubMem → s.spineDown (b / 0x2000000) = true →
        exec (.bar2Write f a ([], [(g, b, n)])) s =
          .next ((s.flag DMA_STAT DMA_STAT.REG_TMO true).answerMem g (List.replicate n 0xFF#8))) ∧
      (s.ecc = [] → s.hub.inject = none → s.bar2Refusal g b n false = none → hubMem ≤ b.val →
        b.val + n.val ≤ hubMem + 0x200000 → Completes (.bar2Write f a ([], [(g, b, n)])) s (fun t =>
          t.out.bar2 = (g.val, s.bytes b n) :: s.out.bar2 ∧ SameRegs [] s t ∧ SameMem s t))) ∧
    (∀ g : Fin 8, (s.Carried f (HUB_FN_CTRL g) 1#32 →
        (g ≠ 0 → Completes (.fence f g) s (fun t => t.is (HUB_FN_CTRL g) HUB_FN_CTRL.FENCE = true ∧
          t.is (HUB_FN_CTRL g) HUB_FN_CTRL.FENCED = !s.inFlight g ∧ OnlyRegs [HUB_FN_CTRL g] s t)) ∧
        (g = 0 → Completes (.fence f g) s (fun t => OnlyRegs [] s t))) ∧
      (s.Carried f (HUB_FN_CTRL g) 0#32 →
        (g ≠ 0 → Completes (.fenceLift f g) s (fun t => t.is (HUB_FN_CTRL g) HUB_FN_CTRL.FENCE = false ∧
          t.is (HUB_FN_CTRL g) HUB_FN_CTRL.FENCED = false ∧ OnlyRegs [HUB_FN_CTRL g] s t)) ∧
        (g = 0 → Completes (.fenceLift f g) s (fun t => OnlyRegs [] s t)))) ∧
    (∀ (g : Fin 8) (v : Word), s.Carried f (HUB_INT_EN g) v → ∃ u : State,
      (∀ c : Fin 12, u.bit (HUB_INT_EN g) c = if bitOf (causeMask g) c then bitOf v.toNat c else s.bit (HUB_INT_EN g) c) ∧ OnlyRegs [HUB_INT_EN g] s u ∧
      exec (.intEnWrite f g v) s = .next (u.each (indices 12 (fun c => u.bit (HUB_INT_EN g) c && !s.bit (HUB_INT_EN g) c &&
        s.bit (HUB_INT_STAT g) c)) (fun w c => w.sendCause g c))) ∧
    (∀ (g : Fin 8) (v : Word) (met : BitVec 12), s.Carried f (HUB_INT_STAT g) v → Completes (.intStatClear f g v met) s (fun t =>
      (∀ c : Fin 12, t.bit (HUB_INT_STAT g) c = ((s.bit (HUB_INT_STAT g) c && !(bitOf v.toNat c && bitOf (causeMask g) c && bitOf (s.rdCyc (HUB_INT_STAT g)).toNat c)) ||
        (bitOf met.toNat c && bitOf (causeMask g) c))) ∧
      SameRegs [HUB_INT_STAT g, HUB_INT_CNT g] s t ∧ SameMem s t)) ∧
    (∀ v : Fin 64, s.Carried f (0xF0000 + 16 * v + 12) 0#32 → Completes (.msixUnmask f v) s (fun t => t.masked f v = false ∧
      bitOf (t.msix f (pbaOff v)).toNat (v % 32) = (bitOf (s.msix f (pbaOff v)).toNat (v % 32) && !s.masked f v) ∧
      t.out.posted = (if s.masked f v && bitOf (s.msix f (pbaOff v)).toNat (v % 32) then [.msix f v] else []) ++ s.out.posted ∧
      SameRegs [] s t ∧ SameMem s t))

/-- O59. The management view over SMBus and the JTAG instructions. Derived from 15_register_maps.md,
16_pins_and_electrical.md, 12_berrin_image.md. Each Block Read of a package not held in reset answers the count 4, the
register little-endian and the PEC, and has no side effect: HUB_ID, serial, HUB_BOOT_STAT, the greatest temperature,
TMP_SHUT, PWR_STAT, FLT_SEV_PEND, LIFE_COND, IMG_STAT. Another command answers a count of 0; a write does nothing. A
package held in reset answers nothing. BYPASS, SAMPLE/PRELOAD, EXTEST, CLAMP and HIGHZ come into force and change
nothing else; SAMPLE/PRELOAD takes the cells. In nightlight mode EXTEST and CLAMP drive the pins from the boundary
register and HIGHZ floats them. Where a boot waits for it, BYPASS and SAMPLE/PRELOAD let the boot go on. Where the
rules leave a point open, it follows the choices of log entries 104, 105. -/
def Obligations.SmbusAndJtag : Prop :=
  ∀ s : State,
    Completes .smbHubId s (fun t => t.out.smb = (if s.hub.held = none then smbAnswer 0x00 (s.shows 0 HUB_ID) else []) ∧
      t = { s with out := t.out } ∧ t.out = { s.out with smb := t.out.smb }) ∧
    Completes .smbSerialLo s (fun t => t.out.smb = (if s.hub.held = none then smbAnswer 0x01 (s.shows 0 HUB_SERIAL_LO) else []) ∧
      t = { s with out := t.out } ∧ t.out = { s.out with smb := t.out.smb }) ∧
    Completes .smbSerialHi s (fun t => t.out.smb = (if s.hub.held = none then smbAnswer 0x02 (s.shows 0 HUB_SERIAL_HI) else []) ∧
      t = { s with out := t.out } ∧ t.out = { s.out with smb := t.out.smb }) ∧
    Completes .smbBootStat s (fun t => t.out.smb = (if s.hub.held = none then smbAnswer 0x03 (s.rd HUB_BOOT_STAT) else []) ∧
      t = { s with out := t.out } ∧ t.out = { s.out with smb := t.out.smb }) ∧
    Completes .smbTmpShut s (fun t => t.out.smb = (if s.hub.held = none then smbAnswer 0x11 (s.rd TMP_SHUT) else []) ∧
      t = { s with out := t.out } ∧ t.out = { s.out with smb := t.out.smb }) ∧
    Completes .smbPwrStat s (fun t => t.out.smb = (if s.hub.held = none then smbAnswer 0x12 (s.rd PWR_STAT) else []) ∧
      t = { s with out := t.out } ∧ t.out = { s.out with smb := t.out.smb }) ∧
    Completes .smbSevPend s (fun t => t.out.smb = (if s.hub.held = none then smbAnswer 0x13 (w32 s.sevPend) else []) ∧
      t = { s with out := t.out } ∧ t.out = { s.out with smb := t.out.smb }) ∧
    Completes .smbLifeCond s (fun t => t.out.smb = (if s.hub.held = none then smbAnswer 0x14 (s.rd LIFE_COND) else []) ∧
      t = { s with out := t.out } ∧ t.out = { s.out with smb := t.out.smb }) ∧
    Completes .smbImgStat s (fun t => t.out.smb = (if s.hub.held = none then smbAnswer 0x15 (s.rd IMG_STAT) else []) ∧
      t = { s with out := t.out } ∧ t.out = { s.out with smb := t.out.smb }) ∧
    (∀ k : Fin 88, (∀ j : Fin 88, s.shownTemp j ≤ s.shownTemp k) → (∀ j : Fin 88, j < k → s.shownTemp j < s.shownTemp k) →
      Completes .smbMaxTemp s (fun t => t.out.smb = (if s.hub.held = none then smbAnswer 0x10 (s.rd (TMP_RD k)) else []) ∧
        t = { s with out := t.out } ∧ t.out = { s.out with smb := t.out.smb })) ∧
    (∀ v : Word, (smbAnswer 0x10 v).length = 6 ∧ (smbAnswer 0x10 v).head? = some 4#8 ∧
      ofLeBytes (((smbAnswer 0x10 v).drop 1).take 4) = v.toNat) ∧
    (∀ (c : BitVec 8) (data : List (BitVec 8)), exec (.smbWrite c data) s = .next s ∧
      Completes (.smbOtherCommand c) s (fun t => t.out.smb = (if s.hub.held = none then [0#8] else []) ∧ t = { s with out := t.out } ∧ t.out = { s.out with smb := t.out.smb })) ∧
    (∀ (c : BitVec 8) (cells : List Bool), (s.hub.jtag < 2 ∨ s.rdF HUB_BOOT_STAT HUB_BOOT_STAT.STEP ≠ 2 →
        exec (.jtagBypass c) s = .next (s.modHub (fun h => { h with jtag := 0 })) ∧
        exec (.jtagSamplePreload cells) s = .next (s.modHub (fun h => { h with jtag := 1, boundary := cells }))) ∧
      (2 ≤ s.hub.jtag → s.rdF HUB_BOOT_STAT HUB_BOOT_STAT.STEP = 2 →
        exec (.jtagBypass c) s = .next (s.modHub (fun h => { h with jtag := 0 })).boot ∧
        exec (.jtagSamplePreload cells) s = .next ((s.modHub (fun h => { h with jtag := 1 })).boot.modHub (fun h =>
          { h with boundary := cells })))) ∧
    Completes .jtagExtest s (fun t => t = s.modHub (fun h => { h with jtag := 2 }) ∧
      t.pinDrive = if s.hub.held = some 2 then .float else if s.is IMG_STAT IMG_STAT.NL then .boundary s.hub.boundary else .device) ∧
    Completes .jtagClamp s (fun t => t = s.modHub (fun h => { h with jtag := 3 }) ∧
      t.pinDrive = if s.hub.held = some 2 then .float else if s.is IMG_STAT IMG_STAT.NL then .boundary s.hub.boundary else .device) ∧
    Completes .jtagHighz s (fun t => t = s.modHub (fun h => { h with jtag := 4 }) ∧
      t.pinDrive = if s.hub.held = some 2 then .float else if s.is IMG_STAT IMG_STAT.NL then .float else .device)

/-- O60. Each of the 306 forms completes: every command answers a next state in every state, and so does every step.
Derived from 00_scope.md, 15_register_maps.md, 14_faults_availability_life.md. For every constructor of Instr, with
all operands, and every state, without any further condition: exec answers a next state, never a fault or a refusal; a
refused host access is a next state too, with its log (R460). For every state step answers a next state: that of the
command in front of the queue on the state with the rest of the queue, or that of the idle block. What each next state
holds is said by the other statements, row by row. -/
def Obligations.EveryCommandCompletes : Prop :=
  (∀ (c : Instr) (s : State), ∃ t, exec c s = .next t) ∧
    (∀ (c : Instr) (cs : List Instr) (s : State), s.pending = c :: cs →
      ∃ t, exec c { s with pending := cs } = .next t ∧ step s = .next t) ∧
    (∀ s : State, s.pending = [] → ∃ t, step s = .next t)
end

