-- ==== Sys2Proof/Laws/State.lean ====
section
/-! SUPPORT. What each primitive update of the state leaves unchanged, field by field, so that no later proof unfolds a record
update. -/

namespace Sys2Proof.Machine

@[simp] theorem State.wr_now (s : State) (a : Nat) (v : Word) : (s.wr a v).now = s.now := rfl
@[simp] theorem State.wr_perFn (s : State) (a : Nat) (v : Word) : (s.wr a v).perFn = s.perFn := rfl
@[simp] theorem State.wr_cycRegs (s : State) (a : Nat) (v : Word) : (s.wr a v).cycRegs = s.cycRegs := rfl
@[simp] theorem State.wr_cycWrote (s : State) (a : Nat) (v : Word) : (s.wr a v).cycWrote = s.cycWrote := rfl
@[simp] theorem State.wr_cycSet (s : State) (a : Nat) (v : Word) : (s.wr a v).cycSet = s.cycSet := rfl
@[simp] theorem State.wr_cycMem (s : State) (a : Nat) (v : Word) : (s.wr a v).cycMem = s.cycMem := rfl
@[simp] theorem State.wr_past (s : State) (a : Nat) (v : Word) : (s.wr a v).past = s.past := rfl
@[simp] theorem State.wr_mem (s : State) (a : Nat) (v : Word) : (s.wr a v).mem = s.mem := rfl
@[simp] theorem State.wr_ecc (s : State) (a : Nat) (v : Word) : (s.wr a v).ecc = s.ecc := rfl
@[simp] theorem State.wr_imgVals (s : State) (a : Nat) (v : Word) : (s.wr a v).imgVals = s.imgVals := rfl
@[simp] theorem State.wr_blocks (s : State) (a : Nat) (v : Word) : (s.wr a v).blocks = s.blocks := rfl
@[simp] theorem State.wr_units (s : State) (a : Nat) (v : Word) : (s.wr a v).units = s.units := rfl
@[simp] theorem State.wr_clusters (s : State) (a : Nat) (v : Word) : (s.wr a v).clusters = s.clusters := rfl
@[simp] theorem State.wr_regions (s : State) (a : Nat) (v : Word) : (s.wr a v).regions = s.regions := rfl
@[simp] theorem State.wr_dies (s : State) (a : Nat) (v : Word) : (s.wr a v).dies = s.dies := rfl
@[simp] theorem State.wr_hub (s : State) (a : Nat) (v : Word) : (s.wr a v).hub = s.hub := rfl
@[simp] theorem State.wr_nvm (s : State) (a : Nat) (v : Word) : (s.wr a v).nvm = s.nvm := rfl
@[simp] theorem State.wr_out (s : State) (a : Nat) (v : Word) : (s.wr a v).out = s.out := rfl
@[simp] theorem State.wr_freeCtr (s : State) (a : Nat) (v : Word) : (s.wr a v).freeCtr = s.freeCtr := rfl
@[simp] theorem State.wr_pending (s : State) (a : Nat) (v : Word) : (s.wr a v).pending = s.pending := rfl

@[simp] theorem State.setByte_now (s : State) (a : Nat) (v : BitVec 8) : (s.setByte a v).now = s.now := rfl
@[simp] theorem State.setByte_regs (s : State) (a : Nat) (v : BitVec 8) : (s.setByte a v).regs = s.regs := rfl
@[simp] theorem State.setByte_perFn (s : State) (a : Nat) (v : BitVec 8) : (s.setByte a v).perFn = s.perFn := rfl
@[simp] theorem State.setByte_cycRegs (s : State) (a : Nat) (v : BitVec 8) : (s.setByte a v).cycRegs = s.cycRegs := rfl
@[simp] theorem State.setByte_cycWrote (s : State) (a : Nat) (v : BitVec 8) : (s.setByte a v).cycWrote = s.cycWrote := rfl
@[simp] theorem State.setByte_cycSet (s : State) (a : Nat) (v : BitVec 8) : (s.setByte a v).cycSet = s.cycSet := rfl
@[simp] theorem State.setByte_cycMem (s : State) (a : Nat) (v : BitVec 8) : (s.setByte a v).cycMem = s.cycMem := rfl
@[simp] theorem State.setByte_past (s : State) (a : Nat) (v : BitVec 8) : (s.setByte a v).past = s.past := rfl
@[simp] theorem State.setByte_ecc (s : State) (a : Nat) (v : BitVec 8) : (s.setByte a v).ecc = s.ecc := rfl
@[simp] theorem State.setByte_imgVals (s : State) (a : Nat) (v : BitVec 8) : (s.setByte a v).imgVals = s.imgVals := rfl
@[simp] theorem State.setByte_blocks (s : State) (a : Nat) (v : BitVec 8) : (s.setByte a v).blocks = s.blocks := rfl
@[simp] theorem State.setByte_units (s : State) (a : Nat) (v : BitVec 8) : (s.setByte a v).units = s.units := rfl
@[simp] theorem State.setByte_clusters (s : State) (a : Nat) (v : BitVec 8) : (s.setByte a v).clusters = s.clusters := rfl
@[simp] theorem State.setByte_regions (s : State) (a : Nat) (v : BitVec 8) : (s.setByte a v).regions = s.regions := rfl
@[simp] theorem State.setByte_dies (s : State) (a : Nat) (v : BitVec 8) : (s.setByte a v).dies = s.dies := rfl
@[simp] theorem State.setByte_hub (s : State) (a : Nat) (v : BitVec 8) : (s.setByte a v).hub = s.hub := rfl
@[simp] theorem State.setByte_nvm (s : State) (a : Nat) (v : BitVec 8) : (s.setByte a v).nvm = s.nvm := rfl
@[simp] theorem State.setByte_out (s : State) (a : Nat) (v : BitVec 8) : (s.setByte a v).out = s.out := rfl
@[simp] theorem State.setByte_freeCtr (s : State) (a : Nat) (v : BitVec 8) : (s.setByte a v).freeCtr = s.freeCtr := rfl
@[simp] theorem State.setByte_pending (s : State) (a : Nat) (v : BitVec 8) : (s.setByte a v).pending = s.pending := rfl

@[simp] theorem State.setUnit_now (s : State) (p : Nat) (u : UnitState) : (s.setUnit p u).now = s.now := rfl
@[simp] theorem State.setUnit_regs (s : State) (p : Nat) (u : UnitState) : (s.setUnit p u).regs = s.regs := rfl
@[simp] theorem State.setUnit_perFn (s : State) (p : Nat) (u : UnitState) : (s.setUnit p u).perFn = s.perFn := rfl
@[simp] theorem State.setUnit_cycRegs (s : State) (p : Nat) (u : UnitState) : (s.setUnit p u).cycRegs = s.cycRegs := rfl
@[simp] theorem State.setUnit_cycWrote (s : State) (p : Nat) (u : UnitState) : (s.setUnit p u).cycWrote = s.cycWrote := rfl
@[simp] theorem State.setUnit_cycSet (s : State) (p : Nat) (u : UnitState) : (s.setUnit p u).cycSet = s.cycSet := rfl
@[simp] theorem State.setUnit_cycMem (s : State) (p : Nat) (u : UnitState) : (s.setUnit p u).cycMem = s.cycMem := rfl
@[simp] theorem State.setUnit_past (s : State) (p : Nat) (u : UnitState) : (s.setUnit p u).past = s.past := rfl
@[simp] theorem State.setUnit_mem (s : State) (p : Nat) (u : UnitState) : (s.setUnit p u).mem = s.mem := rfl
@[simp] theorem State.setUnit_ecc (s : State) (p : Nat) (u : UnitState) : (s.setUnit p u).ecc = s.ecc := rfl
@[simp] theorem State.setUnit_imgVals (s : State) (p : Nat) (u : UnitState) : (s.setUnit p u).imgVals = s.imgVals := rfl
@[simp] theorem State.setUnit_blocks (s : State) (p : Nat) (u : UnitState) : (s.setUnit p u).blocks = s.blocks := rfl
@[simp] theorem State.setUnit_clusters (s : State) (p : Nat) (u : UnitState) : (s.setUnit p u).clusters = s.clusters := rfl
@[simp] theorem State.setUnit_regions (s : State) (p : Nat) (u : UnitState) : (s.setUnit p u).regions = s.regions := rfl
@[simp] theorem State.setUnit_dies (s : State) (p : Nat) (u : UnitState) : (s.setUnit p u).dies = s.dies := rfl
@[simp] theorem State.setUnit_hub (s : State) (p : Nat) (u : UnitState) : (s.setUnit p u).hub = s.hub := rfl
@[simp] theorem State.setUnit_nvm (s : State) (p : Nat) (u : UnitState) : (s.setUnit p u).nvm = s.nvm := rfl
@[simp] theorem State.setUnit_out (s : State) (p : Nat) (u : UnitState) : (s.setUnit p u).out = s.out := rfl
@[simp] theorem State.setUnit_freeCtr (s : State) (p : Nat) (u : UnitState) : (s.setUnit p u).freeCtr = s.freeCtr := rfl
@[simp] theorem State.setUnit_pending (s : State) (p : Nat) (u : UnitState) : (s.setUnit p u).pending = s.pending := rfl

@[simp] theorem State.modUnit_now (s : State) (p : Nat) (g : UnitState → UnitState) : (s.modUnit p g).now = s.now := rfl
@[simp] theorem State.modUnit_regs (s : State) (p : Nat) (g : UnitState → UnitState) : (s.modUnit p g).regs = s.regs := rfl
@[simp] theorem State.modUnit_perFn (s : State) (p : Nat) (g : UnitState → UnitState) : (s.modUnit p g).perFn = s.perFn := rfl
@[simp] theorem State.modUnit_cycRegs (s : State) (p : Nat) (g : UnitState → UnitState) : (s.modUnit p g).cycRegs = s.cycRegs := rfl
@[simp] theorem State.modUnit_cycWrote (s : State) (p : Nat) (g : UnitState → UnitState) : (s.modUnit p g).cycWrote = s.cycWrote := rfl
@[simp] theorem State.modUnit_cycSet (s : State) (p : Nat) (g : UnitState → UnitState) : (s.modUnit p g).cycSet = s.cycSet := rfl
@[simp] theorem State.modUnit_cycMem (s : State) (p : Nat) (g : UnitState → UnitState) : (s.modUnit p g).cycMem = s.cycMem := rfl
@[simp] theorem State.modUnit_past (s : State) (p : Nat) (g : UnitState → UnitState) : (s.modUnit p g).past = s.past := rfl
@[simp] theorem State.modUnit_mem (s : State) (p : Nat) (g : UnitState → UnitState) : (s.modUnit p g).mem = s.mem := rfl
@[simp] theorem State.modUnit_ecc (s : State) (p : Nat) (g : UnitState → UnitState) : (s.modUnit p g).ecc = s.ecc := rfl
@[simp] theorem State.modUnit_imgVals (s : State) (p : Nat) (g : UnitState → UnitState) : (s.modUnit p g).imgVals = s.imgVals := rfl
@[simp] theorem State.modUnit_blocks (s : State) (p : Nat) (g : UnitState → UnitState) : (s.modUnit p g).blocks = s.blocks := rfl
@[simp] theorem State.modUnit_clusters (s : State) (p : Nat) (g : UnitState → UnitState) : (s.modUnit p g).clusters = s.clusters := rfl
@[simp] theorem State.modUnit_regions (s : State) (p : Nat) (g : UnitState → UnitState) : (s.modUnit p g).regions = s.regions := rfl
@[simp] theorem State.modUnit_dies (s : State) (p : Nat) (g : UnitState → UnitState) : (s.modUnit p g).dies = s.dies := rfl
@[simp] theorem State.modUnit_hub (s : State) (p : Nat) (g : UnitState → UnitState) : (s.modUnit p g).hub = s.hub := rfl
@[simp] theorem State.modUnit_nvm (s : State) (p : Nat) (g : UnitState → UnitState) : (s.modUnit p g).nvm = s.nvm := rfl
@[simp] theorem State.modUnit_out (s : State) (p : Nat) (g : UnitState → UnitState) : (s.modUnit p g).out = s.out := rfl
@[simp] theorem State.modUnit_freeCtr (s : State) (p : Nat) (g : UnitState → UnitState) : (s.modUnit p g).freeCtr = s.freeCtr := rfl
@[simp] theorem State.modUnit_pending (s : State) (p : Nat) (g : UnitState → UnitState) : (s.modUnit p g).pending = s.pending := rfl

@[simp] theorem State.modCluster_now (s : State) (k : Nat) (g : ClusterState → ClusterState) : (s.modCluster k g).now = s.now := rfl
@[simp] theorem State.modCluster_regs (s : State) (k : Nat) (g : ClusterState → ClusterState) : (s.modCluster k g).regs = s.regs := rfl
@[simp] theorem State.modCluster_perFn (s : State) (k : Nat) (g : ClusterState → ClusterState) : (s.modCluster k g).perFn = s.perFn := rfl
@[simp] theorem State.modCluster_cycRegs (s : State) (k : Nat) (g : ClusterState → ClusterState) : (s.modCluster k g).cycRegs = s.cycRegs := rfl
@[simp] theorem State.modCluster_cycWrote (s : State) (k : Nat) (g : ClusterState → ClusterState) : (s.modCluster k g).cycWrote = s.cycWrote := rfl
@[simp] theorem State.modCluster_cycSet (s : State) (k : Nat) (g : ClusterState → ClusterState) : (s.modCluster k g).cycSet = s.cycSet := rfl
@[simp] theorem State.modCluster_cycMem (s : State) (k : Nat) (g : ClusterState → ClusterState) : (s.modCluster k g).cycMem = s.cycMem := rfl
@[simp] theorem State.modCluster_past (s : State) (k : Nat) (g : ClusterState → ClusterState) : (s.modCluster k g).past = s.past := rfl
@[simp] theorem State.modCluster_mem (s : State) (k : Nat) (g : ClusterState → ClusterState) : (s.modCluster k g).mem = s.mem := rfl
@[simp] theorem State.modCluster_ecc (s : State) (k : Nat) (g : ClusterState → ClusterState) : (s.modCluster k g).ecc = s.ecc := rfl
@[simp] theorem State.modCluster_imgVals (s : State) (k : Nat) (g : ClusterState → ClusterState) : (s.modCluster k g).imgVals = s.imgVals := rfl
@[simp] theorem State.modCluster_blocks (s : State) (k : Nat) (g : ClusterState → ClusterState) : (s.modCluster k g).blocks = s.blocks := rfl
@[simp] theorem State.modCluster_units (s : State) (k : Nat) (g : ClusterState → ClusterState) : (s.modCluster k g).units = s.units := rfl
@[simp] theorem State.modCluster_regions (s : State) (k : Nat) (g : ClusterState → ClusterState) : (s.modCluster k g).regions = s.regions := rfl
@[simp] theorem State.modCluster_dies (s : State) (k : Nat) (g : ClusterState → ClusterState) : (s.modCluster k g).dies = s.dies := rfl
@[simp] theorem State.modCluster_hub (s : State) (k : Nat) (g : ClusterState → ClusterState) : (s.modCluster k g).hub = s.hub := rfl
@[simp] theorem State.modCluster_nvm (s : State) (k : Nat) (g : ClusterState → ClusterState) : (s.modCluster k g).nvm = s.nvm := rfl
@[simp] theorem State.modCluster_out (s : State) (k : Nat) (g : ClusterState → ClusterState) : (s.modCluster k g).out = s.out := rfl
@[simp] theorem State.modCluster_freeCtr (s : State) (k : Nat) (g : ClusterState → ClusterState) : (s.modCluster k g).freeCtr = s.freeCtr := rfl
@[simp] theorem State.modCluster_pending (s : State) (k : Nat) (g : ClusterState → ClusterState) : (s.modCluster k g).pending = s.pending := rfl

@[simp] theorem State.modRegion_now (s : State) (t : Nat) (g : RegionState → RegionState) : (s.modRegion t g).now = s.now := rfl
@[simp] theorem State.modRegion_regs (s : State) (t : Nat) (g : RegionState → RegionState) : (s.modRegion t g).regs = s.regs := rfl
@[simp] theorem State.modRegion_perFn (s : State) (t : Nat) (g : RegionState → RegionState) : (s.modRegion t g).perFn = s.perFn := rfl
@[simp] theorem State.modRegion_cycRegs (s : State) (t : Nat) (g : RegionState → RegionState) : (s.modRegion t g).cycRegs = s.cycRegs := rfl
@[simp] theorem State.modRegion_cycWrote (s : State) (t : Nat) (g : RegionState → RegionState) : (s.modRegion t g).cycWrote = s.cycWrote := rfl
@[simp] theorem State.modRegion_cycSet (s : State) (t : Nat) (g : RegionState → RegionState) : (s.modRegion t g).cycSet = s.cycSet := rfl
@[simp] theorem State.modRegion_cycMem (s : State) (t : Nat) (g : RegionState → RegionState) : (s.modRegion t g).cycMem = s.cycMem := rfl
@[simp] theorem State.modRegion_past (s : State) (t : Nat) (g : RegionState → RegionState) : (s.modRegion t g).past = s.past := rfl
@[simp] theorem State.modRegion_mem (s : State) (t : Nat) (g : RegionState → RegionState) : (s.modRegion t g).mem = s.mem := rfl
@[simp] theorem State.modRegion_ecc (s : State) (t : Nat) (g : RegionState → RegionState) : (s.modRegion t g).ecc = s.ecc := rfl
@[simp] theorem State.modRegion_imgVals (s : State) (t : Nat) (g : RegionState → RegionState) : (s.modRegion t g).imgVals = s.imgVals := rfl
@[simp] theorem State.modRegion_blocks (s : State) (t : Nat) (g : RegionState → RegionState) : (s.modRegion t g).blocks = s.blocks := rfl
@[simp] theorem State.modRegion_units (s : State) (t : Nat) (g : RegionState → RegionState) : (s.modRegion t g).units = s.units := rfl
@[simp] theorem State.modRegion_clusters (s : State) (t : Nat) (g : RegionState → RegionState) : (s.modRegion t g).clusters = s.clusters := rfl
@[simp] theorem State.modRegion_dies (s : State) (t : Nat) (g : RegionState → RegionState) : (s.modRegion t g).dies = s.dies := rfl
@[simp] theorem State.modRegion_hub (s : State) (t : Nat) (g : RegionState → RegionState) : (s.modRegion t g).hub = s.hub := rfl
@[simp] theorem State.modRegion_nvm (s : State) (t : Nat) (g : RegionState → RegionState) : (s.modRegion t g).nvm = s.nvm := rfl
@[simp] theorem State.modRegion_out (s : State) (t : Nat) (g : RegionState → RegionState) : (s.modRegion t g).out = s.out := rfl
@[simp] theorem State.modRegion_freeCtr (s : State) (t : Nat) (g : RegionState → RegionState) : (s.modRegion t g).freeCtr = s.freeCtr := rfl
@[simp] theorem State.modRegion_pending (s : State) (t : Nat) (g : RegionState → RegionState) : (s.modRegion t g).pending = s.pending := rfl

@[simp] theorem State.modPlayer_now (s : State) (t : Nat) (g : PlayerState → PlayerState) : (s.modPlayer t g).now = s.now := rfl
@[simp] theorem State.modPlayer_regs (s : State) (t : Nat) (g : PlayerState → PlayerState) : (s.modPlayer t g).regs = s.regs := rfl
@[simp] theorem State.modPlayer_perFn (s : State) (t : Nat) (g : PlayerState → PlayerState) : (s.modPlayer t g).perFn = s.perFn := rfl
@[simp] theorem State.modPlayer_cycRegs (s : State) (t : Nat) (g : PlayerState → PlayerState) : (s.modPlayer t g).cycRegs = s.cycRegs := rfl
@[simp] theorem State.modPlayer_cycWrote (s : State) (t : Nat) (g : PlayerState → PlayerState) : (s.modPlayer t g).cycWrote = s.cycWrote := rfl
@[simp] theorem State.modPlayer_cycSet (s : State) (t : Nat) (g : PlayerState → PlayerState) : (s.modPlayer t g).cycSet = s.cycSet := rfl
@[simp] theorem State.modPlayer_cycMem (s : State) (t : Nat) (g : PlayerState → PlayerState) : (s.modPlayer t g).cycMem = s.cycMem := rfl
@[simp] theorem State.modPlayer_past (s : State) (t : Nat) (g : PlayerState → PlayerState) : (s.modPlayer t g).past = s.past := rfl
@[simp] theorem State.modPlayer_mem (s : State) (t : Nat) (g : PlayerState → PlayerState) : (s.modPlayer t g).mem = s.mem := rfl
@[simp] theorem State.modPlayer_ecc (s : State) (t : Nat) (g : PlayerState → PlayerState) : (s.modPlayer t g).ecc = s.ecc := rfl
@[simp] theorem State.modPlayer_imgVals (s : State) (t : Nat) (g : PlayerState → PlayerState) : (s.modPlayer t g).imgVals = s.imgVals := rfl
@[simp] theorem State.modPlayer_blocks (s : State) (t : Nat) (g : PlayerState → PlayerState) : (s.modPlayer t g).blocks = s.blocks := rfl
@[simp] theorem State.modPlayer_units (s : State) (t : Nat) (g : PlayerState → PlayerState) : (s.modPlayer t g).units = s.units := rfl
@[simp] theorem State.modPlayer_clusters (s : State) (t : Nat) (g : PlayerState → PlayerState) : (s.modPlayer t g).clusters = s.clusters := rfl
@[simp] theorem State.modPlayer_dies (s : State) (t : Nat) (g : PlayerState → PlayerState) : (s.modPlayer t g).dies = s.dies := rfl
@[simp] theorem State.modPlayer_hub (s : State) (t : Nat) (g : PlayerState → PlayerState) : (s.modPlayer t g).hub = s.hub := rfl
@[simp] theorem State.modPlayer_nvm (s : State) (t : Nat) (g : PlayerState → PlayerState) : (s.modPlayer t g).nvm = s.nvm := rfl
@[simp] theorem State.modPlayer_out (s : State) (t : Nat) (g : PlayerState → PlayerState) : (s.modPlayer t g).out = s.out := rfl
@[simp] theorem State.modPlayer_freeCtr (s : State) (t : Nat) (g : PlayerState → PlayerState) : (s.modPlayer t g).freeCtr = s.freeCtr := rfl
@[simp] theorem State.modPlayer_pending (s : State) (t : Nat) (g : PlayerState → PlayerState) : (s.modPlayer t g).pending = s.pending := rfl

@[simp] theorem State.modSeq_now (s : State) (t : Nat) (g : SeqState → SeqState) : (s.modSeq t g).now = s.now := rfl
@[simp] theorem State.modSeq_regs (s : State) (t : Nat) (g : SeqState → SeqState) : (s.modSeq t g).regs = s.regs := rfl
@[simp] theorem State.modSeq_perFn (s : State) (t : Nat) (g : SeqState → SeqState) : (s.modSeq t g).perFn = s.perFn := rfl
@[simp] theorem State.modSeq_cycRegs (s : State) (t : Nat) (g : SeqState → SeqState) : (s.modSeq t g).cycRegs = s.cycRegs := rfl
@[simp] theorem State.modSeq_cycWrote (s : State) (t : Nat) (g : SeqState → SeqState) : (s.modSeq t g).cycWrote = s.cycWrote := rfl
@[simp] theorem State.modSeq_cycSet (s : State) (t : Nat) (g : SeqState → SeqState) : (s.modSeq t g).cycSet = s.cycSet := rfl
@[simp] theorem State.modSeq_cycMem (s : State) (t : Nat) (g : SeqState → SeqState) : (s.modSeq t g).cycMem = s.cycMem := rfl
@[simp] theorem State.modSeq_past (s : State) (t : Nat) (g : SeqState → SeqState) : (s.modSeq t g).past = s.past := rfl
@[simp] theorem State.modSeq_mem (s : State) (t : Nat) (g : SeqState → SeqState) : (s.modSeq t g).mem = s.mem := rfl
@[simp] theorem State.modSeq_ecc (s : State) (t : Nat) (g : SeqState → SeqState) : (s.modSeq t g).ecc = s.ecc := rfl
@[simp] theorem State.modSeq_imgVals (s : State) (t : Nat) (g : SeqState → SeqState) : (s.modSeq t g).imgVals = s.imgVals := rfl
@[simp] theorem State.modSeq_blocks (s : State) (t : Nat) (g : SeqState → SeqState) : (s.modSeq t g).blocks = s.blocks := rfl
@[simp] theorem State.modSeq_units (s : State) (t : Nat) (g : SeqState → SeqState) : (s.modSeq t g).units = s.units := rfl
@[simp] theorem State.modSeq_clusters (s : State) (t : Nat) (g : SeqState → SeqState) : (s.modSeq t g).clusters = s.clusters := rfl
@[simp] theorem State.modSeq_dies (s : State) (t : Nat) (g : SeqState → SeqState) : (s.modSeq t g).dies = s.dies := rfl
@[simp] theorem State.modSeq_hub (s : State) (t : Nat) (g : SeqState → SeqState) : (s.modSeq t g).hub = s.hub := rfl
@[simp] theorem State.modSeq_nvm (s : State) (t : Nat) (g : SeqState → SeqState) : (s.modSeq t g).nvm = s.nvm := rfl
@[simp] theorem State.modSeq_out (s : State) (t : Nat) (g : SeqState → SeqState) : (s.modSeq t g).out = s.out := rfl
@[simp] theorem State.modSeq_freeCtr (s : State) (t : Nat) (g : SeqState → SeqState) : (s.modSeq t g).freeCtr = s.freeCtr := rfl
@[simp] theorem State.modSeq_pending (s : State) (t : Nat) (g : SeqState → SeqState) : (s.modSeq t g).pending = s.pending := rfl

@[simp] theorem State.modDie_now (s : State) (d : Nat) (g : DieState → DieState) : (s.modDie d g).now = s.now := rfl
@[simp] theorem State.modDie_regs (s : State) (d : Nat) (g : DieState → DieState) : (s.modDie d g).regs = s.regs := rfl
@[simp] theorem State.modDie_perFn (s : State) (d : Nat) (g : DieState → DieState) : (s.modDie d g).perFn = s.perFn := rfl
@[simp] theorem State.modDie_cycRegs (s : State) (d : Nat) (g : DieState → DieState) : (s.modDie d g).cycRegs = s.cycRegs := rfl
@[simp] theorem State.modDie_cycWrote (s : State) (d : Nat) (g : DieState → DieState) : (s.modDie d g).cycWrote = s.cycWrote := rfl
@[simp] theorem State.modDie_cycSet (s : State) (d : Nat) (g : DieState → DieState) : (s.modDie d g).cycSet = s.cycSet := rfl
@[simp] theorem State.modDie_cycMem (s : State) (d : Nat) (g : DieState → DieState) : (s.modDie d g).cycMem = s.cycMem := rfl
@[simp] theorem State.modDie_past (s : State) (d : Nat) (g : DieState → DieState) : (s.modDie d g).past = s.past := rfl
@[simp] theorem State.modDie_mem (s : State) (d : Nat) (g : DieState → DieState) : (s.modDie d g).mem = s.mem := rfl
@[simp] theorem State.modDie_ecc (s : State) (d : Nat) (g : DieState → DieState) : (s.modDie d g).ecc = s.ecc := rfl
@[simp] theorem State.modDie_imgVals (s : State) (d : Nat) (g : DieState → DieState) : (s.modDie d g).imgVals = s.imgVals := rfl
@[simp] theorem State.modDie_blocks (s : State) (d : Nat) (g : DieState → DieState) : (s.modDie d g).blocks = s.blocks := rfl
@[simp] theorem State.modDie_units (s : State) (d : Nat) (g : DieState → DieState) : (s.modDie d g).units = s.units := rfl
@[simp] theorem State.modDie_clusters (s : State) (d : Nat) (g : DieState → DieState) : (s.modDie d g).clusters = s.clusters := rfl
@[simp] theorem State.modDie_regions (s : State) (d : Nat) (g : DieState → DieState) : (s.modDie d g).regions = s.regions := rfl
@[simp] theorem State.modDie_hub (s : State) (d : Nat) (g : DieState → DieState) : (s.modDie d g).hub = s.hub := rfl
@[simp] theorem State.modDie_nvm (s : State) (d : Nat) (g : DieState → DieState) : (s.modDie d g).nvm = s.nvm := rfl
@[simp] theorem State.modDie_out (s : State) (d : Nat) (g : DieState → DieState) : (s.modDie d g).out = s.out := rfl
@[simp] theorem State.modDie_freeCtr (s : State) (d : Nat) (g : DieState → DieState) : (s.modDie d g).freeCtr = s.freeCtr := rfl
@[simp] theorem State.modDie_pending (s : State) (d : Nat) (g : DieState → DieState) : (s.modDie d g).pending = s.pending := rfl

@[simp] theorem State.modHub_now (s : State) (g : HubState → HubState) : (s.modHub g).now = s.now := rfl
@[simp] theorem State.modHub_regs (s : State) (g : HubState → HubState) : (s.modHub g).regs = s.regs := rfl
@[simp] theorem State.modHub_perFn (s : State) (g : HubState → HubState) : (s.modHub g).perFn = s.perFn := rfl
@[simp] theorem State.modHub_cycRegs (s : State) (g : HubState → HubState) : (s.modHub g).cycRegs = s.cycRegs := rfl
@[simp] theorem State.modHub_cycWrote (s : State) (g : HubState → HubState) : (s.modHub g).cycWrote = s.cycWrote := rfl
@[simp] theorem State.modHub_cycSet (s : State) (g : HubState → HubState) : (s.modHub g).cycSet = s.cycSet := rfl
@[simp] theorem State.modHub_cycMem (s : State) (g : HubState → HubState) : (s.modHub g).cycMem = s.cycMem := rfl
@[simp] theorem State.modHub_past (s : State) (g : HubState → HubState) : (s.modHub g).past = s.past := rfl
@[simp] theorem State.modHub_mem (s : State) (g : HubState → HubState) : (s.modHub g).mem = s.mem := rfl
@[simp] theorem State.modHub_ecc (s : State) (g : HubState → HubState) : (s.modHub g).ecc = s.ecc := rfl
@[simp] theorem State.modHub_imgVals (s : State) (g : HubState → HubState) : (s.modHub g).imgVals = s.imgVals := rfl
@[simp] theorem State.modHub_blocks (s : State) (g : HubState → HubState) : (s.modHub g).blocks = s.blocks := rfl
@[simp] theorem State.modHub_units (s : State) (g : HubState → HubState) : (s.modHub g).units = s.units := rfl
@[simp] theorem State.modHub_clusters (s : State) (g : HubState → HubState) : (s.modHub g).clusters = s.clusters := rfl
@[simp] theorem State.modHub_regions (s : State) (g : HubState → HubState) : (s.modHub g).regions = s.regions := rfl
@[simp] theorem State.modHub_dies (s : State) (g : HubState → HubState) : (s.modHub g).dies = s.dies := rfl
@[simp] theorem State.modHub_nvm (s : State) (g : HubState → HubState) : (s.modHub g).nvm = s.nvm := rfl
@[simp] theorem State.modHub_out (s : State) (g : HubState → HubState) : (s.modHub g).out = s.out := rfl
@[simp] theorem State.modHub_freeCtr (s : State) (g : HubState → HubState) : (s.modHub g).freeCtr = s.freeCtr := rfl
@[simp] theorem State.modHub_pending (s : State) (g : HubState → HubState) : (s.modHub g).pending = s.pending := rfl

@[simp] theorem State.modClk_now (s : State) (g : ClockState → ClockState) : (s.modClk g).now = s.now := rfl
@[simp] theorem State.modClk_regs (s : State) (g : ClockState → ClockState) : (s.modClk g).regs = s.regs := rfl
@[simp] theorem State.modClk_perFn (s : State) (g : ClockState → ClockState) : (s.modClk g).perFn = s.perFn := rfl
@[simp] theorem State.modClk_cycRegs (s : State) (g : ClockState → ClockState) : (s.modClk g).cycRegs = s.cycRegs := rfl
@[simp] theorem State.modClk_cycWrote (s : State) (g : ClockState → ClockState) : (s.modClk g).cycWrote = s.cycWrote := rfl
@[simp] theorem State.modClk_cycSet (s : State) (g : ClockState → ClockState) : (s.modClk g).cycSet = s.cycSet := rfl
@[simp] theorem State.modClk_cycMem (s : State) (g : ClockState → ClockState) : (s.modClk g).cycMem = s.cycMem := rfl
@[simp] theorem State.modClk_past (s : State) (g : ClockState → ClockState) : (s.modClk g).past = s.past := rfl
@[simp] theorem State.modClk_mem (s : State) (g : ClockState → ClockState) : (s.modClk g).mem = s.mem := rfl
@[simp] theorem State.modClk_ecc (s : State) (g : ClockState → ClockState) : (s.modClk g).ecc = s.ecc := rfl
@[simp] theorem State.modClk_imgVals (s : State) (g : ClockState → ClockState) : (s.modClk g).imgVals = s.imgVals := rfl
@[simp] theorem State.modClk_blocks (s : State) (g : ClockState → ClockState) : (s.modClk g).blocks = s.blocks := rfl
@[simp] theorem State.modClk_units (s : State) (g : ClockState → ClockState) : (s.modClk g).units = s.units := rfl
@[simp] theorem State.modClk_clusters (s : State) (g : ClockState → ClockState) : (s.modClk g).clusters = s.clusters := rfl
@[simp] theorem State.modClk_regions (s : State) (g : ClockState → ClockState) : (s.modClk g).regions = s.regions := rfl
@[simp] theorem State.modClk_dies (s : State) (g : ClockState → ClockState) : (s.modClk g).dies = s.dies := rfl
@[simp] theorem State.modClk_nvm (s : State) (g : ClockState → ClockState) : (s.modClk g).nvm = s.nvm := rfl
@[simp] theorem State.modClk_out (s : State) (g : ClockState → ClockState) : (s.modClk g).out = s.out := rfl
@[simp] theorem State.modClk_freeCtr (s : State) (g : ClockState → ClockState) : (s.modClk g).freeCtr = s.freeCtr := rfl
@[simp] theorem State.modClk_pending (s : State) (g : ClockState → ClockState) : (s.modClk g).pending = s.pending := rfl

@[simp] theorem State.modOut_now (s : State) (g : Outputs → Outputs) : (s.modOut g).now = s.now := rfl
@[simp] theorem State.modOut_regs (s : State) (g : Outputs → Outputs) : (s.modOut g).regs = s.regs := rfl
@[simp] theorem State.modOut_perFn (s : State) (g : Outputs → Outputs) : (s.modOut g).perFn = s.perFn := rfl
@[simp] theorem State.modOut_cycRegs (s : State) (g : Outputs → Outputs) : (s.modOut g).cycRegs = s.cycRegs := rfl
@[simp] theorem State.modOut_cycWrote (s : State) (g : Outputs → Outputs) : (s.modOut g).cycWrote = s.cycWrote := rfl
@[simp] theorem State.modOut_cycSet (s : State) (g : Outputs → Outputs) : (s.modOut g).cycSet = s.cycSet := rfl
@[simp] theorem State.modOut_cycMem (s : State) (g : Outputs → Outputs) : (s.modOut g).cycMem = s.cycMem := rfl
@[simp] theorem State.modOut_past (s : State) (g : Outputs → Outputs) : (s.modOut g).past = s.past := rfl
@[simp] theorem State.modOut_mem (s : State) (g : Outputs → Outputs) : (s.modOut g).mem = s.mem := rfl
@[simp] theorem State.modOut_ecc (s : State) (g : Outputs → Outputs) : (s.modOut g).ecc = s.ecc := rfl
@[simp] theorem State.modOut_imgVals (s : State) (g : Outputs → Outputs) : (s.modOut g).imgVals = s.imgVals := rfl
@[simp] theorem State.modOut_blocks (s : State) (g : Outputs → Outputs) : (s.modOut g).blocks = s.blocks := rfl
@[simp] theorem State.modOut_units (s : State) (g : Outputs → Outputs) : (s.modOut g).units = s.units := rfl
@[simp] theorem State.modOut_clusters (s : State) (g : Outputs → Outputs) : (s.modOut g).clusters = s.clusters := rfl
@[simp] theorem State.modOut_regions (s : State) (g : Outputs → Outputs) : (s.modOut g).regions = s.regions := rfl
@[simp] theorem State.modOut_dies (s : State) (g : Outputs → Outputs) : (s.modOut g).dies = s.dies := rfl
@[simp] theorem State.modOut_hub (s : State) (g : Outputs → Outputs) : (s.modOut g).hub = s.hub := rfl
@[simp] theorem State.modOut_nvm (s : State) (g : Outputs → Outputs) : (s.modOut g).nvm = s.nvm := rfl
@[simp] theorem State.modOut_freeCtr (s : State) (g : Outputs → Outputs) : (s.modOut g).freeCtr = s.freeCtr := rfl
@[simp] theorem State.modOut_pending (s : State) (g : Outputs → Outputs) : (s.modOut g).pending = s.pending := rfl

@[simp] theorem State.modNvm_now (s : State) (g : NvmState → NvmState) : (s.modNvm g).now = s.now := rfl
@[simp] theorem State.modNvm_regs (s : State) (g : NvmState → NvmState) : (s.modNvm g).regs = s.regs := rfl
@[simp] theorem State.modNvm_perFn (s : State) (g : NvmState → NvmState) : (s.modNvm g).perFn = s.perFn := rfl
@[simp] theorem State.modNvm_cycRegs (s : State) (g : NvmState → NvmState) : (s.modNvm g).cycRegs = s.cycRegs := rfl
@[simp] theorem State.modNvm_cycWrote (s : State) (g : NvmState → NvmState) : (s.modNvm g).cycWrote = s.cycWrote := rfl
@[simp] theorem State.modNvm_cycSet (s : State) (g : NvmState → NvmState) : (s.modNvm g).cycSet = s.cycSet := rfl
@[simp] theorem State.modNvm_cycMem (s : State) (g : NvmState → NvmState) : (s.modNvm g).cycMem = s.cycMem := rfl
@[simp] theorem State.modNvm_past (s : State) (g : NvmState → NvmState) : (s.modNvm g).past = s.past := rfl
@[simp] theorem State.modNvm_mem (s : State) (g : NvmState → NvmState) : (s.modNvm g).mem = s.mem := rfl
@[simp] theorem State.modNvm_ecc (s : State) (g : NvmState → NvmState) : (s.modNvm g).ecc = s.ecc := rfl
@[simp] theorem State.modNvm_imgVals (s : State) (g : NvmState → NvmState) : (s.modNvm g).imgVals = s.imgVals := rfl
@[simp] theorem State.modNvm_blocks (s : State) (g : NvmState → NvmState) : (s.modNvm g).blocks = s.blocks := rfl
@[simp] theorem State.modNvm_units (s : State) (g : NvmState → NvmState) : (s.modNvm g).units = s.units := rfl
@[simp] theorem State.modNvm_clusters (s : State) (g : NvmState → NvmState) : (s.modNvm g).clusters = s.clusters := rfl
@[simp] theorem State.modNvm_regions (s : State) (g : NvmState → NvmState) : (s.modNvm g).regions = s.regions := rfl
@[simp] theorem State.modNvm_dies (s : State) (g : NvmState → NvmState) : (s.modNvm g).dies = s.dies := rfl
@[simp] theorem State.modNvm_hub (s : State) (g : NvmState → NvmState) : (s.modNvm g).hub = s.hub := rfl
@[simp] theorem State.modNvm_out (s : State) (g : NvmState → NvmState) : (s.modNvm g).out = s.out := rfl
@[simp] theorem State.modNvm_freeCtr (s : State) (g : NvmState → NvmState) : (s.modNvm g).freeCtr = s.freeCtr := rfl
@[simp] theorem State.modNvm_pending (s : State) (g : NvmState → NvmState) : (s.modNvm g).pending = s.pending := rfl

@[simp] theorem State.journal_now (s : State) (r : JRec) : (s.journal r).now = s.now := rfl
@[simp] theorem State.journal_regs (s : State) (r : JRec) : (s.journal r).regs = s.regs := rfl
@[simp] theorem State.journal_perFn (s : State) (r : JRec) : (s.journal r).perFn = s.perFn := rfl
@[simp] theorem State.journal_cycRegs (s : State) (r : JRec) : (s.journal r).cycRegs = s.cycRegs := rfl
@[simp] theorem State.journal_cycWrote (s : State) (r : JRec) : (s.journal r).cycWrote = s.cycWrote := rfl
@[simp] theorem State.journal_cycSet (s : State) (r : JRec) : (s.journal r).cycSet = s.cycSet := rfl
@[simp] theorem State.journal_cycMem (s : State) (r : JRec) : (s.journal r).cycMem = s.cycMem := rfl
@[simp] theorem State.journal_past (s : State) (r : JRec) : (s.journal r).past = s.past := rfl
@[simp] theorem State.journal_mem (s : State) (r : JRec) : (s.journal r).mem = s.mem := rfl
@[simp] theorem State.journal_ecc (s : State) (r : JRec) : (s.journal r).ecc = s.ecc := rfl
@[simp] theorem State.journal_imgVals (s : State) (r : JRec) : (s.journal r).imgVals = s.imgVals := rfl
@[simp] theorem State.journal_blocks (s : State) (r : JRec) : (s.journal r).blocks = s.blocks := rfl
@[simp] theorem State.journal_units (s : State) (r : JRec) : (s.journal r).units = s.units := rfl
@[simp] theorem State.journal_clusters (s : State) (r : JRec) : (s.journal r).clusters = s.clusters := rfl
@[simp] theorem State.journal_regions (s : State) (r : JRec) : (s.journal r).regions = s.regions := rfl
@[simp] theorem State.journal_dies (s : State) (r : JRec) : (s.journal r).dies = s.dies := rfl
@[simp] theorem State.journal_hub (s : State) (r : JRec) : (s.journal r).hub = s.hub := rfl
@[simp] theorem State.journal_out (s : State) (r : JRec) : (s.journal r).out = s.out := rfl
@[simp] theorem State.journal_freeCtr (s : State) (r : JRec) : (s.journal r).freeCtr = s.freeCtr := rfl
@[simp] theorem State.journal_pending (s : State) (r : JRec) : (s.journal r).pending = s.pending := rfl

@[simp] theorem State.latch_now (s : State) (f a : Nat) (v : Word) : (s.latch f a v).now = s.now := rfl
@[simp] theorem State.latch_regs (s : State) (f a : Nat) (v : Word) : (s.latch f a v).regs = s.regs := rfl
@[simp] theorem State.latch_cycRegs (s : State) (f a : Nat) (v : Word) : (s.latch f a v).cycRegs = s.cycRegs := rfl
@[simp] theorem State.latch_cycWrote (s : State) (f a : Nat) (v : Word) : (s.latch f a v).cycWrote = s.cycWrote := rfl
@[simp] theorem State.latch_cycSet (s : State) (f a : Nat) (v : Word) : (s.latch f a v).cycSet = s.cycSet := rfl
@[simp] theorem State.latch_cycMem (s : State) (f a : Nat) (v : Word) : (s.latch f a v).cycMem = s.cycMem := rfl
@[simp] theorem State.latch_past (s : State) (f a : Nat) (v : Word) : (s.latch f a v).past = s.past := rfl
@[simp] theorem State.latch_mem (s : State) (f a : Nat) (v : Word) : (s.latch f a v).mem = s.mem := rfl
@[simp] theorem State.latch_ecc (s : State) (f a : Nat) (v : Word) : (s.latch f a v).ecc = s.ecc := rfl
@[simp] theorem State.latch_imgVals (s : State) (f a : Nat) (v : Word) : (s.latch f a v).imgVals = s.imgVals := rfl
@[simp] theorem State.latch_blocks (s : State) (f a : Nat) (v : Word) : (s.latch f a v).blocks = s.blocks := rfl
@[simp] theorem State.latch_units (s : State) (f a : Nat) (v : Word) : (s.latch f a v).units = s.units := rfl
@[simp] theorem State.latch_clusters (s : State) (f a : Nat) (v : Word) : (s.latch f a v).clusters = s.clusters := rfl
@[simp] theorem State.latch_regions (s : State) (f a : Nat) (v : Word) : (s.latch f a v).regions = s.regions := rfl
@[simp] theorem State.latch_dies (s : State) (f a : Nat) (v : Word) : (s.latch f a v).dies = s.dies := rfl
@[simp] theorem State.latch_hub (s : State) (f a : Nat) (v : Word) : (s.latch f a v).hub = s.hub := rfl
@[simp] theorem State.latch_nvm (s : State) (f a : Nat) (v : Word) : (s.latch f a v).nvm = s.nvm := rfl
@[simp] theorem State.latch_out (s : State) (f a : Nat) (v : Word) : (s.latch f a v).out = s.out := rfl
@[simp] theorem State.latch_freeCtr (s : State) (f a : Nat) (v : Word) : (s.latch f a v).freeCtr = s.freeCtr := rfl
@[simp] theorem State.latch_pending (s : State) (f a : Nat) (v : Word) : (s.latch f a v).pending = s.pending := rfl

@[simp] theorem State.setMsix_now (s : State) (f o : Nat) (v : Word) : (s.setMsix f o v).now = s.now := rfl
@[simp] theorem State.setMsix_regs (s : State) (f o : Nat) (v : Word) : (s.setMsix f o v).regs = s.regs := rfl
@[simp] theorem State.setMsix_cycRegs (s : State) (f o : Nat) (v : Word) : (s.setMsix f o v).cycRegs = s.cycRegs := rfl
@[simp] theorem State.setMsix_cycWrote (s : State) (f o : Nat) (v : Word) : (s.setMsix f o v).cycWrote = s.cycWrote := rfl
@[simp] theorem State.setMsix_cycSet (s : State) (f o : Nat) (v : Word) : (s.setMsix f o v).cycSet = s.cycSet := rfl
@[simp] theorem State.setMsix_cycMem (s : State) (f o : Nat) (v : Word) : (s.setMsix f o v).cycMem = s.cycMem := rfl
@[simp] theorem State.setMsix_past (s : State) (f o : Nat) (v : Word) : (s.setMsix f o v).past = s.past := rfl
@[simp] theorem State.setMsix_mem (s : State) (f o : Nat) (v : Word) : (s.setMsix f o v).mem = s.mem := rfl
@[simp] theorem State.setMsix_ecc (s : State) (f o : Nat) (v : Word) : (s.setMsix f o v).ecc = s.ecc := rfl
@[simp] theorem State.setMsix_imgVals (s : State) (f o : Nat) (v : Word) : (s.setMsix f o v).imgVals = s.imgVals := rfl
@[simp] theorem State.setMsix_blocks (s : State) (f o : Nat) (v : Word) : (s.setMsix f o v).blocks = s.blocks := rfl
@[simp] theorem State.setMsix_units (s : State) (f o : Nat) (v : Word) : (s.setMsix f o v).units = s.units := rfl
@[simp] theorem State.setMsix_clusters (s : State) (f o : Nat) (v : Word) : (s.setMsix f o v).clusters = s.clusters := rfl
@[simp] theorem State.setMsix_regions (s : State) (f o : Nat) (v : Word) : (s.setMsix f o v).regions = s.regions := rfl
@[simp] theorem State.setMsix_dies (s : State) (f o : Nat) (v : Word) : (s.setMsix f o v).dies = s.dies := rfl
@[simp] theorem State.setMsix_hub (s : State) (f o : Nat) (v : Word) : (s.setMsix f o v).hub = s.hub := rfl
@[simp] theorem State.setMsix_nvm (s : State) (f o : Nat) (v : Word) : (s.setMsix f o v).nvm = s.nvm := rfl
@[simp] theorem State.setMsix_out (s : State) (f o : Nat) (v : Word) : (s.setMsix f o v).out = s.out := rfl
@[simp] theorem State.setMsix_freeCtr (s : State) (f o : Nat) (v : Word) : (s.setMsix f o v).freeCtr = s.freeCtr := rfl
@[simp] theorem State.setMsix_pending (s : State) (f o : Nat) (v : Word) : (s.setMsix f o v).pending = s.pending := rfl

@[simp] theorem State.setEcc_now (s : State) (w e : Nat) : (s.setEcc w e).now = s.now := rfl
@[simp] theorem State.setEcc_regs (s : State) (w e : Nat) : (s.setEcc w e).regs = s.regs := rfl
@[simp] theorem State.setEcc_perFn (s : State) (w e : Nat) : (s.setEcc w e).perFn = s.perFn := rfl
@[simp] theorem State.setEcc_cycRegs (s : State) (w e : Nat) : (s.setEcc w e).cycRegs = s.cycRegs := rfl
@[simp] theorem State.setEcc_cycWrote (s : State) (w e : Nat) : (s.setEcc w e).cycWrote = s.cycWrote := rfl
@[simp] theorem State.setEcc_cycSet (s : State) (w e : Nat) : (s.setEcc w e).cycSet = s.cycSet := rfl
@[simp] theorem State.setEcc_cycMem (s : State) (w e : Nat) : (s.setEcc w e).cycMem = s.cycMem := rfl
@[simp] theorem State.setEcc_past (s : State) (w e : Nat) : (s.setEcc w e).past = s.past := rfl
@[simp] theorem State.setEcc_mem (s : State) (w e : Nat) : (s.setEcc w e).mem = s.mem := rfl
@[simp] theorem State.setEcc_imgVals (s : State) (w e : Nat) : (s.setEcc w e).imgVals = s.imgVals := rfl
@[simp] theorem State.setEcc_blocks (s : State) (w e : Nat) : (s.setEcc w e).blocks = s.blocks := rfl
@[simp] theorem State.setEcc_units (s : State) (w e : Nat) : (s.setEcc w e).units = s.units := rfl
@[simp] theorem State.setEcc_clusters (s : State) (w e : Nat) : (s.setEcc w e).clusters = s.clusters := rfl
@[simp] theorem State.setEcc_regions (s : State) (w e : Nat) : (s.setEcc w e).regions = s.regions := rfl
@[simp] theorem State.setEcc_dies (s : State) (w e : Nat) : (s.setEcc w e).dies = s.dies := rfl
@[simp] theorem State.setEcc_hub (s : State) (w e : Nat) : (s.setEcc w e).hub = s.hub := rfl
@[simp] theorem State.setEcc_nvm (s : State) (w e : Nat) : (s.setEcc w e).nvm = s.nvm := rfl
@[simp] theorem State.setEcc_out (s : State) (w e : Nat) : (s.setEcc w e).out = s.out := rfl
@[simp] theorem State.setEcc_freeCtr (s : State) (w e : Nat) : (s.setEcc w e).freeCtr = s.freeCtr := rfl
@[simp] theorem State.setEcc_pending (s : State) (w e : Nat) : (s.setEcc w e).pending = s.pending := rfl

@[simp] theorem State.advance_regs (s : State) (t : Nat) : (s.advance t).regs = s.regs := rfl
@[simp] theorem State.advance_perFn (s : State) (t : Nat) : (s.advance t).perFn = s.perFn := rfl
@[simp] theorem State.advance_mem (s : State) (t : Nat) : (s.advance t).mem = s.mem := rfl
@[simp] theorem State.advance_ecc (s : State) (t : Nat) : (s.advance t).ecc = s.ecc := rfl
@[simp] theorem State.advance_imgVals (s : State) (t : Nat) : (s.advance t).imgVals = s.imgVals := rfl
@[simp] theorem State.advance_blocks (s : State) (t : Nat) : (s.advance t).blocks = s.blocks := rfl
@[simp] theorem State.advance_units (s : State) (t : Nat) : (s.advance t).units = s.units := rfl
@[simp] theorem State.advance_clusters (s : State) (t : Nat) : (s.advance t).clusters = s.clusters := rfl
@[simp] theorem State.advance_regions (s : State) (t : Nat) : (s.advance t).regions = s.regions := rfl
@[simp] theorem State.advance_dies (s : State) (t : Nat) : (s.advance t).dies = s.dies := rfl
@[simp] theorem State.advance_hub (s : State) (t : Nat) : (s.advance t).hub = s.hub := rfl
@[simp] theorem State.advance_nvm (s : State) (t : Nat) : (s.advance t).nvm = s.nvm := rfl
@[simp] theorem State.advance_out (s : State) (t : Nat) : (s.advance t).out = s.out := rfl
@[simp] theorem State.advance_freeCtr (s : State) (t : Nat) : (s.advance t).freeCtr = s.freeCtr := rfl
@[simp] theorem State.advance_pending (s : State) (t : Nat) : (s.advance t).pending = s.pending := rfl

@[simp] theorem State.noteSet_now (s : State) (a : Nat) (m : Word) : (s.noteSet a m).now = s.now := rfl
@[simp] theorem State.noteSet_regs (s : State) (a : Nat) (m : Word) : (s.noteSet a m).regs = s.regs := rfl
@[simp] theorem State.noteSet_perFn (s : State) (a : Nat) (m : Word) : (s.noteSet a m).perFn = s.perFn := rfl
@[simp] theorem State.noteSet_cycRegs (s : State) (a : Nat) (m : Word) : (s.noteSet a m).cycRegs = s.cycRegs := rfl
@[simp] theorem State.noteSet_cycWrote (s : State) (a : Nat) (m : Word) : (s.noteSet a m).cycWrote = s.cycWrote := rfl
@[simp] theorem State.noteSet_cycMem (s : State) (a : Nat) (m : Word) : (s.noteSet a m).cycMem = s.cycMem := rfl
@[simp] theorem State.noteSet_past (s : State) (a : Nat) (m : Word) : (s.noteSet a m).past = s.past := rfl
@[simp] theorem State.noteSet_mem (s : State) (a : Nat) (m : Word) : (s.noteSet a m).mem = s.mem := rfl
@[simp] theorem State.noteSet_ecc (s : State) (a : Nat) (m : Word) : (s.noteSet a m).ecc = s.ecc := rfl
@[simp] theorem State.noteSet_imgVals (s : State) (a : Nat) (m : Word) : (s.noteSet a m).imgVals = s.imgVals := rfl
@[simp] theorem State.noteSet_blocks (s : State) (a : Nat) (m : Word) : (s.noteSet a m).blocks = s.blocks := rfl
@[simp] theorem State.noteSet_units (s : State) (a : Nat) (m : Word) : (s.noteSet a m).units = s.units := rfl
@[simp] theorem State.noteSet_clusters (s : State) (a : Nat) (m : Word) : (s.noteSet a m).clusters = s.clusters := rfl
@[simp] theorem State.noteSet_regions (s : State) (a : Nat) (m : Word) : (s.noteSet a m).regions = s.regions := rfl
@[simp] theorem State.noteSet_dies (s : State) (a : Nat) (m : Word) : (s.noteSet a m).dies = s.dies := rfl
@[simp] theorem State.noteSet_hub (s : State) (a : Nat) (m : Word) : (s.noteSet a m).hub = s.hub := rfl
@[simp] theorem State.noteSet_nvm (s : State) (a : Nat) (m : Word) : (s.noteSet a m).nvm = s.nvm := rfl
@[simp] theorem State.noteSet_out (s : State) (a : Nat) (m : Word) : (s.noteSet a m).out = s.out := rfl
@[simp] theorem State.noteSet_freeCtr (s : State) (a : Nat) (m : Word) : (s.noteSet a m).freeCtr = s.freeCtr := rfl
@[simp] theorem State.noteSet_pending (s : State) (a : Nat) (m : Word) : (s.noteSet a m).pending = s.pending := rfl

@[simp] theorem State.wroteNow_now (s : State) (a : Nat) (v : Word) : (s.wroteNow a v).now = s.now := rfl
@[simp] theorem State.wroteNow_regs (s : State) (a : Nat) (v : Word) : (s.wroteNow a v).regs = s.regs := rfl
@[simp] theorem State.wroteNow_perFn (s : State) (a : Nat) (v : Word) : (s.wroteNow a v).perFn = s.perFn := rfl
@[simp] theorem State.wroteNow_cycRegs (s : State) (a : Nat) (v : Word) : (s.wroteNow a v).cycRegs = s.cycRegs := rfl
@[simp] theorem State.wroteNow_cycSet (s : State) (a : Nat) (v : Word) : (s.wroteNow a v).cycSet = s.cycSet := rfl
@[simp] theorem State.wroteNow_cycMem (s : State) (a : Nat) (v : Word) : (s.wroteNow a v).cycMem = s.cycMem := rfl
@[simp] theorem State.wroteNow_past (s : State) (a : Nat) (v : Word) : (s.wroteNow a v).past = s.past := rfl
@[simp] theorem State.wroteNow_mem (s : State) (a : Nat) (v : Word) : (s.wroteNow a v).mem = s.mem := rfl
@[simp] theorem State.wroteNow_ecc (s : State) (a : Nat) (v : Word) : (s.wroteNow a v).ecc = s.ecc := rfl
@[simp] theorem State.wroteNow_imgVals (s : State) (a : Nat) (v : Word) : (s.wroteNow a v).imgVals = s.imgVals := rfl
@[simp] theorem State.wroteNow_blocks (s : State) (a : Nat) (v : Word) : (s.wroteNow a v).blocks = s.blocks := rfl
@[simp] theorem State.wroteNow_units (s : State) (a : Nat) (v : Word) : (s.wroteNow a v).units = s.units := rfl
@[simp] theorem State.wroteNow_clusters (s : State) (a : Nat) (v : Word) : (s.wroteNow a v).clusters = s.clusters := rfl
@[simp] theorem State.wroteNow_regions (s : State) (a : Nat) (v : Word) : (s.wroteNow a v).regions = s.regions := rfl
@[simp] theorem State.wroteNow_dies (s : State) (a : Nat) (v : Word) : (s.wroteNow a v).dies = s.dies := rfl
@[simp] theorem State.wroteNow_hub (s : State) (a : Nat) (v : Word) : (s.wroteNow a v).hub = s.hub := rfl
@[simp] theorem State.wroteNow_nvm (s : State) (a : Nat) (v : Word) : (s.wroteNow a v).nvm = s.nvm := rfl
@[simp] theorem State.wroteNow_out (s : State) (a : Nat) (v : Word) : (s.wroteNow a v).out = s.out := rfl
@[simp] theorem State.wroteNow_freeCtr (s : State) (a : Nat) (v : Word) : (s.wroteNow a v).freeCtr = s.freeCtr := rfl
@[simp] theorem State.wroteNow_pending (s : State) (a : Nat) (v : Word) : (s.wroteNow a v).pending = s.pending := rfl

@[simp] theorem State.wroteMem_now (s : State) (a n : Nat) : (s.wroteMem a n).now = s.now := rfl
@[simp] theorem State.wroteMem_regs (s : State) (a n : Nat) : (s.wroteMem a n).regs = s.regs := rfl
@[simp] theorem State.wroteMem_perFn (s : State) (a n : Nat) : (s.wroteMem a n).perFn = s.perFn := rfl
@[simp] theorem State.wroteMem_cycRegs (s : State) (a n : Nat) : (s.wroteMem a n).cycRegs = s.cycRegs := rfl
@[simp] theorem State.wroteMem_cycWrote (s : State) (a n : Nat) : (s.wroteMem a n).cycWrote = s.cycWrote := rfl
@[simp] theorem State.wroteMem_cycSet (s : State) (a n : Nat) : (s.wroteMem a n).cycSet = s.cycSet := rfl
@[simp] theorem State.wroteMem_past (s : State) (a n : Nat) : (s.wroteMem a n).past = s.past := rfl
@[simp] theorem State.wroteMem_mem (s : State) (a n : Nat) : (s.wroteMem a n).mem = s.mem := rfl
@[simp] theorem State.wroteMem_ecc (s : State) (a n : Nat) : (s.wroteMem a n).ecc = s.ecc := rfl
@[simp] theorem State.wroteMem_imgVals (s : State) (a n : Nat) : (s.wroteMem a n).imgVals = s.imgVals := rfl
@[simp] theorem State.wroteMem_blocks (s : State) (a n : Nat) : (s.wroteMem a n).blocks = s.blocks := rfl
@[simp] theorem State.wroteMem_units (s : State) (a n : Nat) : (s.wroteMem a n).units = s.units := rfl
@[simp] theorem State.wroteMem_clusters (s : State) (a n : Nat) : (s.wroteMem a n).clusters = s.clusters := rfl
@[simp] theorem State.wroteMem_regions (s : State) (a n : Nat) : (s.wroteMem a n).regions = s.regions := rfl
@[simp] theorem State.wroteMem_dies (s : State) (a n : Nat) : (s.wroteMem a n).dies = s.dies := rfl
@[simp] theorem State.wroteMem_hub (s : State) (a n : Nat) : (s.wroteMem a n).hub = s.hub := rfl
@[simp] theorem State.wroteMem_nvm (s : State) (a n : Nat) : (s.wroteMem a n).nvm = s.nvm := rfl
@[simp] theorem State.wroteMem_out (s : State) (a n : Nat) : (s.wroteMem a n).out = s.out := rfl
@[simp] theorem State.wroteMem_freeCtr (s : State) (a n : Nat) : (s.wroteMem a n).freeCtr = s.freeCtr := rfl
@[simp] theorem State.wroteMem_pending (s : State) (a n : Nat) : (s.wroteMem a n).pending = s.pending := rfl

@[simp] theorem State.w1c_now (s : State) (a : Nat) (m v : Word) : (s.w1c a m v).now = s.now := rfl
@[simp] theorem State.w1c_perFn (s : State) (a : Nat) (m v : Word) : (s.w1c a m v).perFn = s.perFn := rfl
@[simp] theorem State.w1c_cycRegs (s : State) (a : Nat) (m v : Word) : (s.w1c a m v).cycRegs = s.cycRegs := rfl
@[simp] theorem State.w1c_cycWrote (s : State) (a : Nat) (m v : Word) : (s.w1c a m v).cycWrote = s.cycWrote := rfl
@[simp] theorem State.w1c_cycSet (s : State) (a : Nat) (m v : Word) : (s.w1c a m v).cycSet = s.cycSet := rfl
@[simp] theorem State.w1c_cycMem (s : State) (a : Nat) (m v : Word) : (s.w1c a m v).cycMem = s.cycMem := rfl
@[simp] theorem State.w1c_past (s : State) (a : Nat) (m v : Word) : (s.w1c a m v).past = s.past := rfl
@[simp] theorem State.w1c_mem (s : State) (a : Nat) (m v : Word) : (s.w1c a m v).mem = s.mem := rfl
@[simp] theorem State.w1c_ecc (s : State) (a : Nat) (m v : Word) : (s.w1c a m v).ecc = s.ecc := rfl
@[simp] theorem State.w1c_imgVals (s : State) (a : Nat) (m v : Word) : (s.w1c a m v).imgVals = s.imgVals := rfl
@[simp] theorem State.w1c_blocks (s : State) (a : Nat) (m v : Word) : (s.w1c a m v).blocks = s.blocks := rfl
@[simp] theorem State.w1c_units (s : State) (a : Nat) (m v : Word) : (s.w1c a m v).units = s.units := rfl
@[simp] theorem State.w1c_clusters (s : State) (a : Nat) (m v : Word) : (s.w1c a m v).clusters = s.clusters := rfl
@[simp] theorem State.w1c_regions (s : State) (a : Nat) (m v : Word) : (s.w1c a m v).regions = s.regions := rfl
@[simp] theorem State.w1c_dies (s : State) (a : Nat) (m v : Word) : (s.w1c a m v).dies = s.dies := rfl
@[simp] theorem State.w1c_hub (s : State) (a : Nat) (m v : Word) : (s.w1c a m v).hub = s.hub := rfl
@[simp] theorem State.w1c_nvm (s : State) (a : Nat) (m v : Word) : (s.w1c a m v).nvm = s.nvm := rfl
@[simp] theorem State.w1c_out (s : State) (a : Nat) (m v : Word) : (s.w1c a m v).out = s.out := rfl
@[simp] theorem State.w1c_freeCtr (s : State) (a : Nat) (m v : Word) : (s.w1c a m v).freeCtr = s.freeCtr := rfl
@[simp] theorem State.w1c_pending (s : State) (a : Nat) (m v : Word) : (s.w1c a m v).pending = s.pending := rfl

@[simp] theorem State.modArea_now (s : State) (a : Nat) (g : NvmArea → NvmArea) : (s.modArea a g).now = s.now := rfl
@[simp] theorem State.modArea_regs (s : State) (a : Nat) (g : NvmArea → NvmArea) : (s.modArea a g).regs = s.regs := rfl
@[simp] theorem State.modArea_perFn (s : State) (a : Nat) (g : NvmArea → NvmArea) : (s.modArea a g).perFn = s.perFn := rfl
@[simp] theorem State.modArea_cycRegs (s : State) (a : Nat) (g : NvmArea → NvmArea) : (s.modArea a g).cycRegs = s.cycRegs := rfl
@[simp] theorem State.modArea_cycWrote (s : State) (a : Nat) (g : NvmArea → NvmArea) : (s.modArea a g).cycWrote = s.cycWrote := rfl
@[simp] theorem State.modArea_cycSet (s : State) (a : Nat) (g : NvmArea → NvmArea) : (s.modArea a g).cycSet = s.cycSet := rfl
@[simp] theorem State.modArea_cycMem (s : State) (a : Nat) (g : NvmArea → NvmArea) : (s.modArea a g).cycMem = s.cycMem := rfl
@[simp] theorem State.modArea_past (s : State) (a : Nat) (g : NvmArea → NvmArea) : (s.modArea a g).past = s.past := rfl
@[simp] theorem State.modArea_mem (s : State) (a : Nat) (g : NvmArea → NvmArea) : (s.modArea a g).mem = s.mem := rfl
@[simp] theorem State.modArea_ecc (s : State) (a : Nat) (g : NvmArea → NvmArea) : (s.modArea a g).ecc = s.ecc := rfl
@[simp] theorem State.modArea_imgVals (s : State) (a : Nat) (g : NvmArea → NvmArea) : (s.modArea a g).imgVals = s.imgVals := rfl
@[simp] theorem State.modArea_blocks (s : State) (a : Nat) (g : NvmArea → NvmArea) : (s.modArea a g).blocks = s.blocks := rfl
@[simp] theorem State.modArea_units (s : State) (a : Nat) (g : NvmArea → NvmArea) : (s.modArea a g).units = s.units := rfl
@[simp] theorem State.modArea_clusters (s : State) (a : Nat) (g : NvmArea → NvmArea) : (s.modArea a g).clusters = s.clusters := rfl
@[simp] theorem State.modArea_regions (s : State) (a : Nat) (g : NvmArea → NvmArea) : (s.modArea a g).regions = s.regions := rfl
@[simp] theorem State.modArea_dies (s : State) (a : Nat) (g : NvmArea → NvmArea) : (s.modArea a g).dies = s.dies := rfl
@[simp] theorem State.modArea_hub (s : State) (a : Nat) (g : NvmArea → NvmArea) : (s.modArea a g).hub = s.hub := rfl
@[simp] theorem State.modArea_out (s : State) (a : Nat) (g : NvmArea → NvmArea) : (s.modArea a g).out = s.out := rfl
@[simp] theorem State.modArea_freeCtr (s : State) (a : Nat) (g : NvmArea → NvmArea) : (s.modArea a g).freeCtr = s.freeCtr := rfl
@[simp] theorem State.modArea_pending (s : State) (a : Nat) (g : NvmArea → NvmArea) : (s.modArea a g).pending = s.pending := rfl

@[simp] theorem State.setOcc_now (s : State) (n : Nat) (o : Occ) : (s.setOcc n o).now = s.now := rfl
@[simp] theorem State.setOcc_regs (s : State) (n : Nat) (o : Occ) : (s.setOcc n o).regs = s.regs := rfl
@[simp] theorem State.setOcc_perFn (s : State) (n : Nat) (o : Occ) : (s.setOcc n o).perFn = s.perFn := rfl
@[simp] theorem State.setOcc_cycRegs (s : State) (n : Nat) (o : Occ) : (s.setOcc n o).cycRegs = s.cycRegs := rfl
@[simp] theorem State.setOcc_cycWrote (s : State) (n : Nat) (o : Occ) : (s.setOcc n o).cycWrote = s.cycWrote := rfl
@[simp] theorem State.setOcc_cycSet (s : State) (n : Nat) (o : Occ) : (s.setOcc n o).cycSet = s.cycSet := rfl
@[simp] theorem State.setOcc_cycMem (s : State) (n : Nat) (o : Occ) : (s.setOcc n o).cycMem = s.cycMem := rfl
@[simp] theorem State.setOcc_past (s : State) (n : Nat) (o : Occ) : (s.setOcc n o).past = s.past := rfl
@[simp] theorem State.setOcc_mem (s : State) (n : Nat) (o : Occ) : (s.setOcc n o).mem = s.mem := rfl
@[simp] theorem State.setOcc_ecc (s : State) (n : Nat) (o : Occ) : (s.setOcc n o).ecc = s.ecc := rfl
@[simp] theorem State.setOcc_imgVals (s : State) (n : Nat) (o : Occ) : (s.setOcc n o).imgVals = s.imgVals := rfl
@[simp] theorem State.setOcc_blocks (s : State) (n : Nat) (o : Occ) : (s.setOcc n o).blocks = s.blocks := rfl
@[simp] theorem State.setOcc_units (s : State) (n : Nat) (o : Occ) : (s.setOcc n o).units = s.units := rfl
@[simp] theorem State.setOcc_clusters (s : State) (n : Nat) (o : Occ) : (s.setOcc n o).clusters = s.clusters := rfl
@[simp] theorem State.setOcc_regions (s : State) (n : Nat) (o : Occ) : (s.setOcc n o).regions = s.regions := rfl
@[simp] theorem State.setOcc_dies (s : State) (n : Nat) (o : Occ) : (s.setOcc n o).dies = s.dies := rfl
@[simp] theorem State.setOcc_nvm (s : State) (n : Nat) (o : Occ) : (s.setOcc n o).nvm = s.nvm := rfl
@[simp] theorem State.setOcc_out (s : State) (n : Nat) (o : Occ) : (s.setOcc n o).out = s.out := rfl
@[simp] theorem State.setOcc_freeCtr (s : State) (n : Nat) (o : Occ) : (s.setOcc n o).freeCtr = s.freeCtr := rfl
@[simp] theorem State.setOcc_pending (s : State) (n : Nat) (o : Occ) : (s.setOcc n o).pending = s.pending := rfl

@[simp] theorem State.ropeSend_now (s : State) (port : Nat) (x : RopeSlot) : (s.ropeSend port x).now = s.now := rfl
@[simp] theorem State.ropeSend_regs (s : State) (port : Nat) (x : RopeSlot) : (s.ropeSend port x).regs = s.regs := rfl
@[simp] theorem State.ropeSend_perFn (s : State) (port : Nat) (x : RopeSlot) : (s.ropeSend port x).perFn = s.perFn := rfl
@[simp] theorem State.ropeSend_cycRegs (s : State) (port : Nat) (x : RopeSlot) : (s.ropeSend port x).cycRegs = s.cycRegs := rfl
@[simp] theorem State.ropeSend_cycWrote (s : State) (port : Nat) (x : RopeSlot) : (s.ropeSend port x).cycWrote = s.cycWrote := rfl
@[simp] theorem State.ropeSend_cycSet (s : State) (port : Nat) (x : RopeSlot) : (s.ropeSend port x).cycSet = s.cycSet := rfl
@[simp] theorem State.ropeSend_cycMem (s : State) (port : Nat) (x : RopeSlot) : (s.ropeSend port x).cycMem = s.cycMem := rfl
@[simp] theorem State.ropeSend_past (s : State) (port : Nat) (x : RopeSlot) : (s.ropeSend port x).past = s.past := rfl
@[simp] theorem State.ropeSend_mem (s : State) (port : Nat) (x : RopeSlot) : (s.ropeSend port x).mem = s.mem := rfl
@[simp] theorem State.ropeSend_ecc (s : State) (port : Nat) (x : RopeSlot) : (s.ropeSend port x).ecc = s.ecc := rfl
@[simp] theorem State.ropeSend_imgVals (s : State) (port : Nat) (x : RopeSlot) : (s.ropeSend port x).imgVals = s.imgVals := rfl
@[simp] theorem State.ropeSend_blocks (s : State) (port : Nat) (x : RopeSlot) : (s.ropeSend port x).blocks = s.blocks := rfl
@[simp] theorem State.ropeSend_units (s : State) (port : Nat) (x : RopeSlot) : (s.ropeSend port x).units = s.units := rfl
@[simp] theorem State.ropeSend_clusters (s : State) (port : Nat) (x : RopeSlot) : (s.ropeSend port x).clusters = s.clusters := rfl
@[simp] theorem State.ropeSend_regions (s : State) (port : Nat) (x : RopeSlot) : (s.ropeSend port x).regions = s.regions := rfl
@[simp] theorem State.ropeSend_dies (s : State) (port : Nat) (x : RopeSlot) : (s.ropeSend port x).dies = s.dies := rfl
@[simp] theorem State.ropeSend_hub (s : State) (port : Nat) (x : RopeSlot) : (s.ropeSend port x).hub = s.hub := rfl
@[simp] theorem State.ropeSend_nvm (s : State) (port : Nat) (x : RopeSlot) : (s.ropeSend port x).nvm = s.nvm := rfl
@[simp] theorem State.ropeSend_freeCtr (s : State) (port : Nat) (x : RopeSlot) : (s.ropeSend port x).freeCtr = s.freeCtr := rfl
@[simp] theorem State.ropeSend_pending (s : State) (port : Nat) (x : RopeSlot) : (s.ropeSend port x).pending = s.pending := rfl

@[simp] theorem State.answer_now (s : State) (f : Nat) (w : Word) : (s.answer f w).now = s.now := rfl
@[simp] theorem State.answer_regs (s : State) (f : Nat) (w : Word) : (s.answer f w).regs = s.regs := rfl
@[simp] theorem State.answer_perFn (s : State) (f : Nat) (w : Word) : (s.answer f w).perFn = s.perFn := rfl
@[simp] theorem State.answer_cycRegs (s : State) (f : Nat) (w : Word) : (s.answer f w).cycRegs = s.cycRegs := rfl
@[simp] theorem State.answer_cycWrote (s : State) (f : Nat) (w : Word) : (s.answer f w).cycWrote = s.cycWrote := rfl
@[simp] theorem State.answer_cycSet (s : State) (f : Nat) (w : Word) : (s.answer f w).cycSet = s.cycSet := rfl
@[simp] theorem State.answer_cycMem (s : State) (f : Nat) (w : Word) : (s.answer f w).cycMem = s.cycMem := rfl
@[simp] theorem State.answer_past (s : State) (f : Nat) (w : Word) : (s.answer f w).past = s.past := rfl
@[simp] theorem State.answer_mem (s : State) (f : Nat) (w : Word) : (s.answer f w).mem = s.mem := rfl
@[simp] theorem State.answer_ecc (s : State) (f : Nat) (w : Word) : (s.answer f w).ecc = s.ecc := rfl
@[simp] theorem State.answer_imgVals (s : State) (f : Nat) (w : Word) : (s.answer f w).imgVals = s.imgVals := rfl
@[simp] theorem State.answer_blocks (s : State) (f : Nat) (w : Word) : (s.answer f w).blocks = s.blocks := rfl
@[simp] theorem State.answer_units (s : State) (f : Nat) (w : Word) : (s.answer f w).units = s.units := rfl
@[simp] theorem State.answer_clusters (s : State) (f : Nat) (w : Word) : (s.answer f w).clusters = s.clusters := rfl
@[simp] theorem State.answer_regions (s : State) (f : Nat) (w : Word) : (s.answer f w).regions = s.regions := rfl
@[simp] theorem State.answer_dies (s : State) (f : Nat) (w : Word) : (s.answer f w).dies = s.dies := rfl
@[simp] theorem State.answer_hub (s : State) (f : Nat) (w : Word) : (s.answer f w).hub = s.hub := rfl
@[simp] theorem State.answer_nvm (s : State) (f : Nat) (w : Word) : (s.answer f w).nvm = s.nvm := rfl
@[simp] theorem State.answer_freeCtr (s : State) (f : Nat) (w : Word) : (s.answer f w).freeCtr = s.freeCtr := rfl
@[simp] theorem State.answer_pending (s : State) (f : Nat) (w : Word) : (s.answer f w).pending = s.pending := rfl

@[simp] theorem State.answerMem_now (s : State) (f : Nat) (bs : List (BitVec 8)) : (s.answerMem f bs).now = s.now := rfl
@[simp] theorem State.answerMem_regs (s : State) (f : Nat) (bs : List (BitVec 8)) : (s.answerMem f bs).regs = s.regs := rfl
@[simp] theorem State.answerMem_perFn (s : State) (f : Nat) (bs : List (BitVec 8)) : (s.answerMem f bs).perFn = s.perFn := rfl
@[simp] theorem State.answerMem_cycRegs (s : State) (f : Nat) (bs : List (BitVec 8)) : (s.answerMem f bs).cycRegs = s.cycRegs := rfl
@[simp] theorem State.answerMem_cycWrote (s : State) (f : Nat) (bs : List (BitVec 8)) : (s.answerMem f bs).cycWrote = s.cycWrote := rfl
@[simp] theorem State.answerMem_cycSet (s : State) (f : Nat) (bs : List (BitVec 8)) : (s.answerMem f bs).cycSet = s.cycSet := rfl
@[simp] theorem State.answerMem_cycMem (s : State) (f : Nat) (bs : List (BitVec 8)) : (s.answerMem f bs).cycMem = s.cycMem := rfl
@[simp] theorem State.answerMem_past (s : State) (f : Nat) (bs : List (BitVec 8)) : (s.answerMem f bs).past = s.past := rfl
@[simp] theorem State.answerMem_mem (s : State) (f : Nat) (bs : List (BitVec 8)) : (s.answerMem f bs).mem = s.mem := rfl
@[simp] theorem State.answerMem_ecc (s : State) (f : Nat) (bs : List (BitVec 8)) : (s.answerMem f bs).ecc = s.ecc := rfl
@[simp] theorem State.answerMem_imgVals (s : State) (f : Nat) (bs : List (BitVec 8)) : (s.answerMem f bs).imgVals = s.imgVals := rfl
@[simp] theorem State.answerMem_blocks (s : State) (f : Nat) (bs : List (BitVec 8)) : (s.answerMem f bs).blocks = s.blocks := rfl
@[simp] theorem State.answerMem_units (s : State) (f : Nat) (bs : List (BitVec 8)) : (s.answerMem f bs).units = s.units := rfl
@[simp] theorem State.answerMem_clusters (s : State) (f : Nat) (bs : List (BitVec 8)) : (s.answerMem f bs).clusters = s.clusters := rfl
@[simp] theorem State.answerMem_regions (s : State) (f : Nat) (bs : List (BitVec 8)) : (s.answerMem f bs).regions = s.regions := rfl
@[simp] theorem State.answerMem_dies (s : State) (f : Nat) (bs : List (BitVec 8)) : (s.answerMem f bs).dies = s.dies := rfl
@[simp] theorem State.answerMem_hub (s : State) (f : Nat) (bs : List (BitVec 8)) : (s.answerMem f bs).hub = s.hub := rfl
@[simp] theorem State.answerMem_nvm (s : State) (f : Nat) (bs : List (BitVec 8)) : (s.answerMem f bs).nvm = s.nvm := rfl
@[simp] theorem State.answerMem_freeCtr (s : State) (f : Nat) (bs : List (BitVec 8)) : (s.answerMem f bs).freeCtr = s.freeCtr := rfl
@[simp] theorem State.answerMem_pending (s : State) (f : Nat) (bs : List (BitVec 8)) : (s.answerMem f bs).pending = s.pending := rfl

@[simp] theorem State.drew_now (s : State) : (s.drew).now = s.now := rfl
@[simp] theorem State.drew_regs (s : State) : (s.drew).regs = s.regs := rfl
@[simp] theorem State.drew_perFn (s : State) : (s.drew).perFn = s.perFn := rfl
@[simp] theorem State.drew_cycRegs (s : State) : (s.drew).cycRegs = s.cycRegs := rfl
@[simp] theorem State.drew_cycWrote (s : State) : (s.drew).cycWrote = s.cycWrote := rfl
@[simp] theorem State.drew_cycSet (s : State) : (s.drew).cycSet = s.cycSet := rfl
@[simp] theorem State.drew_cycMem (s : State) : (s.drew).cycMem = s.cycMem := rfl
@[simp] theorem State.drew_past (s : State) : (s.drew).past = s.past := rfl
@[simp] theorem State.drew_mem (s : State) : (s.drew).mem = s.mem := rfl
@[simp] theorem State.drew_ecc (s : State) : (s.drew).ecc = s.ecc := rfl
@[simp] theorem State.drew_imgVals (s : State) : (s.drew).imgVals = s.imgVals := rfl
@[simp] theorem State.drew_blocks (s : State) : (s.drew).blocks = s.blocks := rfl
@[simp] theorem State.drew_units (s : State) : (s.drew).units = s.units := rfl
@[simp] theorem State.drew_clusters (s : State) : (s.drew).clusters = s.clusters := rfl
@[simp] theorem State.drew_regions (s : State) : (s.drew).regions = s.regions := rfl
@[simp] theorem State.drew_dies (s : State) : (s.drew).dies = s.dies := rfl
@[simp] theorem State.drew_hub (s : State) : (s.drew).hub = s.hub := rfl
@[simp] theorem State.drew_nvm (s : State) : (s.drew).nvm = s.nvm := rfl
@[simp] theorem State.drew_out (s : State) : (s.drew).out = s.out := rfl
@[simp] theorem State.drew_pending (s : State) : (s.drew).pending = s.pending := rfl

@[simp] theorem State.wrN_now (s : State) (a n : Nat) : (s.wrN a n).now = s.now := rfl
@[simp] theorem State.wrN_perFn (s : State) (a n : Nat) : (s.wrN a n).perFn = s.perFn := rfl
@[simp] theorem State.wrN_cycRegs (s : State) (a n : Nat) : (s.wrN a n).cycRegs = s.cycRegs := rfl
@[simp] theorem State.wrN_cycWrote (s : State) (a n : Nat) : (s.wrN a n).cycWrote = s.cycWrote := rfl
@[simp] theorem State.wrN_cycSet (s : State) (a n : Nat) : (s.wrN a n).cycSet = s.cycSet := rfl
@[simp] theorem State.wrN_cycMem (s : State) (a n : Nat) : (s.wrN a n).cycMem = s.cycMem := rfl
@[simp] theorem State.wrN_past (s : State) (a n : Nat) : (s.wrN a n).past = s.past := rfl
@[simp] theorem State.wrN_mem (s : State) (a n : Nat) : (s.wrN a n).mem = s.mem := rfl
@[simp] theorem State.wrN_ecc (s : State) (a n : Nat) : (s.wrN a n).ecc = s.ecc := rfl
@[simp] theorem State.wrN_imgVals (s : State) (a n : Nat) : (s.wrN a n).imgVals = s.imgVals := rfl
@[simp] theorem State.wrN_blocks (s : State) (a n : Nat) : (s.wrN a n).blocks = s.blocks := rfl
@[simp] theorem State.wrN_units (s : State) (a n : Nat) : (s.wrN a n).units = s.units := rfl
@[simp] theorem State.wrN_clusters (s : State) (a n : Nat) : (s.wrN a n).clusters = s.clusters := rfl
@[simp] theorem State.wrN_regions (s : State) (a n : Nat) : (s.wrN a n).regions = s.regions := rfl
@[simp] theorem State.wrN_dies (s : State) (a n : Nat) : (s.wrN a n).dies = s.dies := rfl
@[simp] theorem State.wrN_hub (s : State) (a n : Nat) : (s.wrN a n).hub = s.hub := rfl
@[simp] theorem State.wrN_nvm (s : State) (a n : Nat) : (s.wrN a n).nvm = s.nvm := rfl
@[simp] theorem State.wrN_out (s : State) (a n : Nat) : (s.wrN a n).out = s.out := rfl
@[simp] theorem State.wrN_freeCtr (s : State) (a n : Nat) : (s.wrN a n).freeCtr = s.freeCtr := rfl
@[simp] theorem State.wrN_pending (s : State) (a n : Nat) : (s.wrN a n).pending = s.pending := rfl

@[simp] theorem State.wrF_now (s : State) (a : Nat) (f : Fld) (v : Nat) : (s.wrF a f v).now = s.now := rfl
@[simp] theorem State.wrF_perFn (s : State) (a : Nat) (f : Fld) (v : Nat) : (s.wrF a f v).perFn = s.perFn := rfl
@[simp] theorem State.wrF_cycRegs (s : State) (a : Nat) (f : Fld) (v : Nat) : (s.wrF a f v).cycRegs = s.cycRegs := rfl
@[simp] theorem State.wrF_cycWrote (s : State) (a : Nat) (f : Fld) (v : Nat) : (s.wrF a f v).cycWrote = s.cycWrote := rfl
@[simp] theorem State.wrF_cycSet (s : State) (a : Nat) (f : Fld) (v : Nat) : (s.wrF a f v).cycSet = s.cycSet := rfl
@[simp] theorem State.wrF_cycMem (s : State) (a : Nat) (f : Fld) (v : Nat) : (s.wrF a f v).cycMem = s.cycMem := rfl
@[simp] theorem State.wrF_past (s : State) (a : Nat) (f : Fld) (v : Nat) : (s.wrF a f v).past = s.past := rfl
@[simp] theorem State.wrF_mem (s : State) (a : Nat) (f : Fld) (v : Nat) : (s.wrF a f v).mem = s.mem := rfl
@[simp] theorem State.wrF_ecc (s : State) (a : Nat) (f : Fld) (v : Nat) : (s.wrF a f v).ecc = s.ecc := rfl
@[simp] theorem State.wrF_imgVals (s : State) (a : Nat) (f : Fld) (v : Nat) : (s.wrF a f v).imgVals = s.imgVals := rfl
@[simp] theorem State.wrF_blocks (s : State) (a : Nat) (f : Fld) (v : Nat) : (s.wrF a f v).blocks = s.blocks := rfl
@[simp] theorem State.wrF_units (s : State) (a : Nat) (f : Fld) (v : Nat) : (s.wrF a f v).units = s.units := rfl
@[simp] theorem State.wrF_clusters (s : State) (a : Nat) (f : Fld) (v : Nat) : (s.wrF a f v).clusters = s.clusters := rfl
@[simp] theorem State.wrF_regions (s : State) (a : Nat) (f : Fld) (v : Nat) : (s.wrF a f v).regions = s.regions := rfl
@[simp] theorem State.wrF_dies (s : State) (a : Nat) (f : Fld) (v : Nat) : (s.wrF a f v).dies = s.dies := rfl
@[simp] theorem State.wrF_hub (s : State) (a : Nat) (f : Fld) (v : Nat) : (s.wrF a f v).hub = s.hub := rfl
@[simp] theorem State.wrF_nvm (s : State) (a : Nat) (f : Fld) (v : Nat) : (s.wrF a f v).nvm = s.nvm := rfl
@[simp] theorem State.wrF_out (s : State) (a : Nat) (f : Fld) (v : Nat) : (s.wrF a f v).out = s.out := rfl
@[simp] theorem State.wrF_freeCtr (s : State) (a : Nat) (f : Fld) (v : Nat) : (s.wrF a f v).freeCtr = s.freeCtr := rfl
@[simp] theorem State.wrF_pending (s : State) (a : Nat) (f : Fld) (v : Nat) : (s.wrF a f v).pending = s.pending := rfl

@[simp] theorem State.flag_now (s : State) (a : Nat) (f : Fld) (b : Bool) : (s.flag a f b).now = s.now := rfl
@[simp] theorem State.flag_perFn (s : State) (a : Nat) (f : Fld) (b : Bool) : (s.flag a f b).perFn = s.perFn := rfl
@[simp] theorem State.flag_cycRegs (s : State) (a : Nat) (f : Fld) (b : Bool) : (s.flag a f b).cycRegs = s.cycRegs := rfl
@[simp] theorem State.flag_cycWrote (s : State) (a : Nat) (f : Fld) (b : Bool) : (s.flag a f b).cycWrote = s.cycWrote := rfl
@[simp] theorem State.flag_cycMem (s : State) (a : Nat) (f : Fld) (b : Bool) : (s.flag a f b).cycMem = s.cycMem := rfl
@[simp] theorem State.flag_past (s : State) (a : Nat) (f : Fld) (b : Bool) : (s.flag a f b).past = s.past := rfl
@[simp] theorem State.flag_mem (s : State) (a : Nat) (f : Fld) (b : Bool) : (s.flag a f b).mem = s.mem := rfl
@[simp] theorem State.flag_ecc (s : State) (a : Nat) (f : Fld) (b : Bool) : (s.flag a f b).ecc = s.ecc := rfl
@[simp] theorem State.flag_imgVals (s : State) (a : Nat) (f : Fld) (b : Bool) : (s.flag a f b).imgVals = s.imgVals := rfl
@[simp] theorem State.flag_blocks (s : State) (a : Nat) (f : Fld) (b : Bool) : (s.flag a f b).blocks = s.blocks := rfl
@[simp] theorem State.flag_units (s : State) (a : Nat) (f : Fld) (b : Bool) : (s.flag a f b).units = s.units := rfl
@[simp] theorem State.flag_clusters (s : State) (a : Nat) (f : Fld) (b : Bool) : (s.flag a f b).clusters = s.clusters := rfl
@[simp] theorem State.flag_regions (s : State) (a : Nat) (f : Fld) (b : Bool) : (s.flag a f b).regions = s.regions := rfl
@[simp] theorem State.flag_dies (s : State) (a : Nat) (f : Fld) (b : Bool) : (s.flag a f b).dies = s.dies := rfl
@[simp] theorem State.flag_hub (s : State) (a : Nat) (f : Fld) (b : Bool) : (s.flag a f b).hub = s.hub := rfl
@[simp] theorem State.flag_nvm (s : State) (a : Nat) (f : Fld) (b : Bool) : (s.flag a f b).nvm = s.nvm := rfl
@[simp] theorem State.flag_out (s : State) (a : Nat) (f : Fld) (b : Bool) : (s.flag a f b).out = s.out := rfl
@[simp] theorem State.flag_freeCtr (s : State) (a : Nat) (f : Fld) (b : Bool) : (s.flag a f b).freeCtr = s.freeCtr := rfl
@[simp] theorem State.flag_pending (s : State) (a : Nat) (f : Fld) (b : Bool) : (s.flag a f b).pending = s.pending := rfl

@[simp] theorem State.wrBit_now (s : State) (a k : Nat) (b : Bool) : (s.wrBit a k b).now = s.now := rfl
@[simp] theorem State.wrBit_perFn (s : State) (a k : Nat) (b : Bool) : (s.wrBit a k b).perFn = s.perFn := rfl
@[simp] theorem State.wrBit_cycRegs (s : State) (a k : Nat) (b : Bool) : (s.wrBit a k b).cycRegs = s.cycRegs := rfl
@[simp] theorem State.wrBit_cycWrote (s : State) (a k : Nat) (b : Bool) : (s.wrBit a k b).cycWrote = s.cycWrote := rfl
@[simp] theorem State.wrBit_cycMem (s : State) (a k : Nat) (b : Bool) : (s.wrBit a k b).cycMem = s.cycMem := rfl
@[simp] theorem State.wrBit_past (s : State) (a k : Nat) (b : Bool) : (s.wrBit a k b).past = s.past := rfl
@[simp] theorem State.wrBit_mem (s : State) (a k : Nat) (b : Bool) : (s.wrBit a k b).mem = s.mem := rfl
@[simp] theorem State.wrBit_ecc (s : State) (a k : Nat) (b : Bool) : (s.wrBit a k b).ecc = s.ecc := rfl
@[simp] theorem State.wrBit_imgVals (s : State) (a k : Nat) (b : Bool) : (s.wrBit a k b).imgVals = s.imgVals := rfl
@[simp] theorem State.wrBit_blocks (s : State) (a k : Nat) (b : Bool) : (s.wrBit a k b).blocks = s.blocks := rfl
@[simp] theorem State.wrBit_units (s : State) (a k : Nat) (b : Bool) : (s.wrBit a k b).units = s.units := rfl
@[simp] theorem State.wrBit_clusters (s : State) (a k : Nat) (b : Bool) : (s.wrBit a k b).clusters = s.clusters := rfl
@[simp] theorem State.wrBit_regions (s : State) (a k : Nat) (b : Bool) : (s.wrBit a k b).regions = s.regions := rfl
@[simp] theorem State.wrBit_dies (s : State) (a k : Nat) (b : Bool) : (s.wrBit a k b).dies = s.dies := rfl
@[simp] theorem State.wrBit_hub (s : State) (a k : Nat) (b : Bool) : (s.wrBit a k b).hub = s.hub := rfl
@[simp] theorem State.wrBit_nvm (s : State) (a k : Nat) (b : Bool) : (s.wrBit a k b).nvm = s.nvm := rfl
@[simp] theorem State.wrBit_out (s : State) (a k : Nat) (b : Bool) : (s.wrBit a k b).out = s.out := rfl
@[simp] theorem State.wrBit_freeCtr (s : State) (a k : Nat) (b : Bool) : (s.wrBit a k b).freeCtr = s.freeCtr := rfl
@[simp] theorem State.wrBit_pending (s : State) (a k : Nat) (b : Bool) : (s.wrBit a k b).pending = s.pending := rfl

@[simp] theorem State.bump_now (s : State) (a n : Nat) : (s.bump a n).now = s.now := rfl
@[simp] theorem State.bump_perFn (s : State) (a n : Nat) : (s.bump a n).perFn = s.perFn := rfl
@[simp] theorem State.bump_cycRegs (s : State) (a n : Nat) : (s.bump a n).cycRegs = s.cycRegs := rfl
@[simp] theorem State.bump_cycWrote (s : State) (a n : Nat) : (s.bump a n).cycWrote = s.cycWrote := rfl
@[simp] theorem State.bump_cycSet (s : State) (a n : Nat) : (s.bump a n).cycSet = s.cycSet := rfl
@[simp] theorem State.bump_cycMem (s : State) (a n : Nat) : (s.bump a n).cycMem = s.cycMem := rfl
@[simp] theorem State.bump_past (s : State) (a n : Nat) : (s.bump a n).past = s.past := rfl
@[simp] theorem State.bump_mem (s : State) (a n : Nat) : (s.bump a n).mem = s.mem := rfl
@[simp] theorem State.bump_ecc (s : State) (a n : Nat) : (s.bump a n).ecc = s.ecc := rfl
@[simp] theorem State.bump_imgVals (s : State) (a n : Nat) : (s.bump a n).imgVals = s.imgVals := rfl
@[simp] theorem State.bump_blocks (s : State) (a n : Nat) : (s.bump a n).blocks = s.blocks := rfl
@[simp] theorem State.bump_units (s : State) (a n : Nat) : (s.bump a n).units = s.units := rfl
@[simp] theorem State.bump_clusters (s : State) (a n : Nat) : (s.bump a n).clusters = s.clusters := rfl
@[simp] theorem State.bump_regions (s : State) (a n : Nat) : (s.bump a n).regions = s.regions := rfl
@[simp] theorem State.bump_dies (s : State) (a n : Nat) : (s.bump a n).dies = s.dies := rfl
@[simp] theorem State.bump_hub (s : State) (a n : Nat) : (s.bump a n).hub = s.hub := rfl
@[simp] theorem State.bump_nvm (s : State) (a n : Nat) : (s.bump a n).nvm = s.nvm := rfl
@[simp] theorem State.bump_out (s : State) (a n : Nat) : (s.bump a n).out = s.out := rfl
@[simp] theorem State.bump_freeCtr (s : State) (a n : Nat) : (s.bump a n).freeCtr = s.freeCtr := rfl
@[simp] theorem State.bump_pending (s : State) (a n : Nat) : (s.bump a n).pending = s.pending := rfl

@[simp] theorem State.bumpSat_now (s : State) (a : Nat) (f : Fld) (n : Nat) : (s.bumpSat a f n).now = s.now := rfl
@[simp] theorem State.bumpSat_perFn (s : State) (a : Nat) (f : Fld) (n : Nat) : (s.bumpSat a f n).perFn = s.perFn := rfl
@[simp] theorem State.bumpSat_cycRegs (s : State) (a : Nat) (f : Fld) (n : Nat) : (s.bumpSat a f n).cycRegs = s.cycRegs := rfl
@[simp] theorem State.bumpSat_cycWrote (s : State) (a : Nat) (f : Fld) (n : Nat) : (s.bumpSat a f n).cycWrote = s.cycWrote := rfl
@[simp] theorem State.bumpSat_cycSet (s : State) (a : Nat) (f : Fld) (n : Nat) : (s.bumpSat a f n).cycSet = s.cycSet := rfl
@[simp] theorem State.bumpSat_cycMem (s : State) (a : Nat) (f : Fld) (n : Nat) : (s.bumpSat a f n).cycMem = s.cycMem := rfl
@[simp] theorem State.bumpSat_past (s : State) (a : Nat) (f : Fld) (n : Nat) : (s.bumpSat a f n).past = s.past := rfl
@[simp] theorem State.bumpSat_mem (s : State) (a : Nat) (f : Fld) (n : Nat) : (s.bumpSat a f n).mem = s.mem := rfl
@[simp] theorem State.bumpSat_ecc (s : State) (a : Nat) (f : Fld) (n : Nat) : (s.bumpSat a f n).ecc = s.ecc := rfl
@[simp] theorem State.bumpSat_imgVals (s : State) (a : Nat) (f : Fld) (n : Nat) : (s.bumpSat a f n).imgVals = s.imgVals := rfl
@[simp] theorem State.bumpSat_blocks (s : State) (a : Nat) (f : Fld) (n : Nat) : (s.bumpSat a f n).blocks = s.blocks := rfl
@[simp] theorem State.bumpSat_units (s : State) (a : Nat) (f : Fld) (n : Nat) : (s.bumpSat a f n).units = s.units := rfl
@[simp] theorem State.bumpSat_clusters (s : State) (a : Nat) (f : Fld) (n : Nat) : (s.bumpSat a f n).clusters = s.clusters := rfl
@[simp] theorem State.bumpSat_regions (s : State) (a : Nat) (f : Fld) (n : Nat) : (s.bumpSat a f n).regions = s.regions := rfl
@[simp] theorem State.bumpSat_dies (s : State) (a : Nat) (f : Fld) (n : Nat) : (s.bumpSat a f n).dies = s.dies := rfl
@[simp] theorem State.bumpSat_hub (s : State) (a : Nat) (f : Fld) (n : Nat) : (s.bumpSat a f n).hub = s.hub := rfl
@[simp] theorem State.bumpSat_nvm (s : State) (a : Nat) (f : Fld) (n : Nat) : (s.bumpSat a f n).nvm = s.nvm := rfl
@[simp] theorem State.bumpSat_out (s : State) (a : Nat) (f : Fld) (n : Nat) : (s.bumpSat a f n).out = s.out := rfl
@[simp] theorem State.bumpSat_freeCtr (s : State) (a : Nat) (f : Fld) (n : Nat) : (s.bumpSat a f n).freeCtr = s.freeCtr := rfl
@[simp] theorem State.bumpSat_pending (s : State) (a : Nat) (f : Fld) (n : Nat) : (s.bumpSat a f n).pending = s.pending := rfl

@[simp] theorem State.wr64_now (s : State) (a v : Nat) : (s.wr64 a v).now = s.now := rfl
@[simp] theorem State.wr64_perFn (s : State) (a v : Nat) : (s.wr64 a v).perFn = s.perFn := rfl
@[simp] theorem State.wr64_cycRegs (s : State) (a v : Nat) : (s.wr64 a v).cycRegs = s.cycRegs := rfl
@[simp] theorem State.wr64_cycWrote (s : State) (a v : Nat) : (s.wr64 a v).cycWrote = s.cycWrote := rfl
@[simp] theorem State.wr64_cycSet (s : State) (a v : Nat) : (s.wr64 a v).cycSet = s.cycSet := rfl
@[simp] theorem State.wr64_cycMem (s : State) (a v : Nat) : (s.wr64 a v).cycMem = s.cycMem := rfl
@[simp] theorem State.wr64_past (s : State) (a v : Nat) : (s.wr64 a v).past = s.past := rfl
@[simp] theorem State.wr64_mem (s : State) (a v : Nat) : (s.wr64 a v).mem = s.mem := rfl
@[simp] theorem State.wr64_ecc (s : State) (a v : Nat) : (s.wr64 a v).ecc = s.ecc := rfl
@[simp] theorem State.wr64_imgVals (s : State) (a v : Nat) : (s.wr64 a v).imgVals = s.imgVals := rfl
@[simp] theorem State.wr64_blocks (s : State) (a v : Nat) : (s.wr64 a v).blocks = s.blocks := rfl
@[simp] theorem State.wr64_units (s : State) (a v : Nat) : (s.wr64 a v).units = s.units := rfl
@[simp] theorem State.wr64_clusters (s : State) (a v : Nat) : (s.wr64 a v).clusters = s.clusters := rfl
@[simp] theorem State.wr64_regions (s : State) (a v : Nat) : (s.wr64 a v).regions = s.regions := rfl
@[simp] theorem State.wr64_dies (s : State) (a v : Nat) : (s.wr64 a v).dies = s.dies := rfl
@[simp] theorem State.wr64_hub (s : State) (a v : Nat) : (s.wr64 a v).hub = s.hub := rfl
@[simp] theorem State.wr64_nvm (s : State) (a v : Nat) : (s.wr64 a v).nvm = s.nvm := rfl
@[simp] theorem State.wr64_out (s : State) (a v : Nat) : (s.wr64 a v).out = s.out := rfl
@[simp] theorem State.wr64_freeCtr (s : State) (a v : Nat) : (s.wr64 a v).freeCtr = s.freeCtr := rfl
@[simp] theorem State.wr64_pending (s : State) (a v : Nat) : (s.wr64 a v).pending = s.pending := rfl

/-- A posted write goes to the outside, or waits in the hub while the link stalls: nothing else changes (R345). -/
theorem State.post_cases (s : State) (p : Posted) :
    (s.post p = s.modHub (fun h => { h with postWait := h.postWait ++ [p] }) ∧ s.is DMA_STAT DMA_STAT.STALL = true) ∨
      (s.post p = s.modOut (fun o => { o with posted := p :: o.posted }) ∧ s.is DMA_STAT DMA_STAT.STALL = false) := by
  unfold State.post
  split
  · exact .inl ⟨rfl, ‹_›⟩
  · rename_i h
    exact .inr ⟨rfl, by simpa using h⟩

@[simp] theorem State.post_now (s : State) (p : Posted) : (s.post p).now = s.now := by
  rcases s.post_cases p with h | h <;> rw [h.1] <;> rfl
@[simp] theorem State.post_regs (s : State) (p : Posted) : (s.post p).regs = s.regs := by
  rcases s.post_cases p with h | h <;> rw [h.1] <;> rfl
@[simp] theorem State.post_perFn (s : State) (p : Posted) : (s.post p).perFn = s.perFn := by
  rcases s.post_cases p with h | h <;> rw [h.1] <;> rfl
@[simp] theorem State.post_cycRegs (s : State) (p : Posted) : (s.post p).cycRegs = s.cycRegs := by
  rcases s.post_cases p with h | h <;> rw [h.1] <;> rfl
@[simp] theorem State.post_cycWrote (s : State) (p : Posted) : (s.post p).cycWrote = s.cycWrote := by
  rcases s.post_cases p with h | h <;> rw [h.1] <;> rfl
@[simp] theorem State.post_cycSet (s : State) (p : Posted) : (s.post p).cycSet = s.cycSet := by
  rcases s.post_cases p with h | h <;> rw [h.1] <;> rfl
@[simp] theorem State.post_cycMem (s : State) (p : Posted) : (s.post p).cycMem = s.cycMem := by
  rcases s.post_cases p with h | h <;> rw [h.1] <;> rfl
@[simp] theorem State.post_past (s : State) (p : Posted) : (s.post p).past = s.past := by
  rcases s.post_cases p with h | h <;> rw [h.1] <;> rfl
@[simp] theorem State.post_mem (s : State) (p : Posted) : (s.post p).mem = s.mem := by
  rcases s.post_cases p with h | h <;> rw [h.1] <;> rfl
@[simp] theorem State.post_ecc (s : State) (p : Posted) : (s.post p).ecc = s.ecc := by
  rcases s.post_cases p with h | h <;> rw [h.1] <;> rfl
@[simp] theorem State.post_imgVals (s : State) (p : Posted) : (s.post p).imgVals = s.imgVals := by
  rcases s.post_cases p with h | h <;> rw [h.1] <;> rfl
@[simp] theorem State.post_blocks (s : State) (p : Posted) : (s.post p).blocks = s.blocks := by
  rcases s.post_cases p with h | h <;> rw [h.1] <;> rfl
@[simp] theorem State.post_units (s : State) (p : Posted) : (s.post p).units = s.units := by
  rcases s.post_cases p with h | h <;> rw [h.1] <;> rfl
@[simp] theorem State.post_clusters (s : State) (p : Posted) : (s.post p).clusters = s.clusters := by
  rcases s.post_cases p with h | h <;> rw [h.1] <;> rfl
@[simp] theorem State.post_regions (s : State) (p : Posted) : (s.post p).regions = s.regions := by
  rcases s.post_cases p with h | h <;> rw [h.1] <;> rfl
@[simp] theorem State.post_dies (s : State) (p : Posted) : (s.post p).dies = s.dies := by
  rcases s.post_cases p with h | h <;> rw [h.1] <;> rfl
@[simp] theorem State.post_nvm (s : State) (p : Posted) : (s.post p).nvm = s.nvm := by
  rcases s.post_cases p with h | h <;> rw [h.1] <;> rfl
@[simp] theorem State.post_freeCtr (s : State) (p : Posted) : (s.post p).freeCtr = s.freeCtr := by
  rcases s.post_cases p with h | h <;> rw [h.1] <;> rfl
@[simp] theorem State.post_pending (s : State) (p : Posted) : (s.post p).pending = s.pending := by
  rcases s.post_cases p with h | h <;> rw [h.1] <;> rfl

end Sys2Proof.Machine
end

