-- ==== Sys2Proof/Laws/Ops.lean ====
section
/-! SUPPORT. What the named operations over registers, memory and collections can do: reading after writing, and the canonical
forms that every one of them keeps. -/

namespace Sys2Proof.Machine

/-! ### Collections -/

theorem mapGet_mapDel_same {α : Type} (d : α) (k : Nat) (m : List (Nat × α)) : mapGet d k (mapDel k m) = d := by
  induction m with
  | nil => rfl
  | cons x t ih =>
    obtain ⟨j, v⟩ := x
    by_cases h : j = k <;> simp [mapDel, mapGet, h, ih]

theorem mapGet_mapDel_ne {α : Type} (d : α) {k j : Nat} (h : j ≠ k) (m : List (Nat × α)) :
    mapGet d j (mapDel k m) = mapGet d j m := by
  induction m with
  | nil => rfl
  | cons x t ih =>
    obtain ⟨i, v⟩ := x
    by_cases h1 : i = k
    · subst h1
      simp [mapDel, mapGet, ih, Ne.symm h]
    · rw [mapDel, if_neg h1, mapGet, mapGet, ih]

theorem mapGet_mapIns_same {α : Type} (d : α) (k : Nat) (v : α) (m : List (Nat × α)) (h : ∀ x ∈ m, x.1 ≠ k) :
    mapGet d k (mapIns k v m) = v := by
  induction m with
  | nil => simp [mapIns, mapGet]
  | cons x t ih =>
    obtain ⟨i, w⟩ := x
    have hi : i ≠ k := h (i, w) (by simp)
    by_cases h1 : k < i
    · simp [mapIns, mapGet, h1]
    · simp [mapIns, mapGet, h1, hi, ih (fun x hx => h x (by simp [hx]))]

theorem mapGet_mapIns_ne {α : Type} (d : α) {k j : Nat} (hjk : j ≠ k) (v : α) (m : List (Nat × α)) :
    mapGet d j (mapIns k v m) = mapGet d j m := by
  induction m with
  | nil => simp [mapIns, mapGet, Ne.symm hjk]
  | cons x t ih =>
    obtain ⟨i, w⟩ := x
    by_cases h1 : k < i
    · simp [mapIns, mapGet, h1, Ne.symm hjk]
    · rw [mapIns, if_neg h1, mapGet, mapGet, ih]

theorem mem_mapDel {α : Type} {k : Nat} {x : Nat × α} {m : List (Nat × α)} (h : x ∈ mapDel k m) : x ∈ m ∧ x.1 ≠ k := by
  induction m with
  | nil => simp [mapDel] at h
  | cons y t ih =>
    obtain ⟨i, w⟩ := y
    by_cases h1 : i = k
    · simp [mapDel, h1] at h
      exact ⟨by simp [(ih h).1], (ih h).2⟩
    · simp [mapDel, h1] at h
      rcases h with h | h
      · subst h
        exact ⟨by simp, h1⟩
      · exact ⟨by simp [(ih h).1], (ih h).2⟩

theorem mem_mapIns {α : Type} {k : Nat} {v : α} {x : Nat × α} {m : List (Nat × α)} (h : x ∈ mapIns k v m) :
    x = (k, v) ∨ x ∈ m := by
  induction m with
  | nil => simpa [mapIns] using h
  | cons y t ih =>
    obtain ⟨i, w⟩ := y
    by_cases h1 : k < i
    · simpa [mapIns, h1] using h
    · simp [mapIns, h1] at h
      rcases h with h | h
      · exact .inr (by simp [h])
      · rcases ih h with h | h
        · exact .inl h
        · exact .inr (by simp [h])

/-- Reading a collection after an update. -/
@[simp] theorem mapGet_mapPut {α : Type} [DecidableEq α] (d : α) (k j : Nat) (v : α) (m : List (Nat × α)) :
    mapGet d j (mapPut d k v m) = if j = k then v else mapGet d j m := by
  by_cases h : j = k
  · subst h
    by_cases hv : v = d
    · simp [mapPut, hv, mapGet_mapDel_same]
    · simp [mapPut, hv, mapGet_mapIns_same d j v _ (fun x hx => (mem_mapDel hx).2)]
  · by_cases hv : v = d <;> simp [mapPut, hv, h, mapGet_mapDel_ne d h, mapGet_mapIns_ne d h]

/-- Reading a collection after an update, where the two keys have different defaults. -/
theorem mapGet_mapPut_ne {α : Type} [DecidableEq α] (d d' : α) {k j : Nat} (h : j ≠ k) (v : α) (m : List (Nat × α)) :
    mapGet d j (mapPut d' k v m) = mapGet d j m := by
  by_cases hv : v = d' <;> simp [mapPut, hv, mapGet_mapDel_ne d h, mapGet_mapIns_ne d h]

theorem keys_mapDel {α : Type} (k : Nat) (m : List (Nat × α)) : (mapDel k m).map Prod.fst = (m.map Prod.fst).filter (· ≠ k) := by
  induction m with
  | nil => rfl
  | cons x t ih =>
    obtain ⟨j, v⟩ := x
    by_cases h : j = k <;> simp [mapDel, h] <;> simpa using ih

theorem Canon.mapDel {α : Type} [DecidableEq α] {dflt : Nat → α} {m : List (Nat × α)} (h : Canon dflt m) (k : Nat) :
    Canon dflt (mapDel k m) :=
  ⟨by rw [keys_mapDel]; exact h.1.filter _, fun x hx => h.2 x (mem_mapDel hx).1⟩

theorem pairwise_mapIns {α : Type} {k : Nat} {v : α} {m : List (Nat × α)} (h : (m.map Prod.fst).Pairwise (· < ·))
    (hk : ∀ x ∈ m, x.1 ≠ k) : ((mapIns k v m).map Prod.fst).Pairwise (· < ·) := by
  induction m with
  | nil => simp [mapIns]
  | cons x t ih =>
    obtain ⟨i, w⟩ := x
    have hi : i ≠ k := hk (i, w) (by simp)
    simp only [List.map_cons, List.pairwise_cons, List.mem_map, forall_exists_index, and_imp, forall_apply_eq_imp_iff₂] at h
    by_cases h1 : k < i
    · simp only [mapIns, h1, ↓reduceIte, List.map_cons, List.pairwise_cons, List.mem_cons, List.mem_map, forall_eq_or_imp,
        forall_exists_index, and_imp, forall_apply_eq_imp_iff₂]
      exact ⟨⟨trivial, fun y hy => Nat.lt_trans h1 (h.1 y hy)⟩, h.1, h.2⟩
    · simp only [mapIns, h1, ↓reduceIte, List.map_cons, List.pairwise_cons, List.mem_map, forall_exists_index, and_imp,
        forall_apply_eq_imp_iff₂]
      refine ⟨fun y hy => ?_, ih h.2 (fun x hx => hk x (by simp [hx]))⟩
      rcases mem_mapIns hy with rfl | hy
      · simp only
        omega
      · exact h.1 y hy

/-- An update with a key's own default keeps the canonical form. -/
theorem Canon.mapPut {α : Type} [DecidableEq α] {dflt : Nat → α} {m : List (Nat × α)} (h : Canon dflt m) (k : Nat) (v : α) :
    Canon dflt (mapPut (dflt k) k v m) := by
  by_cases hv : v = dflt k
  · simp only [Machine.mapPut, hv, ↓reduceIte]
    exact h.mapDel k
  · simp only [Machine.mapPut, hv, ↓reduceIte]
    have hd := h.mapDel k
    refine ⟨pairwise_mapIns hd.1 (fun x hx => (mem_mapDel hx).2), fun x hx => ?_⟩
    rcases mem_mapIns hx with rfl | hx
    · exact hv
    · exact hd.2 x hx

theorem Canon.filter {α : Type} [DecidableEq α] {dflt : Nat → α} {m : List (Nat × α)} (h : Canon dflt m) (p : Nat × α → Bool) :
    Canon dflt (m.filter p) :=
  ⟨h.1.sublist (List.filter_sublist.map _), fun x hx => h.2 x (List.mem_filter.mp hx).1⟩

/-- Canonical collections that read alike are equal. -/
theorem Canon.nil {α : Type} [DecidableEq α] (dflt : Nat → α) : Canon dflt [] := by simp [Canon]

/-! ### Registers -/

/-- Reading a register after a write of a register. -/
theorem State.rd_wr (s : State) (a b : Nat) (v : Word) : (s.wr a v).rd b = if b = a then v else s.rd b := by
  by_cases h : b = a
  · subst h
    simp [State.rd, State.wr]
  · simp [State.rd, State.wr, h, mapGet_mapPut_ne]

@[simp] theorem State.rd_wr_same (s : State) (a : Nat) (v : Word) : (s.wr a v).rd a = v := by simp [State.rd_wr]

theorem State.rd_wr_ne (s : State) {a b : Nat} (v : Word) (h : b ≠ a) : (s.wr a v).rd b = s.rd b := by simp [State.rd_wr, h]

/-- Updates of other fields leave every register. -/
theorem State.rd_congr {s t : State} (h : t.regs = s.regs) (a : Nat) : t.rd a = s.rd a := by simp [State.rd, h]

@[simp] theorem State.rd_setByte (s : State) (a b : Nat) (v : BitVec 8) : (s.setByte a v).rd b = s.rd b := rfl
@[simp] theorem State.rd_setUnit (s : State) (p b : Nat) (u : UnitState) : (s.setUnit p u).rd b = s.rd b := rfl
@[simp] theorem State.rd_modUnit (s : State) (p b : Nat) (g : UnitState → UnitState) : (s.modUnit p g).rd b = s.rd b := rfl
@[simp] theorem State.rd_modCluster (s : State) (k b : Nat) (g : ClusterState → ClusterState) :
    (s.modCluster k g).rd b = s.rd b := rfl
@[simp] theorem State.rd_modRegion (s : State) (t b : Nat) (g : RegionState → RegionState) :
    (s.modRegion t g).rd b = s.rd b := rfl
@[simp] theorem State.rd_modSeq (s : State) (t b : Nat) (g : SeqState → SeqState) : (s.modSeq t g).rd b = s.rd b := rfl
@[simp] theorem State.rd_modPlayer (s : State) (t b : Nat) (g : PlayerState → PlayerState) :
    (s.modPlayer t g).rd b = s.rd b := rfl
@[simp] theorem State.rd_modDie (s : State) (d b : Nat) (g : DieState → DieState) : (s.modDie d g).rd b = s.rd b := rfl
@[simp] theorem State.rd_modHub (s : State) (b : Nat) (g : HubState → HubState) : (s.modHub g).rd b = s.rd b := rfl
@[simp] theorem State.rd_modClk (s : State) (b : Nat) (g : ClockState → ClockState) : (s.modClk g).rd b = s.rd b := rfl
@[simp] theorem State.rd_modOut (s : State) (b : Nat) (g : Outputs → Outputs) : (s.modOut g).rd b = s.rd b := rfl
@[simp] theorem State.rd_modNvm (s : State) (b : Nat) (g : NvmState → NvmState) : (s.modNvm g).rd b = s.rd b := rfl
@[simp] theorem State.rd_journal (s : State) (b : Nat) (r : JRec) : (s.journal r).rd b = s.rd b := rfl
@[simp] theorem State.rd_latch (s : State) (f a b : Nat) (v : Word) : (s.latch f a v).rd b = s.rd b := rfl
@[simp] theorem State.rd_setMsix (s : State) (f o b : Nat) (v : Word) : (s.setMsix f o v).rd b = s.rd b := rfl
@[simp] theorem State.rd_setEcc (s : State) (w e b : Nat) : (s.setEcc w e).rd b = s.rd b := rfl
@[simp] theorem State.rd_advance (s : State) (t b : Nat) : (s.advance t).rd b = s.rd b := rfl
@[simp] theorem State.rd_post (s : State) (p : Posted) (b : Nat) : (s.post p).rd b = s.rd b := State.rd_congr (State.post_regs s p) b
@[simp] theorem State.rd_answerMem (s : State) (f : Nat) (bs : List (BitVec 8)) (b : Nat) : (s.answerMem f bs).rd b = s.rd b := rfl
@[simp] theorem State.rd_setOcc (s : State) (n : Nat) (o : Occ) (b : Nat) : (s.setOcc n o).rd b = s.rd b := rfl
@[simp] theorem State.rd_modArea (s : State) (a b : Nat) (g : NvmArea → NvmArea) : (s.modArea a g).rd b = s.rd b := rfl
@[simp] theorem State.rd_noteSet (s : State) (a : Nat) (m : Word) (b : Nat) : (s.noteSet a m).rd b = s.rd b := rfl
@[simp] theorem State.rd_wroteNow (s : State) (a : Nat) (v : Word) (b : Nat) : (s.wroteNow a v).rd b = s.rd b := rfl
@[simp] theorem State.rd_wroteMem (s : State) (a n b : Nat) : (s.wroteMem a n).rd b = s.rd b := rfl
@[simp] theorem State.rd_ropeSend (s : State) (port : Nat) (x : RopeSlot) (b : Nat) : (s.ropeSend port x).rd b = s.rd b := rfl
@[simp] theorem State.rd_answer (s : State) (f : Nat) (w : Word) (b : Nat) : (s.answer f w).rd b = s.rd b := rfl
@[simp] theorem State.rd_drew (s : State) (b : Nat) : s.drew.rd b = s.rd b := rfl

/-! ### Fields -/

theorem getLsbD_fldMask (f : Fld) (i : Nat) (hi : i < 32) : (fldMask f).getLsbD i = (decide (f.lo ≤ i) && decide (i < f.lo + f.len)) := by
  simp only [fldMask, BitVec.getLsbD_shiftLeft, BitVec.getLsbD_ofNat, Nat.testBit_two_pow_sub_one, hi, decide_true, Bool.true_and]
  by_cases h : f.lo ≤ i
  · have h1 : ¬ i < f.lo := by omega
    have h2 : i - f.lo < 32 := by omega
    have h3 : (i - f.lo < f.len) = (i < f.lo + f.len) := by
      apply propext
      omega
    simp [h, h1, h2, h3]
  · have h1 : i < f.lo := by omega
    simp [h, h1]

theorem testBit_getFld (w : Word) (f : Fld) (i : Nat) : (getFld w f).testBit i = (decide (i < f.len) && w.getLsbD (f.lo + i)) := by
  simp only [getFld, Nat.testBit_mod_two_pow, Nat.testBit_shiftRight, BitVec.testBit_toNat]

/-- The bits of a word after a field was set. -/
theorem getLsbD_setFld (w : Word) (f : Fld) (v i : Nat) (hi : i < 32) :
    (setFld w f v).getLsbD i = if f.lo ≤ i ∧ i < f.lo + f.len then v.testBit (i - f.lo) else w.getLsbD i := by
  have h2 : i - f.lo < 32 := by omega
  simp only [setFld, BitVec.getLsbD_or, BitVec.getLsbD_and, BitVec.getLsbD_not, getLsbD_fldMask f i hi, BitVec.getLsbD_shiftLeft,
    BitVec.getLsbD_ofNat, Nat.testBit_mod_two_pow, hi, h2, decide_true, Bool.true_and]
  by_cases h1 : f.lo ≤ i
  · have h3 : ¬ i < f.lo := by omega
    by_cases h4 : i < f.lo + f.len
    · have h5 : i - f.lo < f.len := by omega
      simp [h1, h3, h4, h5]
    · have h5 : ¬ i - f.lo < f.len := by omega
      simp [h1, h3, h4, h5]
  · have h3 : i < f.lo := by omega
    simp [h1, h3]

/-- Reading a field after writing it: the value modulo the field's width. -/
theorem getFld_setFld_same (w : Word) (f : Fld) (v : Nat) (h : f.lo + f.len ≤ 32) : getFld (setFld w f v) f = v % 2 ^ f.len := by
  apply Nat.eq_of_testBit_eq
  intro i
  rw [testBit_getFld, Nat.testBit_mod_two_pow]
  by_cases hi : i < f.len
  · rw [getLsbD_setFld w f v _ (by omega), if_pos ⟨by omega, by omega⟩, Nat.add_sub_cancel_left]
  · simp [hi]

/-- Reading a field after writing another that shares no bit with it. -/
theorem getFld_setFld_ne (w : Word) (f g : Fld) (v : Nat) (hg : g.lo + g.len ≤ 32)
    (h : g.lo + g.len ≤ f.lo ∨ f.lo + f.len ≤ g.lo) : getFld (setFld w f v) g = getFld w g := by
  apply Nat.eq_of_testBit_eq
  intro i
  rw [testBit_getFld, testBit_getFld]
  by_cases hi : i < g.len
  · rw [getLsbD_setFld w f v _ (by omega), if_neg (by omega)]
  · simp [hi]

theorem State.rdF_wr (s : State) (a b : Nat) (v : Word) (f : Fld) :
    (s.wr a v).rdF b f = if b = a then getFld v f else s.rdF b f := by
  simp only [State.rdF, State.rd_wr]
  split <;> rfl

theorem State.rdF_wrF_same (s : State) (a : Nat) (f : Fld) (v : Nat) (h : f.lo + f.len ≤ 32) :
    (s.wrF a f v).rdF a f = v % 2 ^ f.len := by
  simp [State.rdF, State.wrF, getFld_setFld_same _ _ _ h]

theorem State.rdF_wrF_ne (s : State) (a : Nat) (f g : Fld) (v : Nat) (hg : g.lo + g.len ≤ 32)
    (h : g.lo + g.len ≤ f.lo ∨ f.lo + f.len ≤ g.lo) : (s.wrF a f v).rdF a g = s.rdF a g := by
  simp [State.rdF, State.wrF, getFld_setFld_ne _ _ _ _ hg h]

theorem State.rdF_wrF_other (s : State) {a b : Nat} (f g : Fld) (v : Nat) (h : b ≠ a) : (s.wrF a f v).rdF b g = s.rdF b g := by
  simp [State.rdF, State.wrF, State.rd_wr, h]

theorem State.rd_wrF_other (s : State) {a b : Nat} (f : Fld) (v : Nat) (h : b ≠ a) : (s.wrF a f v).rd b = s.rd b := by
  simp [State.wrF, State.rd_wr, h]

/-- Setting a flag writes its field, and notes the bit for R9. -/
theorem State.rd_flag (s : State) (a b : Nat) (f : Fld) (x : Bool) : (s.flag a f x).rd b = (s.wrF a f (b2n x)).rd b := rfl

theorem State.rdF_flag (s : State) (a b : Nat) (f g : Fld) (x : Bool) : (s.flag a f x).rdF b g = (s.wrF a f (b2n x)).rdF b g := rfl

theorem State.rd_flag_other (s : State) {a b : Nat} (f : Fld) (x : Bool) (h : b ≠ a) : (s.flag a f x).rd b = s.rd b := by
  rw [State.rd_flag, State.rd_wrF_other _ _ _ h]

theorem State.rdF_congr {s t : State} {a : Nat} (h : t.rd a = s.rd a) (f : Fld) : t.rdF a f = s.rdF a f := by
  simp [State.rdF, h]

theorem State.is_congr {s t : State} {a : Nat} (h : t.rd a = s.rd a) (f : Fld) : t.is a f = s.is a f := by
  simp [State.is, State.rdF, h]

/-- A flag just set reads as it was set. -/
theorem State.is_flag_same (s : State) (a : Nat) (f : Fld) (b : Bool) (h1 : f.len = 1) (h : f.lo < 32) : (s.flag a f b).is a f = b := by
  have h2 : f.lo + f.len ≤ 32 := by omega
  simp only [State.is, State.rdF_flag, State.rdF_wrF_same s a f _ h2, h1]
  cases b <;> rfl

/-- A flag set leaves every flag of the same register that shares no bit with it. -/
theorem State.is_flag_ne (s : State) (a : Nat) (f g : Fld) (b : Bool) (hg : g.lo + g.len ≤ 32)
    (h : g.lo + g.len ≤ f.lo ∨ f.lo + f.len ≤ g.lo) : (s.flag a f b).is a g = s.is a g := by
  simp only [State.is, State.rdF_flag, State.rdF_wrF_ne s a f g _ hg h]

/-- A flag set leaves every flag of another register. -/
theorem State.is_flag_other (s : State) {a c : Nat} (f g : Fld) (b : Bool) (h : c ≠ a) : (s.flag a f b).is c g = s.is c g := by
  simp only [State.is, State.rdF_flag, State.rdF_wrF_other s f g _ h]

/-! ### Memory -/

/-- Reading a byte after a write of a byte. -/
theorem State.byte_setByte (s : State) (a b : Nat) (v : BitVec 8) : (s.setByte a v).byte b = if b = a then v else s.byte b := by
  simp [State.byte, State.setByte]

theorem State.byte_congr {s t : State} (h : t.mem = s.mem) (a : Nat) : t.byte a = s.byte a := by simp [State.byte, h]

/-- Reading a byte after a write of several: the byte written there, or the one before. -/
theorem State.byte_setBytes (s : State) (a b : Nat) (bs : List (BitVec 8)) :
    (s.setBytes a bs).byte b = if h : a ≤ b ∧ b < a + bs.length then bs[b - a] else s.byte b := by
  induction bs generalizing s a with
  | nil =>
    have : ¬ (a ≤ b ∧ b < a + ([] : List (BitVec 8)).length) := by
      simp only [List.length_nil]
      omega
    rw [dif_neg this]
    rfl
  | cons x t ih =>
    rw [State.setBytes, ih]
    by_cases h1 : b = a
    · subst h1
      have h2 : ¬ (b + 1 ≤ b ∧ b < b + 1 + t.length) := by omega
      have h3 : b ≤ b ∧ b < b + (x :: t).length := ⟨Nat.le_refl _, by simp⟩
      rw [dif_neg h2, dif_pos h3]
      simp [State.byte_setByte]
    · by_cases h2 : a + 1 ≤ b ∧ b < a + 1 + t.length
      · have h3 : a ≤ b ∧ b < a + (x :: t).length := by
          simp only [List.length_cons]
          omega
        rw [dif_pos h2, dif_pos h3]
        have h4 : b - a = (b - (a + 1)) + 1 := by omega
        simp [h4]
      · have h3 : ¬ (a ≤ b ∧ b < a + (x :: t).length) := by
          simp only [List.length_cons]
          omega
        rw [dif_neg h2, dif_neg h3, State.byte_setByte, if_neg h1]

/-! ### The invariant -/

theorem State.Inv.wr {s : State} (h : s.Inv) (a : Nat) (v : Word) : (s.wr a v).Inv := ⟨h.1, h.2.mapPut a v⟩

theorem State.Inv.setByte {s : State} (h : s.Inv) (a : Nat) (v : BitVec 8) : (s.setByte a v).Inv :=
  ⟨Canon.mapPut (dflt := fun _ => memDefault) h.1 a v, h.2⟩

theorem State.Inv.setBytes {s : State} (h : s.Inv) (a : Nat) (bs : List (BitVec 8)) : (s.setBytes a bs).Inv := by
  induction bs generalizing s a with
  | nil => exact h
  | cons x t ih => exact ih (h.setByte a x) (a + 1)

theorem State.Inv.each {α : Type} {s : State} (h : s.Inv) (l : List α) (g : State → α → State)
    (hg : ∀ t x, t.Inv → (g t x).Inv) : (s.each l g).Inv := by
  unfold State.each
  induction l generalizing s with
  | nil => exact h
  | cons x t ih => exact ih (hg s x h)

theorem State.Inv.resetRegs {s : State} (h : s.Inv) (lo hi : Nat) (keep : Nat → Bool) : (s.resetRegs lo hi keep).Inv := by
  refine ⟨h.1, ?_⟩
  simp only [State.resetRegs]
  have := h.2.filter (fun r => !(lo ≤ r.1 && r.1 < hi && !keep r.1))
  revert this
  generalize s.regs.filter _ = m
  generalize s.imgVals.filter _ = l
  intro hm
  induction l generalizing m with
  | nil => exact hm
  | cons x t ih => exact ih _ (hm.mapPut x.1 x.2)

theorem State.Inv.resetMasked {s : State} (h : s.Inv) (reach : Nat → Bool) (keep : Nat → Word) : (s.resetMasked reach keep).Inv := by
  unfold State.resetMasked
  generalize ((s.regs.map Prod.fst) ++ (s.imgVals.map Prod.fst)).filter reach = l
  induction l generalizing s with
  | nil => exact h
  | cons x t ih => exact ih (h.wr x _)

end Sys2Proof.Machine
end

