-- ==== Sys2Proof/Laws/Access.lean ====
section
/-! SUPPORT. Blocks of registers by address, and the whole of what a host write does: refused, or carried out. -/

namespace Sys2Proof.Machine

/-! ### Blocks -/

theorem blockOf_unit {p o : Nat} (hp : p < 256) (ho : o < 0x1000) : blockOf (unitBase p + o) = some (.unit, p, o) := by
  obtain ⟨d, g, u, hd, hg, hu, rfl⟩ : ∃ d g u, d < 4 ∧ g < 4 ∧ u < 16 ∧ p = 64 * d + 16 * g + u :=
    ⟨p / 64, p / 16 % 4, p % 16, by omega, by omega, by omega, by omega⟩
  have e1 : (64 * d + 16 * g + u) / 16 = 4 * d + g := by omega
  have e2 : (64 * d + 16 * g + u) % 16 = u := by omega
  have e3 : (4 * d + g) / 4 = d := by omega
  have e4 : (4 * d + g) % 4 = g := by omega
  have h0 : unitBase (64 * d + 16 * g + u) + o = 0x1000000 * (d + 1) + (0x200000 * (g + 1) + 0x80000 + 0x1000 * u + o) := by
    simp only [unitBase, rgnBase, dieBase, e1, e2, e3, e4]
    omega
  have h1 : (0x1000000 * (d + 1) + (0x200000 * (g + 1) + 0x80000 + 0x1000 * u + o)) / 0x1000000 = d + 1 := by omega
  have h2 : (0x1000000 * (d + 1) + (0x200000 * (g + 1) + 0x80000 + 0x1000 * u + o)) % 0x1000000 =
      0x200000 * (g + 1) + 0x80000 + 0x1000 * u + o := by omega
  have h3 : ¬ (d + 1 = 0) := by omega
  have h4 : d + 1 ≤ 4 := by omega
  have h5 : ¬ (0x200000 * (g + 1) + 0x80000 + 0x1000 * u + o < 0x200000) := by omega
  have h6 : 0x200000 * (g + 1) + 0x80000 + 0x1000 * u + o < 0xA00000 := by omega
  have h7 : (0x200000 * (g + 1) + 0x80000 + 0x1000 * u + o) % 0x200000 / 0x10000 = 8 := by omega
  have h8 : 16 * (4 * (d + 1 - 1) + ((0x200000 * (g + 1) + 0x80000 + 0x1000 * u + o) / 0x200000 - 1)) +
    (0x200000 * (g + 1) + 0x80000 + 0x1000 * u + o) % 0x200000 % 0x10000 / 0x1000 = 64 * d + 16 * g + u := by omega
  have h9 : (0x200000 * (g + 1) + 0x80000 + 0x1000 * u + o) % 0x200000 % 0x10000 % 0x1000 = o := by omega
  rw [h0]
  unfold blockOf
  simp only [h1, h2]
  rw [if_neg h3, if_pos h4, if_neg h5, if_pos h6]
  simp only [h7, h8, h9]

/-- The block at `0x10000 · k` of region `t`, for the blocks below the units. -/
theorem blockOf_region {t k o : Nat} (ht : t < 16) (hk : k < 6) (ho : o < 0x10000) :
    blockOf (rgnBase t + 0x10000 * k + o) =
      some ((match k with | 0 => .rgn | 1 => .seq | 2 => .eng | 3 => .prf | 4 => .mea | _ => .rdc), t, o) := by
  have h1 : (rgnBase t + 0x10000 * k + o) / 0x1000000 = t / 4 + 1 := by
    simp only [rgnBase, dieBase]
    omega
  have h2 : (rgnBase t + 0x10000 * k + o) % 0x1000000 = 0x200000 * (t % 4 + 1) + 0x10000 * k + o := by
    simp only [rgnBase, dieBase]
    omega
  unfold blockOf
  simp only [h1, h2]
  have h3 : ¬ (t / 4 + 1 = 0) := by omega
  have h4 : t / 4 + 1 ≤ 4 := by omega
  have h5 : ¬ (0x200000 * (t % 4 + 1) + 0x10000 * k + o < 0x200000) := by omega
  have h6 : 0x200000 * (t % 4 + 1) + 0x10000 * k + o < 0xA00000 := by omega
  have h7 : (0x200000 * (t % 4 + 1) + 0x10000 * k + o) % 0x200000 / 0x10000 = k := by omega
  have h8 : 4 * (t / 4 + 1 - 1) + ((0x200000 * (t % 4 + 1) + 0x10000 * k + o) / 0x200000 - 1) = t := by omega
  have h9 : (0x200000 * (t % 4 + 1) + 0x10000 * k + o) % 0x200000 % 0x10000 = o := by omega
  rw [if_neg h3, if_pos h4, if_neg h5, if_pos h6]
  simp only [h7, h8, h9]
  have hk' : k = 0 ∨ k = 1 ∨ k = 2 ∨ k = 3 ∨ k = 4 ∨ k = 5 := by omega
  rcases hk' with rfl | rfl | rfl | rfl | rfl | rfl <;> rfl

/-- The block at `0x10000 · k` of die `d`. -/
theorem blockOf_die {d k o : Nat} (hd : d < 4) (hk : k < 5) (ho : o < 0x10000) :
    blockOf (dieBase d + 0x10000 * k + o) =
      some ((match k with | 0 => .die | 1 => .evt | 2 => .dtmp | 3 => .site | _ => .mem), d, o) := by
  have h1 : (dieBase d + 0x10000 * k + o) / 0x1000000 = d + 1 := by
    simp only [dieBase]
    omega
  have h2 : (dieBase d + 0x10000 * k + o) % 0x1000000 = 0x10000 * k + o := by
    simp only [dieBase]
    omega
  unfold blockOf
  simp only [h1, h2]
  have h3 : ¬ (d + 1 = 0) := by omega
  have h4 : d + 1 ≤ 4 := by omega
  have h5 : 0x10000 * k + o < 0x200000 := by omega
  have h7 : (0x10000 * k + o) / 0x10000 = k := by omega
  have h8 : d + 1 - 1 = d := by omega
  have h9 : (0x10000 * k + o) % 0x10000 = o := by omega
  rw [if_neg h3, if_pos h4, if_pos h5]
  simp only [h7, h8, h9]
  have hk' : k = 0 ∨ k = 1 ∨ k = 2 ∨ k = 3 ∨ k = 4 := by omega
  rcases hk' with rfl | rfl | rfl | rfl | rfl <;> rfl

/-! ### Host writes -/

/-- A transfer on a quiet spine changes nothing. -/
theorem State.spineXfer_quiet {s : State} {d : Nat} (h : s.spineQuiet d = true) (dir : Nat) : s.spineXfer d dir = s := by
  simp only [State.spineQuiet, Bool.and_eq_true, decide_eq_true_eq] at h
  unfold State.spineXfer State.spinePassed
  rw [if_pos h.1]
  have h2 := h.2
  dsimp only
  split
  · rename_i j hj
    rw [hj] at h2
    simp only [Bool.not_eq_true', Bool.and_eq_false_iff, decide_eq_false_iff_not] at h2
    rw [if_neg]
    simp only [Bool.and_eq_true, decide_eq_true_eq]
    rintro ⟨⟨h3, h4⟩, -⟩
    rcases h2 with h | h
    · exact h h3
    · exact h h4
  · rfl

/-- What a host write that is carried out does: its effect, after the squash of the footholds that read the register. -/
theorem State.hostWrite_carried {s : State} {f a : Nat} {v : Word} (h : s.Carried f a v) (k : State → State) :
    s.hostWrite f a v k = k ((s.wroteNow a v).regSquash a) := by
  obtain ⟨h0, h1, h2, h3⟩ := h
  have key : s.reachWrite a v k = k ((s.wroteNow a v).regSquash a) := by
    unfold State.awake at h3
    unfold State.reachWrite
    split
    · rename_i t ht
      rw [ht] at h3
      simp only [Bool.or_eq_true, Bool.not_eq_true', decide_eq_true_eq] at h3
      rcases h3 with h | h <;> simp [h]
    · rfl
  unfold State.reachable at h2
  unfold State.hostWrite State.guardWrite
  rw [h0, h1]
  simp only [Bool.not_true, Bool.false_eq_true, ↓reduceIte]
  split
  · exact key
  · rename_i d hd
    rw [hd] at h2
    simp only [Bool.and_eq_true, Bool.not_eq_true'] at h2
    rw [h2.1.1, h2.1.2, State.spineXfer_quiet h2.2]
    exact key

/-- A refused host write does nothing but its log. -/
theorem State.hostWrite_refused {s : State} {f a r : Nat} {v : Word} (h0 : s.accepts = true) (h : s.refusal f a true v = some r)
    (k : State → State) : s.hostWrite f a v k = s.refuse f a true false r := by
  simp [State.hostWrite, State.guardWrite, h0, h]

/-- A host write to a package in reset is lost (R408, R465). -/
theorem State.hostWrite_reset {s : State} (h : s.accepts = false) (f a : Nat) (v : Word) (k : State → State) :
    s.hostWrite f a v k = s := by
  simp [State.hostWrite, State.guardWrite, h]

/-- Only SEQ_ registers and CH_MODE are read by footholds. -/
theorem State.regSquash_other {s : State} {a : Nat} (h : ∀ t o, blockOf a ≠ some (.seq, t, o))
    (h4 : ∀ p, blockOf a ≠ some (.unit, p, 4)) : s.regSquash a = s := by
  unfold State.regSquash
  split
  · rename_i t o ht
    exact absurd ht (h t o)
  · rename_i p hp
    exact absurd hp (h4 p)
  · rfl

end Sys2Proof.Machine
end

