-- ==== Sys2Proof/WellFormed.lean ====
section
/-! DEFINITION. Well-formed commands: what the spec demands of a command's operands beyond their types. A command's meaning is
total all the same; an ill-formed command is one that the outside world cannot send. -/

namespace Sys2Proof

/-- Every timestamp is 64 bits (R46). -/
def tsOk (t : Nat) : Bool := t < 2 ^ 64

/-- The block of a die (0 to 12) or of the hub (die 4, block 16) exists (R430 of 14_faults_availability_life.md). -/
def cfgBlockOk (d : Fin 5) (b : Fin 17) : Bool := if d.val < 4 then b.val ≤ 12 else b.val = 16

/-- The instance of a reaction domain exists: 256 units, 64 clusters, 16 regions, 4 dies, one package (R418). -/
def domainOk (level : Fin 5) (inst : Fin 256) : Bool :=
  match level.val with
  | 0 => true
  | 1 => inst.val < 64
  | 2 => inst.val < 16
  | 3 => inst.val < 4
  | _ => inst.val = 0

/-- A read request asks for at most 4,096 bytes, the greatest a PCI Express request can. -/
def moreOk (more : Nat) : Bool := more < 1024

/-- The well-formed commands. -/
def Instr.wf : Instr → Bool
  | .syncPulse cmp hops drift =>
    (cmp.length = 0 || cmp.length = 256) && (hops.length = 0 || hops.length = 63) && drift.length ≤ 4
  | .alignMarkerRx pkg sent turn => pkg < 16 && tsOk sent && tsOk turn
  | .alignReturnRx back turn => tsOk back && tsOk turn
  | .alignLoad sent tow up => tsOk sent && tsOk tow && tsOk up
  | .calendarSlotRx sec start => sec < 2 ^ 48 && tsOk start
  | .loopPeriod _ v i pil sup => v.length = 16 && i.length = 16 && pil.length = 4 && sup.length = 8
  | .pilotSelfTrimDone _ _ _ refs => refs.length ≤ 3
  | .recalDone _ data => data.length = 11
  | .systemEventRx _ _ issue _ _ _ => tsOk issue
  | .ropeFrameRx _ frame _ _ => frame.length = 128
  | .shadowEnd level inst => domainOk level inst
  | .cfgCrcCheck upset => upset.all (fun x => x.1 % 4 = 0 && x.1 < 0x8000000)
  | .cfgReload d b => cfgBlockOk d b
  | .registerWrite _ a _ vs => a.val % 4 = 0 && vs ≠ [] && vs.length ≤ 1024
  | .bar2Write _ a bs => (bs.1 ≠ [] || bs.2 ≠ []) && bs.1.length ≤ 4096 && a.val + bs.1.length ≤ 2 ^ 28 &&
      bs.2.all (fun x => x.2.2.val ≠ 0 && x.2.1.val + x.2.2.val ≤ 2 ^ 28)
  | .smbOtherCommand code => code.toNat ∉ [0x00, 0x01, 0x02, 0x03, 0x10, 0x11, 0x12, 0x13, 0x14, 0x15]
  | .jtagBypass code => code.toNat ∉ [0x00, 0x02, 0x04, 0x05]
  | .tsLoRead _ more => moreOk more.1 && more.2.all (fun x => x.2.1.val % 4 = 0 && moreOk x.2.2)
  | .calFracRead _ more | .mbxRxcRead _ more | .serialLoRead _ more | .lifeOpsLoRead _ more
  | .lifeArrLoRead _ more | .lifeLastStopTsLoRead _ more => moreOk more
  | .rdcProdLoRead _ _ more | .imgNlMinLoRead _ _ more | .prfSeqtLoRead _ _ more | .meaULastvLoRead _ _ more
  | .meaULastiLoRead _ _ more | .fltFirstTsLoRead _ _ more => moreOk more
  | .evtCapLoRead _ _ _ more => moreOk more
  | _ => true

end Sys2Proof
end

