-- ==== Sys2Proof/Tests/Slice0.lean ====
section
/-! SUPPORT. Tests of this model's own: an ill-formed command for each check of WellFormed, results worked out by hand from the
spec's rules, and states that meet the hypotheses of the statements. -/

namespace Sys2Proof.Machine

/-! ### Ill-formed commands -/

theorem test_illFormed_syncPulse_cmp : Instr.wf (.syncPulse [1] [] []) = false := by decide

theorem test_illFormed_syncPulse_hops : Instr.wf (.syncPulse [] [1] []) = false := by decide

theorem test_illFormed_syncPulse_slips : Instr.wf (.syncPulse [] [] [(0, 1#64), (1, 1#64), (2, 1#64), (3, 1#64), (0, 2#64)]) = false := by decide

theorem test_illFormed_alignMarkerRx : Instr.wf (.alignMarkerRx 16 0 0) = false ∧
    Instr.wf (.alignMarkerRx 0 (2 ^ 64) 0) = false ∧ Instr.wf (.alignMarkerRx 0 0 (2 ^ 64)) = false := by decide

theorem test_illFormed_alignReturnRx : Instr.wf (.alignReturnRx (2 ^ 64) 0) = false ∧
    Instr.wf (.alignReturnRx 0 (2 ^ 64)) = false := by decide

theorem test_illFormed_alignLoad : Instr.wf (.alignLoad (2 ^ 64) 0 0) = false ∧ Instr.wf (.alignLoad 0 (2 ^ 64) 0) = false ∧
    Instr.wf (.alignLoad 0 0 (2 ^ 64)) = false := by decide

theorem test_illFormed_calendarSlotRx : Instr.wf (.calendarSlotRx (2 ^ 48) 0) = false ∧
    Instr.wf (.calendarSlotRx 0 (2 ^ 64)) = false := by decide

theorem test_illFormed_loopPeriod : Instr.wf (.loopPeriod 0 [] [] [] []) = false := by decide

theorem test_illFormed_pilotSelfTrimDone : Instr.wf (.pilotSelfTrimDone 0 0 0 [0, 0, 0, 0]) = false := by decide

theorem test_illFormed_recalDone : Instr.wf (.recalDone 0 []) = false := by decide

theorem test_illFormed_systemEventRx : Instr.wf (.systemEventRx 0 0 (2 ^ 64) (0, 0) (0, false) 0) = false := by decide

theorem test_illFormed_ropeFrameRx : Instr.wf (.ropeFrameRx 0 [] 0 []) = false := by decide

theorem test_illFormed_shadowEnd : Instr.wf (.shadowEnd 1 64) = false ∧ Instr.wf (.shadowEnd 2 16) = false ∧
    Instr.wf (.shadowEnd 3 4) = false ∧ Instr.wf (.shadowEnd 4 1) = false := by decide

theorem test_illFormed_cfgCrcCheck : Instr.wf (.cfgCrcCheck [(1, 1#32)]) = false := by decide

theorem test_illFormed_cfgReload : Instr.wf (.cfgReload 0 16) = false ∧ Instr.wf (.cfgReload 4 12) = false := by decide

theorem test_illFormed_registerWrite : Instr.wf (.registerWrite 0 2 0xF#4 [0#32]) = false ∧
    Instr.wf (.registerWrite 0 0 0xF#4 []) = false := by decide

theorem test_illFormed_bar2Write : Instr.wf (.bar2Write 0 0 ([], [])) = false ∧
    Instr.wf (.bar2Write 0 0xFFFFFFF ([0#8, 0#8], [])) = false ∧ Instr.wf (.bar2Write 0 0 ([], [(0, 0, 0)])) = false := by decide

theorem test_illFormed_smbOtherCommand : Instr.wf (.smbOtherCommand 0x10) = false := by decide

theorem test_illFormed_jtagBypass : Instr.wf (.jtagBypass 0x02) = false := by decide

theorem test_illFormed_read : Instr.wf (.tsLoRead 0 (1024, [])) = false ∧ Instr.wf (.tsLoRead 0 (0, [(0, 2, 0)])) = false ∧ Instr.wf (.rdcProdLoRead 0 0 1024) = false ∧
    Instr.wf (.evtCapLoRead 0 0 0 1024) = false := by decide

/-! ### Results worked out by hand -/

/-- R432 and the register tables: a package after reset has no latched fault source, and every region is in nightlight mode. -/
theorem test_reset_quiet : State.reset.is (FLT_SRC_STAT 0) FLT_SRC_STAT.LATCHED = false ∧ State.reset.nightlight 15 = true := by
  decide

/-- R454: a write of another function to a unit of a region that PF0 owns is refused with reason OWNER. -/
theorem test_refusal_owner : State.reset.refusal 3 (CH_SETPT 0) true 5#32 = some 1 := by decide

/-- R460: the refused write counts, and HUB_SEC_LAST shows VALID, a write, and the reason. -/
theorem test_refusal_log : (State.reset.refuse 3 (CH_SETPT 0) true false 1).rd (HUB_SEC_LAST 3) = 0x80000011#32 := by decide

/-- R66: SYNC_OUT at every LCLK edge, 800 ticks apart. -/
theorem test_nextMultiple : nextMultiple 800 1 = 800 ∧ nextMultiple 800 800 = 800 ∧ nextMultiple 800 801 = 1600 := by decide

/-- The table of commands gives no bits to any row, so that no word spells a command. -/
theorem test_decode_none : Sys2Proof.decodeTableWord 32 0 = none := by rfl

/-! ### Hypotheses that something meets -/

theorem test_witness_StepKeepsTheInvariant :
    State.reset.Inv ∧ step State.reset = .next (State.reset.advance (State.reset.now + 1)) := by
  exact ⟨by decide, rfl⟩

theorem test_witness_RefusedWritesChangeNothingButTheLog :
    State.reset.hostTarget (.setptWrite 3 200 9#32) = some (3, CH_SETPT 200, 9#32) ∧
      State.reset.accepts = true ∧ State.reset.refusal 3 (CH_SETPT 200) true 9#32 = some rsnOwner := by decide

theorem test_witness_CarriedWritesTakeEffect :
    State.reset.Carried 0 HUB_CAL_CTRL 1#32 ∧ (blockOf HUB_CAL_CTRL).map Prod.fst = some .time ∧
      (State.reset.modHub (fun h => { h with rstWait := true })).accepts = false := by decide

theorem test_witness_AcknowledgingASource :
    State.reset.Carried 0 (FLT_SRC_STAT 544) 2#32 ∧ State.reset.is (FLT_SRC_STAT 544) FLT_SRC_STAT.LIVE = false ∧
      (State.reset.advance 800).inCycle ((State.reset.advance 800).occ 544).at' = false ∧ State.reset.inCycle (State.reset.occ 0).at' = true ∧
      (State.reset.flag (FLT_SRC_STAT 0) FLT_SRC_STAT.LATCHED true).is (FLT_SRC_STAT 0) FLT_SRC_STAT.LATCHED = true ∧
      (State.reset.flag (FLT_SRC_STAT 0) FLT_SRC_STAT.LIVE true).is (FLT_SRC_STAT 0) FLT_SRC_STAT.LIVE = true ∧
      (State.reset.wr (FLT_FIRST_CAUSE 0) 0x20F#32).rdN (FLT_FIRST_CAUSE 0) / 256 % 8 = 2 ∧
      (State.reset.wr (FLT_FIRST_CAUSE 0) 0x20F#32).rdN (FLT_FIRST_CAUSE 0) % 16 = 15 ∧ State.reset.ownerOf 15 = 0 ∧
      (State.reset.wr (FLT_FIRST_CAUSE 0) 0x13F#32).rdN (FLT_FIRST_CAUSE 0) % 256 / 4 = 15 ∧
      (State.reset.wr (FLT_FIRST_CAUSE 0) 0xFF#32).rdN (FLT_FIRST_CAUSE 0) % 256 / 16 = 15 ∧
      State.reset.fenced 0 = false := by decide

theorem test_witness_OverdueSources :
    (State.reset.flag (FLT_SRC_STAT 0) FLT_SRC_STAT.LATCHED true).is (FLT_SRC_STAT 0) FLT_SRC_STAT.LATCHED = true ∧
      State.reset.is (FLT_SRC_STAT 0) FLT_SRC_STAT.OVERDUE = false ∧
      1 ≤ ((State.reset.setOcc 0 { sev := 6 }).occ 0).sev ∧ (0 : Fin 545).val ≠ srcNum .availCond 0 ∧
      (544 : Fin 545).val = srcNum .availCond 0 := by decide

theorem test_witness_TimestampRead : State.reset.accepts = true ∧ State.reset.fenced 7 = false ∧
    State.reset.shadow 7 HUB_TS_HI = 0#32 := by decide

theorem test_witness_CalendarRead : State.reset.accepts = true ∧ State.reset.fenced 1 = false := by decide

theorem test_witness_StepRunsTheFrontCommand :
    ({ State.reset with pending := [.seqNop 0] } : State).pending = .seqNop 0 :: [] := by decide

theorem test_witness_IdleStepLetsOneTickPass :
    State.reset.pending = [] ∧ State.reset.now % 8 ≠ 7 ∧ ({ State.reset with now := 15 } : State).now % 8 = 7 := by decide

theorem test_witness_ReferenceLossAndReturn :
    State.reset.is HUB_CLK_STAT HUB_CLK_STAT.REF_SRC = true ∧
      (State.reset.wr HUB_CLK_STAT 4#32).is HUB_CLK_STAT HUB_CLK_STAT.REFIN_OK = true := by decide

theorem test_witness_CalendarCommands_calSet :
    (State.reset.wr HUB_CAL_SET_AT_LO 800#32).Carried 0 HUB_CAL_CTRL 1#32 ∧
      (State.reset.wr HUB_CAL_SET_AT_LO 800#32).isMember = false ∧
      (State.reset.wr HUB_CAL_SET_AT_LO 800#32).now + 800 ≤ (State.reset.wr HUB_CAL_SET_AT_LO 800#32).rd64 HUB_CAL_SET_AT_LO ∧
      State.reset.rd64 HUB_CAL_SET_AT_LO < State.reset.now + 800 := by decide

theorem test_witness_CalendarCommands_apply :
    ({ State.reset with hub := { clk := { armed := some (5, 900) } } } : State).hub.clk.armed = some (5, 900) ∧
      State.reset.isMember = false ∧
      (State.reset.flag (ROPE_STAT 1) ROPE_STAT.LINK_UP true).is (ROPE_STAT 1) ROPE_STAT.LINK_UP = true := by decide

theorem test_witness_CalendarCommands_leap :
    State.reset.Carried 0 HUB_CAL_CTRL 2#32 ∧ leapOk State.reset.leapWritten = true ∧
      leapOk ((State.reset.wr (HUB_LEAP_LO 0) 9#32).wr (HUB_LEAP_LO 1) 5#32).leapWritten = false := by decide

theorem test_witness_SkewAndHopCalibration :
    ({ State.reset with hub := { clk := { skewN := some 256, marker := some 7 } } } : State).hub.clk.skewN = some 256 ∧
      ({ State.reset with hub := { clk := { skewN := some 256, marker := some 7 } } } : State).hub.clk.marker = some 7 ∧
      (State.reset.flag (CH_SKEW 255) CH_SKEW.CAL_EN true).is (CH_SKEW 255) CH_SKEW.CAL_EN = true ∧ trimOf (-65024) = 127 ∧
      trimOf 65536 = -128 ∧
      (State.reset.flag (ROPE_STAT 1) ROPE_STAT.LINK_UP true).is (ROPE_STAT 1) ROPE_STAT.LINK_UP = true ∧
      (State.reset.flag (ROPE_STAT 1) ROPE_STAT.LINK_UP true).sendsDown = true ∧
      (State.reset.flag HUB_ALN_STAT HUB_ALN_STAT.ALIGNED true).is HUB_ALN_STAT HUB_ALN_STAT.ALIGNED = true := by decide

theorem test_witness_JoiningAChain :
    State.reset.hub.clk.joined = false ∧
      (State.reset.flag HUB_ALN_CFG HUB_ALN_CFG.AUTO_JOIN true).is HUB_ALN_CFG HUB_ALN_CFG.AUTO_JOIN = true ∧
      (State.reset.flag HUB_ALN_CFG HUB_ALN_CFG.AUTO_JOIN false).is HUB_ALN_CFG HUB_ALN_CFG.AUTO_JOIN = false ∧
      (State.reset.flag HUB_ALN_CFG HUB_ALN_CFG.AUTO_JOIN false).Carried 0 HUB_ALN_STAT 0x80#32 ∧
      (State.reset.wr HUB_ALN_STAT 0#32).is HUB_ALN_STAT HUB_ALN_STAT.HOLDOVER = false ∧ State.reset.hub.clk.anchorHold = false := by decide

theorem test_witness_SyncPinsAndCalendarSlots :
    (State.reset.flag HUB_SYNC_CFG HUB_SYNC_CFG.IN_EN true).is HUB_SYNC_CFG HUB_SYNC_CFG.IN_EN = true ∧
      (State.reset.flag HUB_SYNC_CFG HUB_SYNC_CFG.IN_EN true).is HUB_SYNC_CFG HUB_SYNC_CFG.IN_EDGE = !true ∧
      State.reset.is HUB_CAL_CTRL HUB_CAL_CTRL.SYNC_IN_SET = false ∧
      (State.reset.wrF HUB_SYNC_CFG HUB_SYNC_CFG.OUT_SEL 1).syncOutNext = some 0 ∧
      ((State.reset.flag HUB_CAL_STAT HUB_CAL_STAT.MEMBER true).flag HUB_ALN_STAT HUB_ALN_STAT.ALIGNED true).isMember = true ∧
      ((State.reset.flag HUB_CAL_STAT HUB_CAL_STAT.MEMBER true).flag HUB_ALN_STAT HUB_ALN_STAT.ALIGNED true).is HUB_ALN_STAT
        HUB_ALN_STAT.ALIGNED = true := by decide

theorem test_witness_OutputSwitchCommands_set :
    let s := (State.reset.flag (RGN_INFO 15) RGN_INFO.NL false).flag TMP_SHUT TMP_SHUT.SHUT false
    s.master 255 = false ∧ s.follower 255 = false ∧
      s.Carried 0 (CH_CTRL 255) (setFld (s.rd (CH_CTRL 255)) CH_CTRL.OUT_REQ 1) ∧ s.outReqIgnored 255 = false := by decide

theorem test_witness_OutputSwitchCommands_close :
    let s := (State.reset.modUnit 0 (fun u => { u with swReq := some 3 })).flag (ENG_UCTRL 0) ENG_UCTRL.AUTO true
    let g := (State.reset.flag (RGN_INFO 15) RGN_INFO.NL false).flag (CH_GANG 255) CH_GANG.MEMBER true
    let m := (((g.flag (CH_GANG 254) CH_GANG.MEMBER true).flag (CH_GANG 254) CH_GANG.MASTER true).wrF (CH_GANG 254) CH_GANG.MASTER_U 14).wrF (CH_GANG 255) CH_GANG.MASTER_U 14
    g.follower 255 = true ∧ g.Carried 0 (CH_CTRL 255) (setFld (g.rd (CH_CTRL 255)) CH_CTRL.OUT_REQ 1) ∧
      m.members 254 = [254, 255] ∧ m.follower 254 = false ∧ m.outReqIgnored 254 = false ∧ m.covered 255 = false ∧
      s.is (ENG_UCTRL 0) ENG_UCTRL.AUTO = true ∧ s.master 0 = false ∧ s.follower 0 = false ∧ (s.unit 0).swReq = some 3 := by decide

theorem test_witness_OutputSwitchCommands_clear :
    let s := ((State.reset.flag (RGN_INFO 0) RGN_INFO.NL false).flag (CH_CTRL 0) CH_CTRL.OUT_REQ true).modUnit 0 (fun u =>
      { u with swCmd := true })
    let r := s.flag (CH_CTRL 0) CH_CTRL.OPEN_FAST true
    s.Carried 0 (CH_CTRL 0) (setFld (s.rd (CH_CTRL 0)) CH_CTRL.OUT_REQ 0) ∧ s.is (CH_CTRL 0) CH_CTRL.OUT_REQ = true ∧
      s.is (CH_CTRL 0) CH_CTRL.OPEN_FAST = false ∧ (s.unit 0).swCmd = true ∧ (s.unit 0).safe = .none ∧
      r.Carried 0 (CH_CTRL 0) (setFld (r.rd (CH_CTRL 0)) CH_CTRL.OUT_REQ 0) ∧ r.is (CH_CTRL 0) CH_CTRL.OUT_REQ = true ∧
      r.is (CH_CTRL 0) CH_CTRL.OPEN_FAST = true := by decide

theorem test_witness_OutputSwitchCommands_end :
    ((State.reset.modUnit 0 (fun u => { u with safe := .openLoop })).unit 0).safe = .openLoop ∧
      (State.reset.modUnit 0 (fun u => { u with safe := .openLoop })).rdN (CH_DAC 0) = 0x80000 ∧
      ((State.reset.modUnit 0 (fun u => { u with safe := .ramp })).unit 0).safe = .ramp := by decide

theorem test_witness_RangeAndSetPointCommands :
    let s := State.reset.flag (RGN_INFO 15) RGN_INFO.NL false
    let g := s.flag (CH_GANG 255) CH_GANG.MEMBER true
    g.follower 255 = true ∧ g.Carried 0 (CH_SETPT 255) 1#32 ∧ g.Carried 0 (CH_CMPL 255) 1#32 ∧ g.Carried 0 (CH_MODE 255) 1#32 ∧
      s.follower 255 = false ∧ s.Carried 0 (CH_MODE 255) 0#32 ∧ s.Carried 0 (CH_SETPT 255) 0x80000000#32 ∧
      s.Carried 0 (CH_CMPL 255) 0x7F#32 ∧ s.Carried 0 (CH_CMPL 255) 0x8001#32 ∧ s.Carried 0 (CH_NCO_AMP 255) 0x8001#32 := by
  decide

theorem test_witness_RangeAndSetPointCommands_range :
    let s := State.reset.modUnit 0 (fun u => { u with modePend := [{ at' := 0, val := 4 }] })
    (s.unit 0).modePend = { at' := 0, val := 4 } :: [] ∧ s.master 0 = false ∧ s.members 0 = [0] ∧
      (State.reset.flag (CH_STAT 0) CH_STAT.RNG_BUSY true).is (CH_STAT 0) CH_STAT.RNG_BUSY = true ∧
      ((State.reset.flag (CH_STAT 0) CH_STAT.RNG_BUSY true).unit 0).rngLeft = 0 := by decide

theorem test_witness_ClampLoadAndMismatch :
    State.reset.is (CH_STAT 255) CH_STAT.CLAMP = false ∧
      (State.reset.flag (CH_STAT 255) CH_STAT.CLAMP true).is (CH_STAT 255) CH_STAT.CLAMP = true ∧
      16 ≤ ((State.reset.modUnit 255 (fun u => { u with olCnt := 16 })).unit 255).olCnt ∧
      ((State.reset.modUnit 255 (fun u => { u with olCnt := 16 })).unit 255).olLive = false := by decide

theorem test_witness_NcoFrequencyCommands :
    let s := State.reset.flag (RGN_INFO 15) RGN_INFO.NL false
    let a := State.reset.modUnit 255 (fun u => { u with nco := { u.nco with applyAt := some 9 } })
    let b := a.modUnit 255 (fun u => { u with nco := { u.nco with soft := .down } })
    let c := a.modUnit 255 (fun u => { u with nco := { u.nco with soft := .up } })
    s.Carried 0 (CH_NCO_CTRL 255) (setFld (s.rd (CH_NCO_CTRL 255)) CH_NCO_CTRL.APPLY 1) ∧
      s.is (CH_NCO_CTRL 255) CH_NCO_CTRL.SOFT = false ∧ (s.unit 255).nco.soft = .idle ∧
      (a.unit 255).nco.applyAt = some 9 ∧ (a.unit 255).nco.soft = .idle ∧ (b.unit 255).nco.applyAt = some 9 ∧
      (b.unit 255).nco.soft = .down ∧ (b.unit 255).gen.ampPos = 0 ∧ (c.unit 255).nco.soft = .up ∧
      (c.unit 255).gen.ampPos = c.ampTarget 255 := by decide

theorem test_witness_EngineWriteCommands :
    let s := State.reset.flag (RGN_INFO 15) RGN_INFO.NL false
    let h := s.flag (ENG_UCTRL 255) ENG_UCTRL.HOLD_COEF true
    s.Carried 0 (ENG_CTRL 15) 6#32 ∧ getFld 6#32 ENG_CTRL.RATE < 7 ∧ s.Carried 0 (coefReg 255 9) 1#32 ∧ s.follower 255 = false ∧
      h.Carried 0 (ENG_UCTRL 255) (setFld (h.rd (ENG_UCTRL 255)) ENG_UCTRL.HOLD_COEF 0) ∧
      h.is (ENG_UCTRL 255) ENG_UCTRL.HOLD_COEF = true ∧
      s.Carried 0 (ENG_UCTRL 255) (setFld (s.rd (ENG_UCTRL 255)) ENG_UCTRL.RC_CLR 1) ∧
      s.Carried 0 (ENG_UCTRL 255) (setFld (s.rd (ENG_UCTRL 255)) ENG_UCTRL.AUTO 0) ∧
      s.Carried 0 (ENG_UCTRL 255) (setFld (s.rd (ENG_UCTRL 255)) ENG_UCTRL.AUTO 1) ∧ s.covered 255 = false ∧
      s.lofMoves 255 = false := by decide

theorem test_witness_EngineWriteCommands_manual :
    let s := State.reset.flag (RGN_INFO 15) RGN_INFO.NL false
    let m := ((s.modRegion 15 (fun r => { r with lastSample := some 0 })).flag (CH_STAT 255) CH_STAT.SAFE false)
    let g := s.flag (CH_GANG 255) CH_GANG.MEMBER true
    g.follower 255 = true ∧ g.Carried 0 (coefReg 255 9) 1#32 ∧ g.Carried 0 (ENG_MANUAL 255) 1#32 ∧ g.Carried 0 (ENG_PL_C 255) 1#32 ∧
      g.Carried 0 (ENG_UCTRL 255) (setFld (g.rd (ENG_UCTRL 255)) ENG_UCTRL.AUTO 1) ∧
    s.Carried 0 (ENG_MANUAL 255) 0xFFFFF#32 ∧ (s.region 15).lastSample = none ∧ m.Carried 0 (ENG_MANUAL 255) 0xFFFFF#32 ∧
      (m.region 15).lastSample = some 0 ∧ m.now ≤ 0 + 48 ∧ m.inManual 255 = true ∧
      (m.modUnit 255 (fun u => { u with safe := .ramp })).covered 255 = true ∧ s.Carried 0 (ENG_CTRL 15) 7#32 ∧ s.Carried 0 (ENG_PL_C 255) 1#32 ∧
      s.Carried 0 (ENG_PL_R 255) 1#32 := by decide

theorem test_witness_LoopPeriodCommand :
    (State.reset.flag (TMP_DSTAT 3) TMP_DSTAT.ANALOG_OFF true).is (TMP_DSTAT 3) TMP_DSTAT.ANALOG_OFF = true ∧
      State.reset.is (TMP_DSTAT 3) TMP_DSTAT.ANALOG_OFF = false ∧ (State.reset.unit 255).safe ≠ .openLoop ∧
      State.reset.is (ENG_USTAT 255) ENG_USTAT.LOF_RAMP = false := by decide

theorem test_witness_LoopAndFeedbackCommands :
    let e : EngUnit := { autoReq := some 0, lof := .belay, lofTarget := 0x80000, plSeen := 4096 }
    let a := State.reset.modUnit 255 (fun u => { u with eng := e })
    let b := (a.flag (ENG_UCTRL 255) ENG_UCTRL.AUTO true).flag (ENG_USTAT 255) ENG_USTAT.LOF_RAMP true
    (a.unit 255).eng.autoReq = some 0 ∧
      a.is (ENG_UCTRL 255) ENG_UCTRL.AUTO = false ∧ b.is (ENG_UCTRL 255) ENG_UCTRL.AUTO = true ∧
      (b.unit 255).eng.autoReq = some 0 ∧ (b.unit 255).swReq = none ∧ (b.unit 255).eng.lof = .belay ∧
      ((b.modUnit 255 (fun u => { u with swReq := some 3 })).unit 255).swReq ≠ none ∧
      b.is (ENG_USTAT 255) ENG_USTAT.LOF_RAMP = true ∧ b.rdN (CH_DAC 255) = (b.unit 255).eng.lofTarget ∧
      (b.flag (ENG_PL_CFG 255) ENG_PL_CFG.LEARN true).is (ENG_PL_CFG 255) ENG_PL_CFG.LEARN = true ∧
      4096 ≤ (b.unit 255).eng.plSeen := by decide

theorem test_witness_LoopAndFeedbackCommands_fault :
    let a := State.reset.wrN (ENG_FRZ 255) 64
    let i := State.reset.wrN (ENG_FRZ 255) (64 * 256)
    let b := (((State.reset.flag (ENG_PL_CFG 255) ENG_PL_CFG.EN true).flag (ENG_USTAT 255) ENG_USTAT.PL_LEARNED true).wrF
      (ENG_PL_RES 255) ⟨24, 8⟩ 255)
    let c := State.reset.modUnit 255 (fun u => { u with eng := { u.eng with lof := .safe } })
    let d := State.reset.flag (CH_STAT 255) CH_STAT.OUT_CLOSED true
    let n := srcNum .feedbackFrozen 3
    a.freshFrozen 255 = (true, false) ∧ i.freshFrozen 255 = (false, true) ∧ b.freshImplausible 255 = true ∧
      (c.unit 255).eng.lof = .safe ∧ d.closed 255 = true ∧ (d.unit 255).eng.lof = .none ∧ d.underReaction 255 = false ∧ (d.unit 255).safe = .none ∧
      d.sevOf n ≤ 1 ∧ d.rdF (ENG_UCTRL 255) ENG_UCTRL.LOF = 0 ∧
      (d.wrF (ENG_UCTRL 255) ENG_UCTRL.LOF 1).rdF (ENG_UCTRL 255) ENG_UCTRL.LOF = 1 ∧
      (d.wrF (ENG_UCTRL 255) ENG_UCTRL.LOF 2).rdF (ENG_UCTRL 255) ENG_UCTRL.LOF = 2 := by decide

theorem test_witness_ProfileLimits :
    let s := (State.reset.flag (RGN_INFO 0) RGN_INFO.NL false)
    (s.flag (CH_GANG 0) CH_GANG.MEMBER true).follower 0 = true ∧ (s.flag (CH_GANG 0) CH_GANG.MEMBER true).Carried 0 (limReg 0 0) 1#32 ∧
      s.follower 0 = false ∧ s.Carried 0 (limReg 0 0) 0x3F800000#32 ∧ limOf 0x3F800000#32 ≠ none ∧ limOf 0#32 = none ∧
      s.Carried 0 (limReg 0 5) 0#32 ∧ s.is (PRF_USTAT 0) PRF_USTAT.MOVING = false ∧
      (s.flag (PRF_USTAT 0) PRF_USTAT.MOVING true).Carried 0 (limReg 0 5) 0x3F800000#32 ∧
      (s.flag (PRF_USTAT 0) PRF_USTAT.MOVING true).is (PRF_USTAT 0) PRF_USTAT.MOVING = true ∧
      (s.flag (PRF_USTAT 0) PRF_USTAT.LIM_PEND true).is (PRF_USTAT 0) PRF_USTAT.LIM_PEND = true := by decide

theorem test_witness_PlayerRequests :
    let s := ((State.reset.flag (RGN_INFO 0) RGN_INFO.NL false).wr (PRF_SEG_LEN 0 0) 2#32).wr (PRF_WF_SIZE 0) 0x10000#32
    let r := s.flag (PRF_STAT 0) PRF_STAT.RUNNING true
    s.Carried 0 (PRF_CTRL 0) (setFld (s.rd (PRF_CTRL 0)) PRF_CTRL.START 1) ∧ s.playing 0 = false ∧ s.is TMP_SHUT TMP_SHUT.SHUT = false ∧
      s.descOk 0 (s.rdF (PRF_CTRL 0) PRF_CTRL.START_SEG) = true ∧ r.playing 0 = true ∧
      r.Carried 0 (PRF_CTRL 0) (setFld (r.rd (PRF_CTRL 0)) PRF_CTRL.ABORT 1) ∧ r.is (PRF_STAT 0) PRF_STAT.STALLED = false ∧
      r.is (PRF_STAT 0) PRF_STAT.WAITING = false ∧
      r.Carried 0 (PRF_WF_JUMP 0) (setFld (r.rd (PRF_WF_JUMP 0)) PRF_WF_JUMP.REQ 1) ∧ r.Carried 0 (PRF_STR_POST 0) 3#32 ∧
      r.rdN (PRF_STR_DEBT 0) = 0 ∧ r.rdF (PRF_STR_STAT 0) PRF_STR_STAT.FILLED ≤ r.ringSlots 0 ∧ r.ringSlots 0 < 2 ^ 13 := by
  decide

theorem test_witness_PlayerSamplesAndPasses :
    let s := (State.reset.flag (PRF_STAT 0) PRF_STAT.RUNNING true).modPlayer 0 (fun x =>
      { x with lenW := 0xFFFF0002, next := 1, nextAt := 80, posts := [(3, 1)] })
    let e := s.modPlayer 0 (fun x => { x with next := 64 })
    let l := s.modPlayer 0 (fun x => { x with next := 64, lenW := 2, ctrl := 0xFFFFFFFF })
    let w := (s.flag (PRF_STAT 0) PRF_STAT.WAITING true).modPlayer 0 (fun x => { x with trigAt := some 5 })
    let m := s.modPlayer 0 (fun x => { x with next := 32, ctrl := 0xFFFFFFFF, posts := [] })
    s.ecc = [] ∧ s.sampleDue 0 = true ∧ (s.player 0).abort = false ∧ (s.player 0).stream = false ∧ 0 < (s.player 0).next ∧
      (s.modPlayer 0 (fun x => { x with abort := true })).sampleDue 0 = true ∧ (e.player 0).abort = false ∧ (l.player 0).abort = false ∧
      ((e.modPlayer 0 (fun x => { x with abort := true })).player 0).abort = true ∧ (e.player 0).total ≤ (e.player 0).next ∧
      e.is (PRF_STAT 0) PRF_STAT.STALLED = false ∧ (e.player 0).jump = none ∧ (e.player 0).loops = 0xFFFF ∧
      e.playing 0 = true ∧ (l.player 0).total ≤ (l.player 0).next ∧ (l.player 0).loops < l.rdN (PRF_PASS 0) + 1 ∧
      (l.player 0).seg PRF_SEG_CTRL.END = 1 ∧ w.is (PRF_STAT 0) PRF_STAT.WAITING = true ∧ (w.player 0).trigAt = some 5 ∧
      m.sampleDue 0 = true ∧ m.granuleMissing 0 (max m.now (m.player 0).nextAt) = true ∧
      (s.player 0).posts = (3, 1) :: [] ∧
      (s.flag (PRF_STAT 0) PRF_STAT.STALLED true).is (PRF_STAT 0) PRF_STAT.STALLED = true := by decide

theorem test_witness_SequencerStepInstructions :
    let s := State.reset.flag (SEQ_STAT 0) SEQ_STAT.RUNNING true
    let at' (w : Nat) := s.setMem (s.progAddr 0 0) 4 w
    s.SeqReady 0 0x00 ∧ (at' 0x04000000).SeqReady 0 0x01 ∧ (at' 0x08FFFFFF).SeqReady 0 0x02 ∧
      (at' 0x1000FFFF).SeqReady 0 0x04 ∧ (at' 0x18000002).SeqReady 0 0x06 ∧ (at' 0x1C00001F).SeqReady 0 0x07 ∧
      (at' 0x2000003F).SeqReady 0 0x08 ∧ (at' 0x2C000003).SeqReady 0 0x0B ∧ (at' 0x30FFFFFF).SeqReady 0 0x0C ∧
      (at' 0x340001FF).SeqReady 0 0x0D := by decide

theorem test_witness_SequencerCountersAndBranches :
    let s := State.reset.flag (SEQ_STAT 0) SEQ_STAT.RUNNING true
    let at' (w : Nat) := s.setMem (s.progAddr 0 0) 4 w
    let b (w : Nat) := ((at' w).modSeq 0 (fun q =>
      { q with foot := [{ prog := { pc := 0, umask := 1, site := none, stack := [5], e := true, cnt := [(7, 1)] } }] }))
    (at' 0x387FFFFF).SeqReady 0 0x0E ∧ (at' 0x3C7FFFFF).SeqReady 0 0x0F ∧ (b 0x3C7FFFFF).SeqReady 0 0x0F ∧
      (at' 0x40703FFF).SeqReady 0 0x10 ∧ (b 0x40703FFF).SeqReady 0 0x10 ∧ (at' 0x48703FFF).SeqReady 0 0x12 ∧
      (b 0x48703FFF).SeqReady 0 0x12 ∧ (at' 0x44003FFF).SeqReady 0 0x11 ∧ (at' 0x4FE03FFF).SeqReady 0 0x13 ∧
      (at' 0x5003FFFF).SeqReady 0 0x14 ∧ (at' 0x54003FFF).SeqReady 0 0x15 ∧ (at' 0x58003FFF).SeqReady 0 0x16 ∧
      (b 0x5C000000).SeqReady 0 0x17 ∧ (at' 0x6403FFFF).SeqReady 0 0x19 ∧
      (∀ g ∈ ((at' 0x3C7FFFFF).seqAt 0 |>.seq 0).foot, g.prog.cnt.find? (fun c => c.1 = 7) = none) ∧
      ((b 0x3C7FFFFF).seqFoot 0).prog.cnt.find? (fun c => c.1 = 7) = some (7, 1) := by decide

theorem test_witness_SequencerMemoryInstructions :
    let s := (State.reset.flag (SEQ_STAT 0) SEQ_STAT.RUNNING true).wr (siteBase 0 + 0x20) 0x40000#32
    let at' (w : Nat) := s.setMem (s.progAddr 0 0) 4 w
    let b (w : Nat) := ((at' w).modSeq 0 (fun q =>
      { q with foot := [{ prog := { pc := 0, umask := 1, site := none, stack := [], e := false, swp := some 3 } }] }))
    let ws (x : Nat) := ((at' 0x28004001).wrN (SITE_WS_CFG 0 1) x).wr (PRF_WF_SIZE 0) 0x10000#32
    let site (v : State) : Nat := (v.seqAt 0).rdF (SITE_WS_GEOM 0 1) SITE_WS_GEOM.SITEBASE +
      (((v.seqAt 0).wsShort 0 1).wsDraw 0 1 ((v.seqAt 0).footWalk 0 1)).1.offset
    let adr : Nat := State.reset.part 0 0 + 16 * 3
    let sw := ((b 0x0C000001).wrN (PRF_SWP_LEN 0) 4).setMem (adr + 12) 2 0xFFFF
    (at' 0x14000003).SeqReady 0 0x05 ∧ ((at' 0x14000003).seqAt 0).ecc = [] ∧ (at' 0x24004003).SeqReady 0 0x09 ∧
      (((at' 0x24004003).seqAt 0).siteBlk 0).1 ≤ 3 ∧
      3 < (((at' 0x24004003).seqAt 0).siteBlk 0).1 + (((at' 0x24004003).seqAt 0).siteBlk 0).2 ∧
      (∀ x ∈ [1, 0x81, 0xC1], (ws x).SeqReady 0 0x0A ∧ ((ws x).seqAt 0).ecc = [] ∧ (ws x).seqArg 0 % 4 = 1 ∧
        ((ws x).seqAt 0).is (SITE_WS_CFG 0 1) SITE_WS_CFG.LVL_EN = bitOf x 7 ∧
        ((ws x).seqAt 0).is (SITE_WS_CFG 0 1) SITE_WS_CFG.LSRC = bitOf x 6 ∧
        (((ws x).seqAt 0).wsShort 0 1).rdN (SITE_WS_LVLTAB 0 1) + 4 * (site (ws x)) + 4 ≤ 0x10000 ∧
        (((ws x).seqAt 0).wsShort 0 1).rdN (PRF_WF_SIZE 0) = 0x10000 ∧ (((ws x).seqAt 0).siteBlk 0).1 ≤ site (ws x) ∧
        site (ws x) < (((ws x).seqAt 0).siteBlk 0).1 + (((ws x).seqAt 0).siteBlk 0).2) ∧
      sw.SeqReady 0 0x03 ∧ (sw.seqAt 0).ecc = [] ∧ (sw.seqFoot 0).prog.swp = some 3 ∧
      3 < (sw.seqAt 0).rdN (PRF_SWP_LEN 0) ∧ (sw.seqAt 0).mem64 (adr + 12) 2 = 0xFFFF ∧
      (SweepEntry.mk ((sw.seqAt 0).mem64 adr 4) ((sw.seqAt 0).mem64 (adr + 4) 2) ((sw.seqAt 0).mem64 (adr + 6) 1)
        ((sw.seqAt 0).mem64 (adr + 7) 1) ((sw.seqAt 0).mem64 (adr + 8) 3) ((sw.seqAt 0).mem64 (adr + 12) 2)
        ((sw.seqAt 0).mem64 (adr + 14) 2)).bad ((sw.seqAt 0).mem64 (adr + 11) 1) = false ∧
      (at' 0x0C000001).SeqReady 0 0x03 ∧ (∀ g ∈ (((at' 0x0C000001).seqAt 0).seq 0).foot, g.prog.swp = none) ∧
      ((at' 0x0C000001).seqAt 0).rdN (PRF_SWP_LEN 0) ≤ ((at' 0x0C000001).seqAt 0).rdN (SEQ_SWP 0) % 2 ^ 18 ∧
      (b 0x0C000001).SeqReady 0 0x03 ∧ ((b 0x0C000001).seqFoot 0).prog.swp = some 3 ∧
      ((b 0x0C000001).seqAt 0).rdN (PRF_SWP_LEN 0) ≤ 3 ∧ (at' 0x60000000).SeqReady 0 0x18 ∧
      ((at' 0x60000002).flag (SEQ_CTRL 0) SEQ_CTRL.CONT true).SeqReady 0 0x18 := by decide

theorem test_witness_SequencerControl :
    let s := (State.reset.flag (RGN_INFO 0) RGN_INFO.NL false)
    let r := s.flag (SEQ_STAT 0) SEQ_STAT.RUNNING true
    let c := r.modSeq 0 (fun q => { q with conf := some { at' := 0, seqAt := 0, dwell := 80, umask := 1, num := 0 } })
    let x := r.modSeq 0 (fun q =>
      { q with foot := [{ prog := { pc := 0, umask := 1, site := none, stack := [], e := false }, rnga := [(1, 0, 3)] }] })
    let z := ({ r with now := 796 } : State).modSeq 0 (fun q =>
      { q with foot := [{ prog := { pc := 0, umask := 1, site := none, stack := [], e := false }, ready := true }] })
    s.Carried 0 (SEQ_CTRL 0) 1#32 ∧ s.seqRunning 0 = false ∧ s.restarting 0 = false ∧ s.is TMP_SHUT TMP_SHUT.SHUT = false ∧ State.reset.accepts = true ∧ r.seqRunning 0 = true ∧
      r.Carried 0 (SEQ_CTRL 0) 1#32 ∧ r.Carried 0 (SEQ_CTRL 0) 4#32 ∧ (r.seq 0).conf = none ∧ (c.seq 0).conf ≠ none ∧
      c.Carried 0 (SEQ_CTRL 0) 4#32 ∧ c.Carried 0 (SEQ_CTRL 0) 8#32 ∧ c.seqRunning 0 = true ∧ r.Carried 0 (SEQ_CTRL 0) 16#32 ∧
      ((x.seq 0).foot.head?.map (fun y => x.tapServed y 0)) = some true ∧ (x.cluster 0).tickWait = false ∧
      x.tapSuspect 0 = false ∧ c.commitDecided 0 = false ∧ ((c.seq 0).conf.map ConfStep.closing) = some none ∧
      r.commitDecided 0 = false ∧ State.reset.refusal 0 (SEQ_CTRL 0) true 1#32 = none ∧
      State.reset.reachable (SEQ_CTRL 0) = true ∧ State.reset.nightlight 0 = true ∧
      z.Carried 0 (SEQ_CTRL 0) 8#32 ∧ z.seqRunning 0 = true ∧ z.commitDecided 0 = true ∧
      (z.wroteNow (SEQ_CTRL 0) 8#32).regSquash (SEQ_CTRL 0) = z.wroteNow (SEQ_CTRL 0) 8#32 := by decide

theorem test_witness_SequencerCommitAndClose :
    let r := State.reset.flag (SEQ_STAT 0) SEQ_STAT.RUNNING true
    let c := r.modSeq 0 (fun q => { q with conf := some { at' := 0, seqAt := 0, dwell := 80, umask := 1, num := 0 } })
    let d := r.modSeq 0 (fun q =>
      { q with conf := some { at' := 0, seqAt := 0, dwell := 80, umask := 1, num := 0, closing := some (2, 5) } })
    let x := r.modSeq 0 (fun q =>
      { q with foot := [{ prog := { pc := 0, umask := 1, site := none, stack := [], e := false, swp := some 3 }, ready := true }] })
    let y := r.modSeq 0 (fun q =>
      { q with foot := [{ prog := { pc := 0, umask := 1, site := none, stack := [], e := false }, err := 1 }] })
    let v := r.modSeq 0 (fun q =>
      { q with foot := [{ prog := { pc := 0, umask := 1, site := none, stack := [], e := false }, ready := true, waitt := 1 }] })
    let e := c.modSeq 0 (fun q => { q with stopReq := true })
    ((x.seqLook 0).seq 0).conf = none ∧ ((x.seqLook 0).seq 0).foot.length = 1 ∧ (x.seqLook 0).seqRunning 0 = true ∧
      ((x.seqLook 0).seq 0).foot.all (fun f => f.err = 0 && (x.seqLook 0).commitReady 0 f) = true ∧
      ((y.seqLook 0).seq 0).foot.all (fun f => (y.seqLook 0).commitReady 0 f) = true ∧
      ((v.seqLook 0).seq 0).foot.all (fun f => !(v.seqLook 0).commitReady 0 f) = true ∧ ((v.seqLook 0).seq 0).foot.length = 1 ∧
      ((y.seqLook 0).seq 0).foot.all (fun f => f.err ≠ 0) = true ∧ ((y.seqLook 0).seq 0).foot.length = 1 ∧
      (c.seq 0).conf.isSome = true ∧ c.windowPending 0 0 = false ∧ c.stepWindows 0 0 = [] ∧ (c.seq 0).siteFault = false ∧
      (c.seq 0).stopReq = false ∧ (c.seq 0).forceStop = false ∧ ((e.seq 0).stopReq && (e.seq 0).conf.isSome) = true ∧
      (c.seq 0).conf.all (fun z => !c.dwellStalled 0 z) = true ∧ ((d.seq 0).conf.map ConfStep.closing) = some (some (2, 5)) ∧
      ((x.seq 0).foot.map (fun f => f.prog.swp)) = [some 3] ∧
      (x.hostWrote (SEQ_SWP 0) = false) ∧ (x.wroteNow (SEQ_SWP 0) 1#32).hostWrote (SEQ_SWP 0) = true := by decide

theorem test_witness_FiltersAndBanks :
    let s := (State.reset.flag (RGN_INFO 0) RGN_INFO.NL false)
    s.Carried 0 (MEA_U_FILT 0) 0x00009#32 ∧ s.filtValid 0 0x00009 = true ∧ s.filtValid 0 0 = false ∧
      s.Carried 0 (MEA_U_FILT 0) 0#32 ∧ s.Carried 0 (MEA_U_BANK 0) 2#32 ∧ s.is (MEA_U_BANK 0) MEA_U_BANK.CPEND = false ∧
      s.is (MEA_U_BANK 0) MEA_U_BANK.JPEND = false ∧ (s.unit 0).mea.v.ready = none ∧
      (s.flag (MEA_U_BANK 0) MEA_U_BANK.CPEND true).Carried 0 (MEA_U_BANK 0) 2#32 ∧
      (s.flag (MEA_U_BANK 0) MEA_U_BANK.CPEND true).is (MEA_U_BANK 0) MEA_U_BANK.CPEND = true := by decide

theorem test_witness_ValuesAndWindows :
    let s := State.reset.modMea 0 (fun m =>
      { m with filtPend := [(5, 9)], commitAt := some 3, v := { m.v with ready := some (80, 7), taken := false },
                i := { m.i with ready := some (80, 7), taken := false } })
    let w := State.reset.modMea 0 (fun m => { m with wins := [{ win := 2, bound := 80, step := 0, raw := true, dly := 1, len := 3 }] })
    let q := State.reset.journal (.bank 0 [1#32])
    (s.unit 0).mea.filtPend = (5, 9) :: [] ∧ (s.unit 0).mea.commitAt = some 3 ∧ s.ecc = [] ∧
      (s.unit 0).mea.v.ready = some (80, 7) ∧ (s.unit 0).mea.i.ready = some (80, 7) ∧ (s.unit 0).mea.v.taken = false ∧
      (s.unit 0).mea.wins = [] ∧ s.master 0 = false ∧
      q.nvm.queue.find? (fun r => r.content = 0x100 + 0) = some (.bank 0 [1#32]) ∧ (q.area (JRec.bank 0 [1#32]).area).erasing = none ∧ (q.unit 0).mea.recalWait = false ∧
      (w.winNext 0 2).map OpenWin.len = some 3 ∧
      ((State.reset.modCluster 63 (fun c => { c with suspUntil := some 7 })).cluster 63).suspUntil = some 7 := by decide

theorem test_witness_ProcedureRequests :
    let s := State.reset
    let b := s.flag (CH_CTRL 255) CH_CTRL.OUT_REQ true
    let c := s.modMea 255 (fun m => { m with proc := .selfTest })
    let g := (s.modCluster 63 (fun c => { c with busy := true })).wrF (pilStat 63) MEA_PIL_STAT.SLICE 7
    let h := s.flag (pilStat 63) MEA_PIL_STAT.SUBST true
    s.Carried 0 (MEA_REQ 15) (reqWord 0 15) ∧ s.idle 255 = true ∧ b.idle 255 = false ∧
      b.Carried 0 (MEA_REQ 15) (reqWord 1 15) ∧ s.Carried 0 (MEA_REQ 15) (reqWord 2 15) ∧
      s.is (pilStat 63) MEA_PIL_STAT.SUBST = false ∧ s.is (pilStat 63) MEA_PIL_STAT.PILOT_FAIL = false ∧
      (s.cluster 63).busy = false ∧ g.slicesBusy 255 = true ∧ s.slicesBusy 255 = false ∧ (g.cluster 63).busy = true ∧ g.idle 255 = true ∧
      g.Carried 0 (MEA_REQ 15) (reqWord 0 15) ∧ g.Carried 0 (MEA_REQ 15) (reqWord 2 15) ∧
      h.is (pilStat 63) MEA_PIL_STAT.SUBST = true ∧ h.Carried 0 (MEA_REQ 15) (reqWord 2 15) ∧
      (s.flag (MEA_U_BANK 255) MEA_U_BANK.JPEND true).is (MEA_U_BANK 255) MEA_U_BANK.JPEND = true ∧
      (s.flag (MEA_U_BANK 255) MEA_U_BANK.CPEND true).is (MEA_U_BANK 255) MEA_U_BANK.CPEND = true ∧ (c.unit 255).mea.proc = .selfTest ∧
      ((s.modMea 255 (fun m => { m with proc := .recal })).unit 255).mea.proc = .recal ∧
      s.is (MEA_U_BANK 255) MEA_U_BANK.CPEND = false ∧ s.is (MEA_U_BANK 255) MEA_U_BANK.JPEND = false ∧
      (s.wrF (MEA_REQ_STAT 15) ⟨31, 1⟩ 1).is (MEA_REQ_STAT 15) ⟨31, 1⟩ = true ∧ (s.unit 255).mea.proc = .none ∧
      (255 : Fin 256).val = 16 * (15 : Fin 16) + (15 : Fin 16) := by decide

theorem test_witness_PilotCommands :
    let s := State.reset.flag (RGN_INFO 15) RGN_INFO.NL false
    let ph (n : Nat) := (State.reset.modCluster 63 (fun c => { c with busy := true, pairs := 1024 })).pilPhase 63 n
    let a := (State.reset.modCluster 63 (fun c => { c with busy := true, pairs := 1023, samples := 4096 })).pilPhase 63 1
    let d := (State.reset.modCluster 63 (fun c => { c with busy := true, pairs := 1024, diffSum := 200000000 })).pilPhase 63 1
    let x := s.modSeq 15 (fun q =>
      { q with foot := [{ prog := { pc := 0, umask := 0x8000, site := none, stack := [], e := false }, rnga := [(0x8000, 0, 3)] }] })
    (s.cluster 63).busy = false ∧ s.is (pilStat 63) MEA_PIL_STAT.SUBST = false ∧ s.is (pilStat 63) MEA_PIL_STAT.PILOT_FAIL = false ∧
      s.is TMP_SHUT TMP_SHUT.SHUT = false ∧ (ph 0).inPhase 63 0 = true ∧ ((ph 0).cluster 63).only = false ∧
      trimBad 1024 0 = false ∧ trimBad 1025 0 = true ∧ (ph 1).inPhase 63 1 = true ∧ 1024 ≤ ((ph 1).cluster 63).pairs ∧
      ((ph 1).shadowMean 63).2 = false ∧ (d.shadowMean 63).2 = true ∧ d.inPhase 63 1 = true ∧ (ph 2).inPhase 63 2 = true ∧
      (ph 3).inPhase 63 3 = true ∧ (ph 4).inPhase 63 4 = true ∧ ((ph 4).shadowMean 63).2 = false ∧
      (ph 5).inPhase 63 5 = true ∧ ((ph 5).cluster 63).restoring = false ∧ ((ph 5).cluster 63).onlyWait = [] ∧
      a.inPhase 63 1 = true ∧ 4096 ≤ (a.cluster 63).samples ∧ (a.cluster 63).pairs < 1024 ∧ (a.cluster 63).inRole = false ∧
      ((ph 5).cluster 63).retrim = false ∧ ((ph 5).cluster 63).failed = false ∧ s.tapRunning 63 = false ∧ x.tapRunning 63 = true ∧
      (x.cluster 63).busy = false ∧ (a.cluster 63).testUnit = none ∧ (a.cluster 63).retrim = false ∧
      (a.cluster 63).onlyWait = [] ∧ (a.cluster 63).restoring = false ∧
      s.Carried 0 (MEA_PIL_CTRL 15 3) 1#32 := by decide

theorem test_witness_KernelArithmetic :
    let r : KRun :=
      { close := false, key := 0, kern := { base := (State.reset.rdN (RDC_KS_BASE 0)), hdr := (setFld (setFld 0#32 RDC_KHDR.STATE 16) RDC_KHDR.HBINS 4) }, unit := 0, qty := 0, pc := 0, y := List.replicate 8 0#64, f := 1, x := f64One, ts := 0, counted := false }
    let k (w : Nat) := (State.reset.setMem (dieMem 0 (State.reset.rdN (RDC_KS_BASE 0))) 4 w).modRed 0 (fun x =>
        { x with run := some r, ctxs := [(0, { a := List.replicate 16 f64One, k := List.replicate 16 f64Zero, v := 5 })] })
    ∀ w ∈ [0x4181000, 0x8181040, 0xc181040, 0x10181040, 0x14181040, 0x18181040, 0x1c181000, 0x20181040, 0x24181040, 0x28181000, 0x54000000, 0x58000000, 0x5c05bb80, 0x0], (k w).KReady 0 (w / 2 ^ 26) r w ∧ ((k w).kLoad 0 r w 1).2 = false := by decide

theorem test_witness_KernelArithmetic_bad :
    let c : ImgContent := { ctxWords := [(512, 0)] }
    let s := ({ State.reset with ecc := [((State.reset.part 0 5) / 8, 0x10203)], blocks := [(5, State.reset.part 0 5, 8)] } : State).modRegion 0 (fun x =>
      { x with img := some c })
    (s.ctxLoad 0 0 [1]).2 = true := by decide

theorem test_witness_KernelStatistics :
    let r : KRun :=
      { close := false, key := 0, kern := { base := (State.reset.rdN (RDC_KS_BASE 0)), hdr := (setFld (setFld 0#32 RDC_KHDR.STATE 16) RDC_KHDR.HBINS 4) }, unit := 0, qty := 0, pc := 0, y := List.replicate 8 0#64, f := 1, x := f64One, ts := 0, counted := false }
    let k (w : Nat) := (State.reset.setMem (dieMem 0 (State.reset.rdN (RDC_KS_BASE 0))) 4 w).modRed 0 (fun x =>
        { x with run := some r, ctxs := [(0, { a := List.replicate 16 f64One, k := List.replicate 16 f64Zero, v := 5 })] })
    ∀ w ∈ [0x2c181000, 0x30181000, 0x34181000, 0x38181000, 0x3c180000, 0x40181000, 0x44001000, 0x48180001, 0x4c181000, 0x50181000], (k w).KReady 0 (w / 2 ^ 26) r w ∧ ((k w).kLoad 0 r w 1).2 = false := by decide

theorem test_witness_KernelStatistics_values :
    f64Lt (f64OfInt 2) (f64OfInt 2) = false ∧ f64IsZero f64One = false ∧ f64Le piD f64Zero = false ∧ f64Le piD piD = true ∧
      f64IsZero f64Zero = true ∧ f64Lt f64One (f64OfInt 2) = true := by decide

theorem test_witness_KernelVerdictsAndRecords :
    let r : KRun :=
      { close := false, key := 0, kern := { base := (State.reset.rdN (RDC_KS_BASE 0)), hdr := (setFld (setFld 0#32 RDC_KHDR.STATE 16) RDC_KHDR.HBINS 4) }, unit := 0, qty := 0, pc := 0, y := List.replicate 8 0#64, f := 1, x := f64One, ts := 0, counted := false }
    let k (w : Nat) := (State.reset.setMem (dieMem 0 (State.reset.rdN (RDC_KS_BASE 0))) 4 w).modRed 0 (fun x =>
        { x with run := some r, ctxs := [(0, { a := List.replicate 16 f64One, k := List.replicate 16 f64Zero, v := 5 })] })
    ∀ w ∈ [0x60181008, 0x60181007, 0x64181000, 0x68000003, 0x6c001007, 0x70180007, 0x74001007, 0x78000007, 0x7c000007], (k w).KReady 0 (w / 2 ^ 26) r w ∧ ((k w).kLoad 0 r w 1).2 = false := by decide

theorem test_witness_KernelVerdictsAndRecords_site :
    let r : KRun :=
      { close := false, key := 0, kern := { base := (State.reset.rdN (RDC_KS_BASE 0)), hdr := (setFld (setFld 0#32 RDC_KHDR.STATE 16) RDC_KHDR.HBINS 4) }, unit := 0, qty := 0, pc := 0, y := List.replicate 8 0#64, f := 1, x := f64One, ts := 0, counted := false }
    let s := (State.reset.modRed 0 (fun x => { x with ctxs := [(0, { site := some 7 })] })).setByte (State.reset.ctxAt 0 7 + 4) 1#8
    (s.kSite 0 r).2 = (some (s.ctxAt 0 7), true) ∧ (State.reset.kSite 0 r).2 = (none, true) ∧ s.ecc = [] ∧
      (s.kctx 0 r.key).v = 0 ∧ ({} : KernRef).bins = 0 ∧ ({ hdr := setFld 0#32 RDC_KHDR.HBINS 1 } : KernRef).bins ≠ 0 ∧
      (s.memGet (s.ctxAt 0 7 + 0x48) 8).2.2 = false := by decide

theorem test_witness_ReducerJobsAndCounts :
    let s := State.reset.modRed 0 (fun x => { x with queue := [.value 0 0 0 f64One 5 0 0 false] })
    let c := s.modRed 0 (fun x => { x with queue := [.close 0 0 5 false [0]] })
    let p := s.modRed 0 (fun x => { x with ctxs := [(0, { poisoned := true })] })
    (s.red 0).queue = .value 0 0 0 f64One 5 0 0 false :: [] ∧ (s.red 0).run = none ∧ s.kHeld 0 = false ∧
      (s.kctx 0 0).poisoned = false ∧ (s.kctx 0 0).kern.excludes 0 = false ∧ s.ecc = [] ∧ s.hub.inject = none ∧
      (p.red 0).queue = .value 0 0 0 f64One 5 0 0 false :: [] ∧ (p.kctx 0 0).poisoned = true ∧
      (c.red 0).queue = .close 0 0 5 false [0] :: [] ∧ (c.red 0).closeWait = [] ∧
      (c.kFetch 0 (c.kctx 0 0).kern (c.kctx 0 0).kern.close).2 = .ok 0 ∧
      (s.modRed 0 (fun x => { x with queue := [.close 0 0 5 false []] })).ecc = [] ∧ State.reset.countDiff 255 = 0 ∧
      (satS 32 ((State.reset.wrN (RDC_PROD_LO 255) 1).countDiff 255)).1 ≠ 0 ∧
      (satS 32 ((State.reset.wrN (RDC_PROD_LO 255) 1).countDiff 255)).1 ≠ State.reset.rdI (RDC_DIFF 255) := by decide

theorem test_witness_ReducerJobsAndCounts_balance : ∀ p : Fin 256, State.reset.countDiff p = 0 := by
  decide +kernel

theorem test_witness_ReadsOfUnitsRegionsAndDies :
    State.reset.Readable 0 (RDC_PROD_LO 255) ∧ State.reset.Readable 0 (EVT_CAP_LO 3 7) ∧ State.reset.Readable 7 (IMG_NL_MIN_LO 255) ∧
      State.reset.Readable 0 (PRF_SEQT_LO 15) ∧ State.reset.Readable 0 (MEA_U_LASTV_LO 255) ∧
      State.reset.Readable 0 (MEA_U_LASTI_LO 0) := by decide

theorem test_witness_ReadsOfTheHub :
    State.reset.Readable 7 (FLT_FIRST_TS_LO 544) ∧ State.reset.Readable 7 LIFE_OPS_LO ∧ State.reset.Readable 7 LIFE_ARR_LO ∧
      State.reset.Readable 7 LIFE_LAST_STOP_TS_LO ∧ State.reset.Readable 7 HUB_SERIAL_LO ∧ State.reset.Readable 0 ROPE_MBX_RXC ∧
      (State.reset.flag (HUB_FN_CTRL 3) HUB_FN_CTRL.FENCE true).accepts = true ∧
      (State.reset.flag (HUB_FN_CTRL 3) HUB_FN_CTRL.FENCE true).fenced 3 = true ∧
      LIFE_OPS_LO % 64 / 4 + 16 ≥ 16 ∧ State.reset.fenced 3 = false ∧
      (State.reset.modHub (fun h => { h with rstWait := true })).accepts = false := by decide

theorem test_witness_SiteAccumulators :
    let s := State.reset
    let a := s.modUnit 5 (fun u => { u with accQ := 9, mea := { u.mea with site := some 3 } })
    let b := s.flag (SITE_JCFG 3) SITE_JCFG.EN true
    s.ecc = [] ∧ s.hub.inject = none ∧ a.ecc = [] ∧ a.hub.inject = none ∧ a.siteOf 5 = some 3 ∧
      (∀ q : Fin 256, q ≠ 5 → a.siteOf q = none) ∧ (a.unit 5).accQ ≠ 0 ∧ s.siteOf 0 = none ∧
      s.Carried 0 (SITE_ACC_CTRL 3) 1#32 ∧ s.Carried 0 (SITE_ACC_CTRL 0) 2#32 ∧ s.rdN (SITE_ACC_SEL 3) % 2 ^ 14 = 0 ∧
      b.is (SITE_JCFG 3) SITE_JCFG.EN = true ∧ (s.flag (SITE_JCFG 0) SITE_JCFG.EN false).is (SITE_JCFG 0) SITE_JCFG.EN = false ∧ b.ecc = [] ∧ b.hub.inject = none ∧
      s.Carried 0 (SITE_JCTRL 3) 1#32 ∧ s.is (SITE_JSTAT 3) SITE_JSTAT.BUSY = false ∧
      (s.flag (SITE_JSTAT 3) SITE_JSTAT.BUSY true).Carried 0 (SITE_JCTRL 3) 1#32 ∧
      (s.flag (SITE_JSTAT 3) SITE_JSTAT.BUSY true).is (SITE_JSTAT 3) SITE_JSTAT.BUSY = true := by decide +kernel

theorem test_witness_SitePortAndWalker :
    let w : PortSwitch := { region := 3, commitAt := 0, start := some 10, sa := 65535, sd := 255, site := 7, mask := 3 }
    let s (w : PortSwitch) := State.reset.modDie 3 (fun x => { x with switches := [w] })
    let m := { w with driven := true, made := some 200 }
    let q := (s m).flag (SITE_PORT_CFG 3) SITE_PORT_CFG.SRDY_EN true
    let v := (State.reset.flag (SITE_WS_CFG 3 3) SITE_WS_CFG.EN true).flag (SEQ_STAT 12) SEQ_STAT.RUNNING true
    let p : State := State.reset.modDie 3 (fun x => { x with portFree := some 9, switches := [{ w with start := none }] })
    (p.die 3).portFree = some 9 ∧ p.breaking 3 = none ∧ (p.die 3).switches.find? (fun w => w.start = none) = some { w with start := none } ∧
      ((p.advance 800).die 3).portFree = some 9 ∧ 9 ≤ (p.advance 800).now ∧ (State.reset.die 3).portFree = none ∧
    State.reset.breaking 0 = none ∧ (s w).breaking 3 = some w ∧ w.driven = false ∧
      (s { w with driven := true }).breaking 3 = some { w with driven := true } ∧
      ((s w).die 3).lastPat.length = 4 ∧ ((s w).die 3).switches.find? (fun w => w.made ≠ none) = none ∧
      ((s m).die 3).switches.find? (fun w => w.made ≠ none) = some m ∧
      (s m).is (SITE_PORT_CFG 3) SITE_PORT_CFG.SRDY_EN = false ∧
      (q.die 3).switches.find? (fun w => w.made ≠ none) = some m ∧ (q.settleEnd 3 10 200 none).2 = true ∧
      (State.reset.flag (SITE_PORT_CFG 0) SITE_PORT_CFG.SERR_EN true).is (SITE_PORT_CFG 0) SITE_PORT_CFG.SERR_EN = true ∧
      (v.is (SITE_WS_CFG 3 3) SITE_WS_CFG.EN && v.seqRunning 12 && !v.commitDecided 12) = true ∧
      v.Carried 0 (SITE_WS_CTRL 3 3) 1#32 ∧
      State.reset.is (SITE_PORT_CFG 0) SITE_PORT_CFG.SERR_EN = false ∧ State.reset.Carried 0 (SITE_WS_CTRL 3 3) 1#32 ∧
      State.reset.Carried 0 LIFE_RW_CTRL 1#32 ∧ State.reset.rdN LIFE_RW_SEL % 65536 = 0 := by decide

theorem test_witness_SoftwareFires :
    let s := State.reset
    let c := s.wr (EVT_SCH 63) (setFld 0#32 EVT_SCH.VALID 1)
    let e : SysXfer := { ch := 63, issue := 8, due := 72, lin := 0, weight := 7 }
    s.Carried 0 (EVT_FIRE 3) 511#32 ∧ s.Carried 0 (EVT_FIRE_SET 3 15) 0xFFFFFFFF#32 ∧ s.Carried 0 (EVT_SLVL 3 15) 0x80000000#32 ∧
      s.Carried 0 EVT_PFIRE 255#32 ∧ s.Carried 0 EVT_SFIRE 63#32 ∧ s.is (EVT_SCH 63) EVT_SCH.VALID = false ∧
      c.Carried 0 EVT_SFIRE 63#32 ∧ c.is (EVT_SCH 63) EVT_SCH.VALID = true ∧ c.rdF (EVT_SCH 63) ⟨0, 4⟩ = c.pkgNum ∧
      c.hub.sys.find? (fun x => x.ch = 63 && x.issue = c.nextPclk) = none ∧
      (c.modHub (fun h => { h with sys := [e] })).hub.sys.find? (fun x => x.ch = 63 && x.issue = 8) = some e := by
  decide +kernel

theorem test_witness_Pins :
    let s := State.reset
    let i := s.flag (EVT_EVIO 3 7) EVT_EVIO.INV true
    let p := s.modDie 3 (fun x => { x with pulses := [(7, 80, 90)] })
    s.Carried 1 (EVT_FIRE_SET 0 0) 1#32 ∧ s.chanRight 1 0 (32 * 0 + 0) ≠ none ∧ s.Carried 1 (EVT_SLVL 0 0) 1#32 ∧
      s.is (EVT_EVIO 3 7) EVT_EVIO.PIN = false ∧ s.is (EVT_EVIO 3 7) EVT_EVIO.DIR = false ∧ mapGet 0 7 (s.die 3).evioAt ≠ s.now + 1 ∧ s.is (EVT_EVIO 3 7) EVT_EVIO.INV ≠ true ∧
      i.is (EVT_EVIO 3 7) EVT_EVIO.PIN ≠ true ∧ i.is (EVT_EVIO 3 7) EVT_EVIO.INV = true ∧
      (s.die 0).pulses.find? (fun x => x.1 = 0) = none ∧ (p.die 3).pulses.find? (fun x => x.1 = 7) = some (7, 80, 90) := by decide

theorem test_witness_EventRouting :
    let x (k : Nat) : Firing := { ch := 511, tick := k, lin := 1, weight := 3 }
    let s := State.reset.modDie 3 (fun y => { y with fires := [x 40, x 30, { x 5 with ch := 0 }] })
    let i := s.modHub (fun h => { h with inject := some { checker := 5, die := 3, target := 511, mode := 0 } })
    (State.reset.die 0).fires.filter (fun x => x.ch = 0) = [] ∧
      ((s.die 3).fires.filter (fun x => x.ch = 511 ∧ x.tick = 30)).map Firing.weight = [3] ∧
      (∀ x ∈ (s.die 3).fires, x.ch = 511 → 30 ≤ x.tick) ∧ s.parityArmed 3 511 = false ∧ i.parityArmed 3 511 = true ∧
      s.inputsOf 3 511 = [] ∧ s.packageOf 0 3 511 = [] := by decide +kernel

theorem test_witness_HubRouting :
    let h (d : Nat) : Nat × HopState := (hopKey 255 (4 + d), { free := 50 })
    let p := State.reset.modHub (fun y =>
      { y with pkg := [{ ch := 255, tick := 40, lin := 0, weight := 2 }], hops := (List.range 4).map h,
               sys := [{ ch := 63, issue := 5, due := 70, lin := 0, weight := 2 }] })
    let q := State.reset.modHub (fun y =>
      { y with hops := [(hopKey 319 9, { free := 50, wait := some { ch := 319, tick := 40, lin := 0, weight := 2 } })] })
    let b := p.modHub (fun y => { y with hops := (List.range 3).map (fun d => (hopKey 319 (4 + d), { free := 99 })) })
    State.reset.hub.pkg.filter (fun x => x.ch = 0) = [] ∧ p.hub.pkg.filter (fun x => x.ch = 255 ∧ x.tick = 40) ≠ [] ∧
      (p.hub.pkg.filter (fun x => x.ch = 255 ∧ x.tick = 40)).map PkgXfer.weight = [2] ∧
      (∀ x ∈ p.hub.pkg, x.ch = 255 → 40 ≤ x.tick) ∧ p.systemOf 255 = [] ∧
      (∀ d : Fin 4, 40 < (p.hop 255 (4 + d)).free ∧ (p.hop 255 (4 + d)).wait = none) ∧
      State.reset.hub.sys.filter (fun x => x.ch = 0) = [] ∧ p.hub.sys.filter (fun x => x.ch = 63 ∧ x.due = 70) ≠ [] ∧
      (∀ x ∈ p.hub.sys, x.ch = 63 → 70 ≤ x.due) ∧ p.packageOf 2 0 63 = [] ∧ p.hub.inject = none ∧
      (∀ d : Fin 4, p.inputsOf d (768 + 63) = [] ∧ p.channelsOf d (0xE00 + 63) = [] ∧ (p.hop 319 (4 + d)).wait = none ∧
        (p.hop 319 (4 + d)).free ≤ 70 - 6 ∧ (p.advance 70).hopUp (4 + d) = true) ∧
      (∀ e : Fin 4, (b.hop 319 (4 + e)).wait = none ∧ ((b.hop 319 (4 + e)).free ≤ 70 - 6 ↔ e = 3)) ∧ b.hub.sys.filter (fun x => x.ch = 63 ∧ x.due = 70) ≠ [] ∧
      (∀ x ∈ b.hub.sys, x.ch = 63 → 70 ≤ x.due) ∧ b.hub.inject = none ∧ (b.advance 70).hopUp (4 + 3) = true ∧
      (q.hop 319 9).wait = some { ch := 319, tick := 40, lin := 0, weight := 2 } ∧ (q.hop 0 0).wait = none ∧ q.hopUp 9 = true ∧
      (q.flag (FLT_SRC_STAT (srcNum .spineRetrain 3)) FLT_SRC_STAT.LIVE true).hopUp 7 = false ∧ q.slotDiscarded 1 = false ∧
      (State.reset.wrF HUB_ALN_STAT HUB_ALN_STAT.PKG_NUM 15).slotDiscarded 1 = true := by decide +kernel

theorem test_witness_RecordsOnTheSpine :
    let x : Rec := { unit := 255, bytes := List.replicate 32 1#8 }
    let b := State.reset.modRed 15 (fun r => { r with buf := [x] })
    let s := State.reset.modHub (fun h => { h with spine := [(15, x)] })
    let o := ((s.wr (DMA_RMAP 15) 63#32).flag (DMA_RING_CTRL 63) DMA_RING_CTRL.EN true).flag DMA_STAT DMA_STAT.LINK_DOWN false
    let n : Rec := { x with nl := true }
    let z := s.modHub (fun h => { h with spine := [(15, n)] })
    n.nl = true ∧ x.nl = false ∧ z.hub.spine = [(15, n)] ∧ z.ringTakes 0 = false ∧
      ((z.flag (DMA_RING_CTRL 0) DMA_RING_CTRL.EN true).flag DMA_STAT DMA_STAT.LINK_DOWN false).ringTakes 0 = true ∧
    b.hub.inject = none ∧ (State.reset.red 0).buf = [] ∧ (b.red 15).buf = [x] ∧ (b.red 15).waiting = [] ∧
      b.spineOut 3 = false ∧ (b.region 15).quotaUse < b.spineQuota 15 ∧ b.ecc = [] ∧ State.reset.hub.spine = [] ∧
      s.hub.spine = [(15, x)] ∧ s.rdF (DMA_RMAP 15) ⟨0, 6⟩ = 0 ∧ s.ringTakes 0 = false ∧ o.hub.inject = none ∧
      o.rdF (DMA_RMAP 15) ⟨0, 6⟩ = 63 ∧ o.ringTakes 63 = true ∧ o.hub.spine = [(15, x)] := by decide +kernel

theorem test_witness_RingsAndNotices :
    let s := State.reset.flag DMA_STAT DMA_STAT.LINK_DOWN false
    let w := s.modRing 63 (fun x => { x with since := 3, firstAt := 7, held := true, lastInt := some 5 })
    let l := ((s.modRing 63 (fun x => { x with late := [(some 255, false, true, [1#8])] })).flag (DMA_RING_CTRL 63) DMA_RING_CTRL.EN true).wr (DMA_RING_TAIL 63) 64#32
    (l.ring 63).late = [(some 255, false, true, [1#8])] ∧ l.inCycle (l.ring 63).lateAt = true ∧ (s.ring 63).late = [] ∧
      (1 + 2 ^ 32 - l.rdN (DMA_RING_HEAD 63)) % 2 ^ 32 ≤ l.ringUsed 63 ∧ l.Carried 0 (DMA_RING_HEAD 63) 1#32 ∧
      (l.wr (DMA_RING_HEAD 63) 1#32).ringTakes 63 = true ∧ w.is DMA_STAT DMA_STAT.LINK_DOWN = false := by decide +kernel

theorem test_witness_RingsAndNotices_holdoff :
    let s := State.reset
    let w := s.modRing 63 (fun x => { x with since := 3, firstAt := 7, held := true, lastInt := some 5 })
    let m := (w.flag (DMA_RING_CTRL 63) DMA_RING_CTRL.IEN true).setMsix 0 12 0#32
    let n := (s.modHub (fun h => { h with fates := [(255, { deliv := 1 })], notices := [(255, 1, 0)] }))
    (s.ring 0).since = 0 ∧ (w.ring 63).since ≠ 0 ∧ w.is (DMA_RING_CTRL 63) DMA_RING_CTRL.IEN = false ∧
      (s.ring 0).held = false ∧ (m.ring 63).held = true ∧ (m.ring 63).lastInt = some 5 ∧
      m.is (DMA_RING_CTRL 63) DMA_RING_CTRL.IEN = true ∧ m.masked 0 0 = false ∧
      m.rdF (DMA_RING_CTRL 63) DMA_RING_CTRL.OWNER = 0 ∧ m.rdF (DMA_RING_CTRL 63) DMA_RING_CTRL.VEC = 0 ∧
      s.Carried 0 (DMA_RING_HEAD 63) 0#32 ∧ (0 + 2 ^ 32 - s.rdN (DMA_RING_HEAD 63)) % 2 ^ 32 ≤ s.ringUsed 63 ∧
      s.Carried 0 (DMA_RING_HEAD 63) 1#32 ∧ s.ringUsed 63 < (1 + 2 ^ 32 - s.rdN (DMA_RING_HEAD 63)) % 2 ^ 32 ∧
      s.Carried 0 (DMA_RING_CTRL 63) (0#32 ||| 1#32) ∧ s.ringOn 63 = false ∧
      (mapGet {} 255 n.hub.fates).deliv + (mapGet {} 255 n.hub.fates).drop ≠ 0 ∧ n.spineOut 3 = false ∧ n.noticesOut 3 < 32 ∧
      s.hub.notices.find? (fun x => x.1 / 64 = 0) = none ∧ n.hub.notices.find? (fun x => x.1 / 64 = 3) = some (255, 1, 0) ∧
      n.flight 255 = 2 := by decide +kernel

theorem test_witness_HostLinkAndPower :
    let s := State.reset
    let st := (s.flag DMA_STAT DMA_STAT.STALL true).flag DMA_STAT DMA_STAT.LINK_DOWN false
    s.is DMA_STAT DMA_STAT.STALL = false ∧ st.is DMA_STAT DMA_STAT.STALL = true ∧ st.is DMA_STAT DMA_STAT.LINK_DOWN = false ∧
      Canon resetOf s.imgVals ∧ Canon resetOf [(DMA_RING_CTRL 63, 1#32)] ∧ bitOf s.hub.d3 7 = false ∧
      bitOf (s.modHub (fun h => { h with d3 := 0x80 })).hub.d3 7 = true := by decide

theorem test_witness_SpineOutages :
    let s := State.reset
    let o := s.flag (FLT_SRC_STAT (srcNum .spineRetrain 3)) FLT_SRC_STAT.LIVE true
    let b := s.flag (FLT_SRC_STAT (srcNum .spineDown 3)) FLT_SRC_STAT.LIVE true
    let w := (s.modDie 3 (fun x => { x with spineTries := 3 })).modHub (fun h => { h with spineWait := [(3, .read 7 64 false)] })
    let bo := b.flag (FLT_SRC_STAT (srcNum .spineRetrain 3)) FLT_SRC_STAT.LIVE true
    s.spineOut 0 = false ∧ o.spineOut 3 = true ∧ s.spineDown 0 = false ∧ b.spineDown 3 = true ∧
      3 ≤ ((s.modDie 3 (fun x => { x with spineTries := 3 })).die 3).spineTries ∧
      ((s.modDie 3 (fun x => { x with spineTries := 2 })).die 3).spineTries = 2 ∧
      exec (.spineRetrain 3) s = .next (s.spineAttempt 3) ∧ (s.spineAttempt 3).hub.spineWait = [] ∧ s.hub.spineWait = [] ∧
      (w.spineDown 3 || decide (w.hub.spineWait ≠ [(3, .read 7 64 false)])) = false ∧ 3 ≤ (w.die 3).spineTries ∧
      (bo.spineDown 3 && bo.spineOut 3) = true ∧ (s.modHub (fun h => { h with spineWait := [(3, .write 0 0x4000000 1#32)] })).hopsWaiting (4 + 3) = [] ∧
      (s.die 3).spineFails < 32 ∧ 32 ≤ ((s.modDie 3 (fun x => { x with spineFails := 32 })).die 3).spineFails ∧
      (s.modHub (fun h => { h with spineWait := [(3, .write 0 0x4000000 1#32)] })).hub.spineWait = [(3, .write 0 0x4000000 1#32)] ∧
      s.is (DIE_SPINE_STAT 3) DIE_SPINE_STAT.UP = false ∧
      (s.flag (DIE_SPINE_STAT 3) DIE_SPINE_STAT.UP true).is (DIE_SPINE_STAT 3) DIE_SPINE_STAT.UP = true :=
  ⟨by decide, by decide, by decide, by decide, by decide, by decide, rfl, by decide +kernel, by decide, by decide, by decide, by decide,
    by decide, by decide, by decide, by decide, by decide, by decide⟩

theorem test_witness_RopeSlots :
    let s := State.reset
    let m := s.wrF HUB_ALN_STAT HUB_ALN_STAT.PKG_NUM 3
    let u := m.flag (ROPE_STAT 0) ROPE_STAT.LINK_UP true
    let g := s.flag ROPE_CFG ROPE_CFG.SAFE_PROP true
    m.pkgNum = 3 ∧ (0 : Fin 16).val < m.pkgNum ∧ u.is (ROPE_STAT 0) ROPE_STAT.LINK_UP = true ∧ 0 < (u.ropePort 0).cred3 ∧
      s.is ROPE_CFG ROPE_CFG.SAFE_PROP = false ∧ g.is ROPE_CFG ROPE_CFG.SAFE_PROP = true ∧ (15 : Fin 16).val ≠ g.pkgNum ∧
      s.slotDiscarded 1 = false ∧ s.slotDiscarded 0 = false ∧ (s.wrF HUB_ALN_STAT HUB_ALN_STAT.PKG_NUM 15).slotDiscarded 1 = true ∧
      s.isMember = false ∧ (m.flag HUB_CAL_STAT HUB_CAL_STAT.MEMBER true).isMember = true ∧ (2 : Fin 16).val < (m.flag HUB_CAL_STAT HUB_CAL_STAT.MEMBER true).pkgNum ∧ m.pkgNum ≠ 15 ∧
      s.pool 0x27 = some (16, 0, 0) ∧ (mapGet (0, 0, 0, 0) 0x27 s.hub.audit).2.1 + 16 + 0 = 16 ∧
      (mapGet (0, 0, 0, 0) 0x27 s.hub.audit).2.1 + 0 + 0 ≠ 16 := by decide +kernel

theorem test_witness_MailboxAndAudit :
    let s := State.reset
    let u := s.flag (ROPE_STAT 1) ROPE_STAT.LINK_UP true
    u.Carried 0 ROPE_MBX_TX (w32 (0x80000000 + 16 * 15 + 15)) ∧ u.Carried 0 ROPE_MBX_TX (w32 (0x80000000 + 16 * 8 + 14)) ∧
      u.is ROPE_MBX_TX ROPE_MBX_TX.BUSY = false ∧ u.mgmtPorts 14 2 = [1] ∧ u.sendsDown = true ∧
      u.is (ROPE_STAT 1) ROPE_STAT.LINK_UP = true ∧ 0 < (u.ropePort 1).cred3 ∧ (u.ropePort 0).wait3 = [] ∧
      (u.ropePort 1).wait3 = [] ∧ (u.flag ROPE_MBX_TX ROPE_MBX_TX.BUSY true).Carried 0 ROPE_MBX_TX (w32 (0x80000000 + 16 * 8 + 14)) ∧
      (∀ n : Fin 208, ((s.advance (nextMultiple msTicks s.now)).pool n).all (fun x => x.2.1 + x.2.2 ≤ x.1) = true) := by
  decide +kernel

theorem test_witness_RopeLinks :
    let s := State.reset.flag (ROPE_STAT 1) ROPE_STAT.LINK_UP true
    let r := s.modRope 1 (fun y => { y with replay := true, rxSeq := 7 })
    let b := [0xB4#8, 1#8, 0#8, 0#8, 3#8] ++ List.replicate 115 0#8 ++ [0xC3#8, 0#8, 0#8, 0#8]
    let f := b ++ leBytes 4 (crc32 b)
    State.reset.is (ROPE_STAT 0) ROPE_STAT.LINK_UP = false ∧ s.is (ROPE_STAT 1) ROPE_STAT.LINK_UP = true ∧
      frameOk [] = false ∧ frameOk f = true ∧ (r.ropePort 1).replay = true ∧
      byteField f 1 1 ≠ ((r.ropePort 1).rxSeq + 1) % 256 ∧ (s.ropePort 1).replay = false ∧
      bitOf (byteField f 3 1) 0 = false ∧ bitOf s.hub.ropeInj 1 = false ∧ s.hub.hops = [] ∧ (∀ k : Fin 7, (f.drop (8 + 16 * k)).take 16 = List.replicate 16 0#8) ∧
      (s.ropePort 1).wait0 = [] ∧ (s.ropePort 1).wait3 = [] := by decide +kernel

theorem test_witness_LoaderCommands :
    let s := State.reset
    let i := s.modNvm (fun n => { n with slots := [(33, [1#8])] })
    let o (op : Nat) := s.setOp { op := op, target := 15, slot := 1, src := 0 }
    s.hub.imgOp = none ∧ s.Carried 0 IMG_CMD (imgCmdWord 1 16 0 0 0) ∧ s.Carried 0 IMG_CMD (imgCmdWord 2 16 1 0 0) ∧
      s.slotInUse 16 1 = false ∧ s.slotInUse 16 0 = true ∧ s.Carried 0 IMG_CMD (imgCmdWord 5 16 1 0 0) ∧
      s.Carried 0 IMG_CMD (imgCmdWord 2 16 0 0 0) ∧ s.Carried 0 IMG_CMD (imgCmdWord 5 16 0 0 0) ∧
      s.Carried 0 IMG_CMD (imgCmdWord 3 15 1 1 1) ∧ s.restarting 15 = false ∧ s.Carried 0 IMG_CMD (imgCmdWord 4 16 1 0 0) ∧
      i.Carried 0 IMG_CMD (imgCmdWord 4 16 1 0 0) ∧ i.slotImage 16 1 ≠ [] ∧ s.slotImage 16 1 = [] ∧
      s.Carried 0 IMG_CMD (imgCmdWord 1 31 0 0 0) ∧ s.Carried 0 IMG_CMD (imgCmdWord 6 0 0 0 0) ∧
      (o 3).Carried 0 IMG_CMD (imgCmdWord 6 0 0 0 0) ∧ (o 3).rdF IMG_STAT IMG_STAT.PHASE ≤ 4 ∧
      (o 3).hub.imgOp = some { op := 3, target := 15, slot := 1, src := 0 } ∧
      (o 5).hub.imgOp = some { op := 5, target := 15, slot := 1, src := 0 } ∧ (o 2).ecc = [] ∧
      (o 2).hub.imgOp = some { op := 2, target := 15, slot := 1, src := 0 } ∧
      (o 1).hub.imgOp = some { op := 1, target := 15, slot := 1, src := 0 } ∧ s.is TMP_SHUT TMP_SHUT.SHUT = false ∧
      (((o 5).flag TMP_SHUT TMP_SHUT.SHUT true).is TMP_SHUT TMP_SHUT.SHUT) = true := by decide +kernel

theorem test_witness_LoaderCommands_swap :
    let x : ImgOp := { op := 3, target := 15, slot := 1, src := 0, content := { program := [7#32] }, reqAt := some 5 }
    let s := ((State.reset.setOp x).imgPhase 4).advance 80000
    s.applyIn 4 = some x ∧ x.reqAt = some 5 ∧ s.quiescent 15 = true ∧ s.inCycle (s.swapAt x 5) = true ∧ s.spineOut (15 / 4) = false ∧
      (∀ p ∈ unitsOf 15, s.regrouped x.content p = true → s.idle p = true) ∧ s.Carried 0 IMG_CMD (imgCmdWord 6 0 0 0 0) := by decide +kernel

theorem test_witness_ApplyPhases :
    let x : ImgOp := { op := 3, target := 15, slot := 1, src := 0, content := { program := [7#32] }, reqAt := some 5 }
    let s (n : Nat) := (State.reset.setOp x).imgPhase n
    let i := (s 1).modNvm (fun n => { n with slots := [(31, [1#8])] })
    let w := (s 4).flag IMG_STAT IMG_STAT.WAIT_IDLE true
    let b := (s 4).flag (CH_CTRL 240) CH_CTRL.OUT_REQ true
    let y : ImgOp := { x with content := { classes := [1] } }
    let g := ((State.reset.setOp y).imgPhase 4).flag (CH_CTRL 240) CH_CTRL.OUT_REQ true
    State.reset.applyIn 1 = none ∧ State.reset.applyIn 2 = none ∧ State.reset.applyIn 3 = none ∧ State.reset.applyIn 4 = none ∧
      State.reset.applyIn 6 = none ∧ (s 1).applyIn 1 = some x ∧ i.applyIn 1 = some x ∧ i.slotImage 15 1 ≠ [] ∧
      (s 2).applyIn 2 = some x ∧ (s 3).applyIn 3 = some x ∧ (s 3).spineOut 3 = false ∧ x.content.kernels = [] ∧
      (s 4).applyIn 4 = some x ∧ x.reqAt = some 5 ∧ x.at' = none ∧ (s 4).quiescent 15 = true ∧
      (s 4).is IMG_STAT IMG_STAT.WAIT_IDLE = false ∧ w.applyIn 4 = some x ∧ w.is IMG_STAT IMG_STAT.WAIT_IDLE = true ∧
      (∀ p ∈ unitsOf 15, (s 4).regrouped x.content p = true → (s 4).idle p = true) ∧ b.idle 240 = false ∧
      g.applyIn 4 = some y ∧ g.regrouped y.content 240 = true ∧ g.idle 240 = false ∧ 240 ∈ unitsOf 15 ∧
      g.quiescent 15 = true ∧ (s 6).applyIn 6 = some x ∧ (s 6).ecc = [] ∧ (s 6).hub.inject = none ∧ (s 6).hub.bankBad = false ∧
      ((State.reset.setOp { x with at' := some 9 }).imgPhase 4).applyIn 4 = some { x with at' := some 9 } ∧
      ((s 4).flag (FLT_SRC_STAT (srcNum .spineRetrain 3)) FLT_SRC_STAT.LIVE true).spineOut 3 = true := by decide +kernel

theorem test_witness_ApplyPhases_waits :
    let x : ImgOp := { op := 3, target := 15, slot := 1, src := 0, content := { program := [7#32] }, reqAt := some 5 }
    let s (n : Nat) := (State.reset.setOp x).imgPhase n
    ((s 3).flag (FLT_SRC_STAT (srcNum .spineRetrain 3)) FLT_SRC_STAT.LIVE true).spineOut 3 = true ∧
      ((s 4).flag (SEQ_STAT 15) SEQ_STAT.RUNNING true).quiescent 15 = false ∧
      ((State.reset.setOp { x with reqAt := none }).imgPhase 4).applyIn 4 = some { x with reqAt := none } := by decide +kernel

theorem test_witness_KeysBootAndNightlight :
    let s := State.reset
    let d := s.flag HUB_BOOT_STAT HUB_BOOT_STAT.DONE true
    let b := s.wrF HUB_BOOT_STAT HUB_BOOT_STAT.STEP 5
    let n := (s.flag DMA_CFG DMA_CFG.NL_EN false).modMea 255 (fun m => { m with nl := [(0, { n := 3, min := f64One })] })
    s.Carried 0 IMG_KEY_CTRL (w32 (256 + 3)) ∧ s.bit IMG_KEY_STAT 3 = false ∧ s.Carried 0 IMG_KEY_CTRL (w32 (512 + 3)) ∧
      (s.wrBit IMG_KEY_STAT 3 true).Carried 0 IMG_KEY_CTRL (w32 (256 + 3)) ∧ (s.wrBit IMG_KEY_STAT 3 true).bit IMG_KEY_STAT 3 = true ∧
      s.rdF HUB_BOOT_STAT HUB_BOOT_STAT.STEP ≠ 5 ∧ b.rdF HUB_BOOT_STAT HUB_BOOT_STAT.STEP = 5 ∧ b.hub.clk.skewN = none ∧
      b.hub.clk.aligning = false ∧ b.is HUB_BOOT_STAT HUB_BOOT_STAT.DONE = false ∧
      s.Carried 0 (minSeqAddr 16) 5#32 ∧ s.rdN (IMG_MIN_SEQ 16) < 5 ∧ (s.wr (IMG_MIN_SEQ 16) 9#32).Carried 0 (minSeqAddr 16) 5#32 ∧
      5 < (s.wr (IMG_MIN_SEQ 16) 9#32).rdN (IMG_MIN_SEQ 16) ∧ d.is HUB_BOOT_STAT HUB_BOOT_STAT.DONE = true ∧
      s.is HUB_BOOT_STAT HUB_BOOT_STAT.DONE = false ∧ s.hub.jtag < 2 ∧ 2 ≤ (s.modHub (fun h => { h with jtag := 4 })).hub.jtag ∧
      n.is DMA_CFG DMA_CFG.NL_EN = false ∧ n.nightlight 15 = true ∧ (mapGet {} 0 (n.unit 255).mea.nl).n ≠ 0 ∧
      (n.advance 5).now / secTicks = 0 ∧ s.accepts = true ∧ s.hub.rstWait = false ∧ (s.flag DMA_CFG DMA_CFG.NL_EN true).is DMA_CFG DMA_CFG.NL_EN = true ∧ (∀ d : Fin 4, (s.flag DMA_CFG DMA_CFG.NL_EN true).spineOut d = false) ∧
      (s.modHub (fun h => { h with rstWait := true })).ramped = true ∧
      ((s.modHub (fun h => { h with rstWait := true })).modUnit 3 (fun u => { u with safe := .ramp })).ramped = false ∧
      (s.flag (RGN_INFO 0) RGN_INFO.NL false).nightlight 0 = false := by decide +kernel

theorem test_witness_SensorReadings :
    let s := State.reset
    let o := s.modHub (fun h => { h with sensors := [(87, { out := 2 })] })
    let x := s.wrBit TMP_EXCL_2 23 true
    s.hub.inject = none ∧ s.sensorConv 87 (2800#16).toInt = 2800 ∧ o.sensorConv 87 (2801#16).toInt = 2801 ∧
    s.sensorOff 87 = false ∧ -880 ≤ (2800 : Int) ∧ (2800 : Int) ≤ 2800 ∧ (s.sensor 87).diff < 99 ∧ (o.sensor 87).out = 2 ∧
      o.sensorOff 87 = false ∧ 2800 < (2801 : Int) ∧ x.sensorOff 87 = true ∧ x.Carried 0 TMP_CTRL (w32 (256 + 87)) ∧
      s.Carried 0 TMP_CTRL (w32 (256 + 88)) := by decide +kernel

theorem test_witness_EvaluationAndGovernor :
    let s := State.reset
    (∀ r : Fin 16, s.thermVal r < 1472 ∧ s.is (TMP_RGN r) TMP_RGN.WARN = false ∧ s.rdF (TMP_RGN r) TMP_RGN.REQ = 0 ∧
        (s.therm r).throttle = false ∧ (s.therm r).rateThr = false ∧ (s.therm r).rateWarn = false ∧
        (s.therm r).hist.length < 109 ∧ s.legacyHot r = false) ∧ s.hub.govOver = 0 ∧
      s.hub.power.sum ≤ s.budget * s.hub.power.length ∧ s.rdF PWR_GOV PWR_GOV.K = 0x8000 ∧
      (∀ r : Fin 16, s.enfSteps r = 3 → (s.region r).power.sum ≤ s.capBudget * (s.region r).power.length) ∧
      (s.flag TMP_CFG TMP_CFG.REC_EN true).is TMP_CFG TMP_CFG.REC_EN = true ∧
      (s.flag TMP_CFG TMP_CFG.REC_EN false).is TMP_CFG TMP_CFG.REC_EN = false ∧
      (s.flag TMP_CFG TMP_CFG.REC_EN true).ringOn 0 = false := by decide +kernel

theorem test_witness_ThermalSteps :
    let s := State.reset
    let g := (s.modTherm 15 (fun x => { x with grace := some 5, coolFrom := some 7 })).wrF (TMP_RGN 15) TMP_RGN.REQ 2
    let a := g.wrF (TMP_RGN 15) TMP_RGN.ENF 2
    let b := a.modTherm 15 (fun x => { x with stepVal := 2000 })
    let c := a.wrF (TMP_RGN 15) TMP_RGN.REQ 0
    (s.therm 0).grace = none ∧ (g.therm 15).grace = some 5 ∧ g.enfSteps 15 < g.rdF (TMP_RGN 15) TMP_RGN.REQ ∧
      a.rdF (TMP_RGN 15) TMP_RGN.REQ ≤ a.enfSteps 15 ∧ (a.therm 15).grace = some 5 ∧ s.enfSteps 0 = 0 ∧ a.enfSteps 15 = 2 ∧
      a.rdF (TMP_RGN 15) TMP_RGN.REQ ≠ 0 ∧ (a.therm 15).stepVal - 16 < a.thermVal 15 ∧
      b.thermVal 15 ≤ (b.therm 15).stepVal - 16 ∧ b.enfSteps 15 = 2 ∧ b.rdF (TMP_RGN 15) TMP_RGN.REQ ≠ 0 ∧
      (s.therm 0).coolFrom = none ∧ (c.therm 15).coolFrom = some 7 ∧ c.enfSteps 15 ≠ 0 ∧
      c.rdF (TMP_RGN 15) TMP_RGN.REQ = 0 ∧ c.legacyHot 15 = false := by decide +kernel

theorem test_witness_Shutdown :
    let s := State.reset
    let x := s.wrBit TMP_EXCL_2 23 true
    let h := (s.flag TMP_SHUT TMP_SHUT.SHUT true).flag TMP_CTRL TMP_CTRL.RESTART true
    s.is TMP_SHUT TMP_SHUT.SHUT = false ∧ s.sensorOff 87 = false ∧ x.sensorOff 87 = true ∧ x.sensorVal 87 < 2000 ∧
      h.is TMP_SHUT TMP_SHUT.SHUT = true ∧ s.Carried 0 TMP_CTRL (w32 (128 + 127)) ∧
      h.hub.restartTrims = none ∧ (h.modHub (fun y => { y with restartTrims := some [] })).hub.restartTrims = some [] ∧ h.hub.clk.skewN = none ∧
      (h.is TMP_SHUT TMP_SHUT.SHUT && decide (h.hub.restartTrims = none) && h.restartCool && h.is TMP_CTRL TMP_CTRL.RESTART) = true := by decide +kernel

theorem test_witness_Supplies :
    let s := State.reset
    let w := s.wrBit PWR_STAT 5 true
    s.bit PWR_STAT 0 = false ∧ 10 * (712#16).toNat < (railLimits 0).1 ∧ (railLimits 0).1 ≤ 10 * (713#16).toNat ∧
      10 * (727#16).toNat ≤ (railLimits 0).2.1 ∧ (railLimits 0).2.1 < 10 * (728#16).toNat ∧ (railLimits 5).2.1 < 10 * (15000#16).toNat ∧
      10 * (787#16).toNat ≤ (railLimits 0).2.2.2.2 ∧ (railLimits 0).2.2.2.2 < 10 * (788#16).toNat ∧ 10 * s.rdN (PWR_RAIL 0) ≤ (railLimits 0).2.2.2.2 ∧
      w.bit PWR_STAT 5 = true ∧ (∃ q : Fin 6, q ≠ 0 ∧ w.bit PWR_STAT q = true) ∧
      (∀ q : Fin 6, q ≠ 5 → w.bit PWR_STAT q = false) := by decide

theorem test_witness_FaultCommands :
    let s := State.reset
    let h : Shadow := { level := 2, inst := 15, sev := 2, src := 7, start := 5, stop := some 0 }
    let x := s.modHub (fun y => { y with shadows := [h], stops := [{ src := 7, inst := 15, start := 5, counted := true }] })
    let z := x.flag (CH_STAT 255) CH_STAT.OUT_CLOSED true
    let c := s.modHub (fun y => { y with cfgBad := [(3, 11)] })
    let i := s.wr FLT_INJ_SEL 0x00000004#32
    s.ecc = [] ∧ s.hub.inject = none ∧ s.hub.shadows.find? (fun h => h.level = 0 && h.inst = 0 && h.sev ≠ 4) = none ∧
      x.hub.shadows.find? (fun h => h.level = 2 && h.inst = 15 && h.sev ≠ 4) = some h ∧ x.shadowMet h = true ∧
      z.shadowMet h = false ∧ z.hub.shadows.find? (fun h => h.level = 2 && h.inst = 15 && h.sev ≠ 4) = some h ∧
      s.Carried 0 (FLT_SRC_CFG 544) 1#32 ∧ kindOf 544 ≠ none ∧ kindOf 100 = none ∧ s.Carried 0 (FLT_SRC_CFG 100) 1#32 ∧ bitOf (s.rdN (DIE_ECC_CTRL 3)) 0 = true ∧
      bitOf ((s.wr (DIE_ECC_CTRL 3) 0#32).rdN (DIE_ECC_CTRL 3)) 0 = false ∧ s.scrubPos 4 + 1 < scrubWords 4 ∧
      s.scrubPos 3 + 1 < scrubWords 3 ∧ s.Carried 0 (DIE_ECC_CTRL 3) 0#32 ∧ s.hub.cfgBad.contains (3, 11) = false ∧
      c.hub.cfgBad.contains (3, 11) = true ∧ s.hub.cfgFlips = [] ∧ cfgBlockOf (EVT_IN_CFG 3 0x300) = some (3, 11) ∧ 5#32 &&& imageMask (EVT_IN_CFG 3 0x300) ≠ 0#32 ∧ s.Carried 0 FLT_INJ_CTRL 3#32 ∧ i.Carried 0 FLT_INJ_CTRL 3#32 ∧
      s.rdF FLT_INJ_SEL FLT_INJ_SEL.CHECKER = 0 ∧ i.rdF FLT_INJ_SEL FLT_INJ_SEL.CHECKER = 4 ∧
      getFld 3#32 FLT_INJ_CTRL.ARM = 1 ∧ s.is FLT_INJ_CTRL FLT_INJ_CTRL.ARM = false ∧ getFld 2#32 FLT_INJ_CTRL.ARM = 0 ∧
      s.Carried 0 FLT_INJ_CTRL 2#32 ∧ s.rdF FLT_INJ_SEL FLT_INJ_SEL.TARGET = 0 ∧
      i.rdF FLT_INJ_SEL FLT_INJ_SEL.TARGET = 0 := by decide +kernel

theorem test_witness_PackageResets :
    let s := State.reset
    s.ecc = [] ∧ s.hub.inject = none ∧ s.hub.imgOp = none ∧ (∀ p : Fin 256, s.siteOf p = none) ∧ s.nvm.life.1 = [] ∧
      s.nvm.banks = [] ∧ s.nvm.trims = [] ∧ keepNvm HUB_CLK_STAT = 0#32 ∧ keepNvm (IMG_SEQ_A 16) = 0xFFFFFFFF#32 ∧
      s.keepCal HUB_CLK_STAT = 0#32 ∧ HUB_CLK_STAT ∉ lifeRegs ∧ s.keepCal (MEA_TRIM 15 3 0) = 0xFFFFFFFF#32 ∧
      s.Carried 0 HUB_RST_CTRL 0xA5000001#32 ∧ (0#8) ≠ 0xA5#8 ∧ s.accepts = true ∧ (∀ p : Fin 256, s.drives p = false) ∧
      (s.modUnit 255 (fun u => { u with swCmd := true })).drives 255 = true ∧ (s.modUnit 255 (fun u => { u with swCmd := true })).Carried 0 HUB_RST_CTRL 0xA5000001#32 ∧
      (∀ r : Fin 6, 10 * (0#16).toNat < (railLimits r).2.2.1 ∧ (railLimits r).2.2.1 ≤ 10 * (0xFFFF#16).toNat) :=
  ⟨by decide, by decide, by decide, by decide +kernel, by decide, by decide, by decide, by decide +kernel, by decide +kernel,
    by decide +kernel, by decide +kernel, by decide +kernel, by decide +kernel, by decide, by decide +kernel, by decide +kernel, by decide +kernel, by decide +kernel, by decide +kernel⟩

theorem test_witness_RegionRestart :
    let s := State.reset.flag (RGN_INFO 15) RGN_INFO.NL false
    let p (n : Nat) := s.modRegion 15 (fun x => { x with restart := n })
    let b := (p 1).modUnit 255 (fun u => { u with safe := .ramp })
    let h : Shadow := { level := 4, inst := 0, sev := 5, src := 7, start := 5 }
    s.Carried 0 (RGN_CTRL 15) 1#32 ∧ s.restarting 15 = false ∧ (p 1).Carried 0 (RGN_CTRL 15) 1#32 ∧
      (p 1).restarting 15 = true ∧ (s.region 0).restart ≠ 1 ∧ 255 ∈ unitsOf 15 ∧ (b.unit 255).safe ≠ .none ∧
      (p 1).ecc = [] ∧ (p 1).hub.inject = none ∧ (p 1).hub.imgOp = none ∧ (p 1).itemsHeld 15 = [] ∧
      ((p 1).region 15).restart = 1 ∧
      (∀ q ∈ unitsOf 15, (p 1).closed q = false ∧ ((p 1).unit q).safe = .none ∧ (p 1).siteOf q = none) ∧
      (s.region 0).restart ≠ 2 ∧ ((p 2).region 15).restart = 2 ∧ ((p 2).region 15).img = none ∧
      ((p 2).region 15).restartEcc = false ∧ (s.region 0).restart ≠ 3 ∧ 4 < h.sev ∧ within 2 15 h.level h.inst = true ∧
      ((p 3).region 15).restart = 3 ∧ ((p 3).region 15).skewWait = false ∧ (((p 3).modRegion 15 (fun x => { x with skewWait := true })).region 15).skewWait = true ∧ (∀ h ∈ (p 3).hub.shadows, 4 < h.sev → within 2 15 h.level h.inst = false) ∧
      ((p 3).region 15).img = none ∧ (p 3).hub.imgOp = none := by decide +kernel

theorem test_witness_JournalAndLife :
    let s := State.reset
    let q := s.journal (.cal 5 6)
    let m := s.journal (.mark true)
    let z := q.modNvm (fun n => { n with spare := 0 })
    let r := s.modHub (fun h => { h with relayCnt := [(65535, 3)] })
    let d := s.modHub (fun h => { h with flushDue := true })
    let k := s.modClk (fun c => { c with kaFit := 5, kaSecs := 9 })
    let c := s.wrBit LIFE_COND 13 true
    s.nvm.queue = [] ∧ q.nvm.queue = [.cal 5 6] ∧ m.nvm.queue = [.mark true] ∧ q.jRecent.length < 3600 ∧ s.hub.flushDue = false ∧ d.hub.flushDue = true ∧ d.ramped = true ∧ s.hub.clk.kaFit = s.nvm.kaFit.1 ∧
      (k.hub.clk.kaFit, k.hub.clk.kaSecs) ≠ k.nvm.kaFit ∧ (JRec.setting 5 7#32).area = 4 ∧ s.is TMP_SHUT TMP_SHUT.SHUT = false ∧ (q.area 2).erasing = none ∧ (q.area 2).fits (min maxPayload (q.nvm.batch.flatMap JRec.payload).length) = true ∧ ((q.modArea 2 (fun x => { x with erasing := some 5 })).area 2).erasing = some 5 ∧ ((q.flag TMP_SHUT TMP_SHUT.SHUT true).is TMP_SHUT TMP_SHUT.SHUT = true ∧ q.nvm.flushing = false) ∧ (∀ p : Fin 256, s.siteOf p = none) ∧ s.ecc = [] ∧ s.hub.inject = none ∧
      (JRec.cal 5 6).content < 4 ∧ (JRec.mark true).content < 4 ∧ q.nvm.spare ≠ 0 ∧ z.nvm.spare = 0 ∧
      z.nvm.queue = [.cal 5 6] ∧ (r.hub.relayCnt, r.hub.relayClass, r.hub.relayWarned) ≠ r.nvm.relays ∧
      s.Carried 0 LIFE_CTRL 1#32 ∧ (s.flag (CH_STAT 255) CH_STAT.OUT_CLOSED true).closed 255 = true ∧
      s.bit LIFE_COND (8 + 5) = false ∧ c.bit LIFE_COND (8 + 5) = true ∧ c.breached 5 = false := by decide +kernel

theorem test_witness_HostAccess :
    let s := State.reset
    let d := s.flag (FLT_SRC_STAT (srcNum .spineDown 3)) FLT_SRC_STAT.LIVE true
    let o := s.flag (FLT_SRC_STAT (srcNum .spineRetrain 3)) FLT_SRC_STAT.LIVE true
    let n := s.flag (RGN_INFO 15) RGN_INFO.NL false
    (0#4) ≠ 0xF#4 ∧ s.accepts = true ∧ o.accepts = true ∧ d.accepts = true ∧ (s.modHub (fun h => { h with rstWait := true })).accepts = false ∧ s.bar2Refusal 1 hubMem 1 false = some rsnSecure ∧ d.bar2Refusal 0 0x6000000 1 false = none ∧ s.bar2Refusal 0 (hubMem + 0x1FFFFF) 1 false = none ∧ 16 < 134217724 / 4 * 4 % 64 / 4 + [1#32, 2#32].length ∧
      (⟨SITE_ACC_SEL 3, by decide⟩ : Fin 134217728).val = SITE_ACC_SEL 3 ∧ s.Carried 0 (SITE_ACC_SEL 3) 0x3FFF#32 ∧ n.Carried 0 (CH_SETPT 255) 5#32 ∧ n.Carried 0 (CH_MODE 255) 0#32 ∧
      (⟨CH_SETPT 255, by decide⟩ : Fin 134217728).val = CH_SETPT 255 ∧ (⟨CH_MODE 255, by decide⟩ : Fin 134217728).val = CH_MODE 255 ∧
      s.bar2Refusal 1 hubMem 1 true = some rsnSecure ∧ d.bar2Refusal 0 0x6000000 1 true = none ∧ d.spineDown (0x6000000 / 0x2000000) = true ∧ o.bar2Refusal 0 0x6000000 1 true = none ∧
      o.spineDown (0x6000000 / 0x2000000) = false ∧ o.spineOut (0x6000000 / 0x2000000) = true ∧
      s.ecc = [] ∧ s.hub.inject = none ∧ s.bar2Refusal 0 (hubMem + 0x1FFFFF) [1#8].length true = none ∧
      hubMem + 0x1FFFFF + [1#8].length ≤ hubMem + 0x200000 ∧ s.stagingBusy = false ∧ s.Carried 0 (HUB_FN_CTRL 7) 1#32 ∧
      s.Carried 0 (HUB_FN_CTRL 0) 1#32 ∧ s.Carried 0 (HUB_FN_CTRL 7) 0#32 ∧ s.Carried 0 (HUB_FN_CTRL 0) 0#32 ∧
      s.Carried 0 (HUB_INT_EN 7) 0x3FF#32 ∧ s.Carried 7 (HUB_INT_STAT 7) 0x3FF#32 ∧
      s.Carried 7 (0xF0000 + 16 * 63 + 12) 0#32 := by decide +kernel

theorem test_witness_SmbusAndJtag :
    let s := State.reset
    let h := s.wrN (TMP_RD 87) 1600
    let j := (s.modHub (fun h => { h with jtag := 4 })).wrF HUB_BOOT_STAT HUB_BOOT_STAT.STEP 2
    (∀ j : Fin 88, h.shownTemp j ≤ h.shownTemp 87) ∧ (∀ j : Fin 88, j < 87 → h.shownTemp j < h.shownTemp 87) ∧
      s.hub.jtag < 2 ∧ 2 ≤ j.hub.jtag ∧ j.rdF HUB_BOOT_STAT HUB_BOOT_STAT.STEP = 2 := by decide +kernel

theorem test_witness_EveryCommandCompletes :
    ({ State.reset with pending := [Instr.lifeJournal] } : State).pending = [Instr.lifeJournal] ∧ State.reset.pending = [] :=
  ⟨rfl, rfl⟩

end Sys2Proof.Machine
end

section
/-! Host reads of the hub's time block: the rule of a shadow, the rule of a read request, what one carried-out read of a time register
does, and from these the LO-first reads of the timestamp (R47) and of the calendar (R50). -/

namespace Sys2Proof.Machine

/-! ### Shadows -/

@[simp] theorem State.shadow_latch_same (s : State) (f a : Nat) (v : Word) : (s.latch f a v).shadow f a = v := by
  simp [State.shadow, State.latch]

theorem State.shadow_latch_ne (s : State) (f : Nat) {a b : Nat} (v : Word) (h : b ≠ a) :
    (s.latch f a v).shadow f b = s.shadow f b := by
  simp [State.shadow, State.latch, h]

theorem State.shadow_congr {s t : State} (h : t.perFn = s.perFn) (f a : Nat) : t.shadow f a = s.shadow f a := by
  simp [State.shadow, h]

@[simp] theorem State.shadow_answer (s : State) (f : Nat) (w : Word) (g a : Nat) : (s.answer f w).shadow g a = s.shadow g a := rfl

theorem State.shadow_reset (f a : Nat) : State.reset.shadow f a = 0#32 := rfl

/-! ### The completion of a read -/

@[simp] theorem State.fenced_answer (s : State) (g : Nat) (w : Word) (f : Nat) : (s.answer g w).fenced f = s.fenced f := rfl

@[simp] theorem State.answer_reads (s : State) (f : Nat) (w : Word) : (s.answer f w).out.reads = (f, w) :: s.out.reads := rfl

/-- States of equal registers and equal memory meet the frames of a read. -/
theorem sameRegs_sameMem {s t : State} (hr : t.regs = s.regs) (hm : t.mem = s.mem) : SameRegs [] s t ∧ SameMem s t :=
  ⟨fun a _ => State.rd_congr hr a, fun a => State.byte_congr hm a⟩

/-! ### Read requests -/

theorem exec_tsLoRead (f : Fin 8) (n : Nat) (s : State) : exec (.tsLoRead f (n, [])) s = .next (s.readRequest f HUB_TS_LO n) := rfl

theorem exec_calFracRead (f : Fin 8) (n : Nat) (s : State) : exec (.calFracRead f n) s = .next (s.readRequest f HUB_CAL_FRAC n) := rfl

@[simp] theorem State.hostReads_zero (s : State) (f a : Nat) : s.hostReads f a 0 = s := rfl

theorem State.hostReads_succ (s : State) (f a n : Nat) : s.hostReads f a (n + 1) = (s.hostRead f a).hostReads f (a + 4) n := rfl

/-- A request that stays within its 64 bytes reads its DWORDs one by one (R456). -/
theorem State.readRequest_within {s : State} (h : s.accepts = true) (f : Nat) {a n : Nat} (hn : a % 64 / 4 + n < 16) :
    s.readRequest f a n = s.hostReads f a (n + 1) := by
  simp [State.readRequest, h, Nat.not_le.mpr hn]

/-! ### Registers of the time block -/

/-- Register `a` of the hub's time block has no read-to-clear and no write-only field: a read returns the whole of what it shows and
clears nothing. -/
structure PlainTimeReg (a : Nat) : Prop where
  block : blockOf a = some (.time, 0, a - 0xA0000)
  onHub : dieOf a = none
  row : ∃ r, regRow a = some r ∧ r.rc = 0 ∧ r.wo = 0

theorem plainTimeReg_tsLo : PlainTimeReg HUB_TS_LO := ⟨rfl, rfl, _, rfl, rfl, rfl⟩
theorem plainTimeReg_tsHi : PlainTimeReg HUB_TS_HI := ⟨rfl, rfl, _, rfl, rfl, rfl⟩
theorem plainTimeReg_calFrac : PlainTimeReg HUB_CAL_FRAC := ⟨rfl, rfl, _, rfl, rfl, rfl⟩
theorem plainTimeReg_calSecLo : PlainTimeReg HUB_CAL_SEC_LO := ⟨rfl, rfl, _, rfl, rfl, rfl⟩
theorem plainTimeReg_calSecHi : PlainTimeReg HUB_CAL_SEC_HI := ⟨rfl, rfl, _, rfl, rfl, rfl⟩

theorem State.shows_time {a : Nat} (ha : PlainTimeReg a) (s : State) (f : Nat) : s.shows f a = s.timeShows a := by
  simp [State.shows, ha.block]

theorem State.view_shown {a : Nat} (ha : PlainTimeReg a) (hs : fromShadow a = false) (s : State) (f : Nat) :
    s.view f a = s.timeShows a := by
  obtain ⟨r, hr, hrc, hwo⟩ := ha.row
  have hall : ∀ w : Word, w &&& ~~~ w32 0 = w := fun w => BitVec.and_allOnes
  simp [State.view, ha.block, hr, hs, State.rcShown, hrc, hwo, s.shows_time ha, hall]

theorem State.view_shadowed {a : Nat} (ha : PlainTimeReg a) (hs : fromShadow a = true) (s : State) (f : Nat) :
    s.view f a = s.shadow f a := by
  obtain ⟨r, hr, -, -⟩ := ha.row
  simp [State.view, ha.block, hr, hs]

/-- Every function may read the time block unless it is fenced (R453, R461). -/
theorem State.refusal_time {a : Nat} (ha : PlainTimeReg a) {s : State} {f : Nat} (hf : s.fenced f = false) :
    s.refusal f a false 0#32 = none := by
  obtain ⟨r, hr, -, -⟩ := ha.row
  simp [State.refusal, hf, ha.block, hr, State.blockRight]

theorem State.readEffects_time {a : Nat} (ha : PlainTimeReg a) (s : State) (f : Nat) :
    s.readEffects f a = s.each (latchedBy a) (fun s' h => s'.latch f h (s.shows f h)) := by
  obtain ⟨r, hr, hrc, -⟩ := ha.row
  simp [State.readEffects, ha.block, hr, hrc]

/-- A read of a time register answers what the function sees there, and latches what the register latches (R459). -/
theorem State.hostRead_time {a : Nat} (ha : PlainTimeReg a) {s : State} {f : Nat} (hf : s.fenced f = false) :
    s.hostRead f a = (s.answer f (s.view f a)).readEffects f a := by
  simp [State.hostRead, s.refusal_time ha hf, ha.onHub, State.readDone]

/-- A read of a shadowed time register answers the shadow and changes nothing else (R459). -/
theorem State.hostRead_shadowed {a : Nat} (ha : PlainTimeReg a) (hs : fromShadow a = true) (hl : latchedBy a = []) {s : State} {f : Nat}
    (hf : s.fenced f = false) : s.hostRead f a = s.answer f (s.shadow f a) := by
  rw [s.hostRead_time ha hf, State.readEffects_time ha, hl, s.view_shadowed ha hs]
  rfl

/-! ### The timestamp -/

theorem State.timeShows_tsLo (s : State) : s.timeShows HUB_TS_LO = w32 (s.now % 2 ^ 32) := by
  simp [State.timeShows]

theorem State.timeShows_tsHi (s : State) : s.timeShows HUB_TS_HI = w32 (s.now / 2 ^ 32) := by
  simp [State.timeShows, HUB_TS_HI, HUB_TS_LO]

theorem State.view_tsHi (s : State) (f : Nat) : s.view f HUB_TS_HI = s.shadow f HUB_TS_HI :=
  s.view_shadowed plainTimeReg_tsHi rfl f

/-- The state after function `f` has read HUB_TS_LO: the lower half answered, the upper half of the same instant in its shadow (R47). -/
def State.tsLoDone (s : State) (f : Nat) : State :=
  (s.answer f (w32 (s.now % 2 ^ 32))).latch f HUB_TS_HI (w32 (s.now / 2 ^ 32))

@[simp] theorem State.fenced_tsLoDone (s : State) (f g : Nat) : (s.tsLoDone f).fenced g = s.fenced g := rfl

@[simp] theorem State.shadow_tsLoDone (s : State) (f : Nat) : (s.tsLoDone f).shadow f HUB_TS_HI = w32 (s.now / 2 ^ 32) :=
  State.shadow_latch_same _ _ _ _

@[simp] theorem State.tsLoDone_reads (s : State) (f : Nat) :
    (s.tsLoDone f).out.reads = (f, w32 (s.now % 2 ^ 32)) :: s.out.reads := rfl
@[simp] theorem State.tsLoDone_now (s : State) (f : Nat) : (s.tsLoDone f).now = s.now := rfl
@[simp] theorem State.tsLoDone_regs (s : State) (f : Nat) : (s.tsLoDone f).regs = s.regs := rfl
@[simp] theorem State.tsLoDone_mem (s : State) (f : Nat) : (s.tsLoDone f).mem = s.mem := rfl

theorem State.hostRead_tsLo {s : State} {f : Nat} (hf : s.fenced f = false) : s.hostRead f HUB_TS_LO = s.tsLoDone f := by
  have hl : latchedBy HUB_TS_LO = [HUB_TS_HI] := rfl
  rw [s.hostRead_time plainTimeReg_tsLo hf, State.readEffects_time plainTimeReg_tsLo, hl, s.view_shown plainTimeReg_tsLo rfl,
    s.timeShows_tsLo]
  simp only [State.each, List.foldl, State.shows_time plainTimeReg_tsHi, State.timeShows_tsHi, State.answer_now, State.tsLoDone]

theorem State.hostRead_tsHi {s : State} {f : Nat} (hf : s.fenced f = false) :
    s.hostRead f HUB_TS_HI = s.answer f (s.shadow f HUB_TS_HI) :=
  s.hostRead_shadowed plainTimeReg_tsHi rfl rfl hf

/-- One request for HUB_TS_LO and HUB_TS_HI answers both halves of one instant (R47). -/
theorem State.readRequest_tsLo_tsHi {s : State} {f : Nat} (ha : s.accepts = true) (hf : s.fenced f = false) :
    s.readRequest f HUB_TS_LO 1 = (s.tsLoDone f).answer f (w32 (s.now / 2 ^ 32)) := by
  have hnext : HUB_TS_LO + 4 = HUB_TS_HI := rfl
  rw [State.readRequest_within ha f (by decide), State.hostReads_succ, State.hostReads_succ, hnext, State.hostReads_zero,
    State.hostRead_tsLo hf, State.hostRead_tsHi (by simpa using hf), State.shadow_tsLoDone]

theorem State.readRequest_tsLo {s : State} {f : Nat} (ha : s.accepts = true) (hf : s.fenced f = false) :
    s.readRequest f HUB_TS_LO 0 = s.tsLoDone f := by
  rw [State.readRequest_within ha f (by decide), State.hostReads_succ, State.hostReads_zero, State.hostRead_tsLo hf]

/-- Settles O7: the shadow that the read of HUB_TS_LO latches is what HUB_TS_HI reads as, in the same request or later. -/
theorem timestampRead : Obligations.TimestampRead := by
  intro s f ha hf
  have both := exec_tsLoRead f 1 s
  have alone := exec_tsLoRead f 0 s
  rw [State.readRequest_tsLo_tsHi ha hf] at both
  rw [State.readRequest_tsLo ha hf] at alone
  refine ⟨⟨_, both, ?_⟩, ⟨_, alone, ?_⟩, fun h => (s.view_tsHi f).trans h, State.shadow_reset f _⟩
  · exact ⟨by simp, sameRegs_sameMem (by simp) (by simp)⟩
  · obtain ⟨hregs, hmem⟩ := sameRegs_sameMem (s.tsLoDone_regs f) (s.tsLoDone_mem f)
    exact ⟨s.tsLoDone_reads f, s.tsLoDone_now f, hregs, hmem, fun u hu => by simp [u.view_tsHi, State.shadow_congr hu]⟩

/-! ### The calendar -/

theorem State.timeShows_calFrac (s : State) : s.timeShows HUB_CAL_FRAC = w32 (calFrac s.calendar.2) := by
  simp [State.timeShows, HUB_CAL_FRAC, HUB_TS_LO, HUB_TS_HI, HUB_KA_STAT]

theorem State.timeShows_calSecLo (s : State) : s.timeShows HUB_CAL_SEC_LO = w32 (s.calendar.1 % 2 ^ 32) := by
  simp [State.timeShows, HUB_CAL_SEC_LO, HUB_CAL_FRAC, HUB_TS_LO, HUB_TS_HI, HUB_KA_STAT]

theorem State.timeShows_calSecHi (s : State) : s.timeShows HUB_CAL_SEC_HI = w32 (s.calendar.1 / 2 ^ 32 % 2 ^ 16) := by
  simp [State.timeShows, HUB_CAL_SEC_HI, HUB_CAL_SEC_LO, HUB_CAL_FRAC, HUB_TS_LO, HUB_TS_HI, HUB_KA_STAT]

@[simp] theorem State.calendar_answer (s : State) (f : Nat) (w : Word) : (s.answer f w).calendar = s.calendar := rfl

theorem State.view_calSecLo (s : State) (f : Nat) : s.view f HUB_CAL_SEC_LO = s.shadow f HUB_CAL_SEC_LO :=
  s.view_shadowed plainTimeReg_calSecLo rfl f

theorem State.view_calSecHi (s : State) (f : Nat) : s.view f HUB_CAL_SEC_HI = s.shadow f HUB_CAL_SEC_HI :=
  s.view_shadowed plainTimeReg_calSecHi rfl f

/-- The state after function `f` has read HUB_CAL_FRAC: the fraction answered, the seconds of the same instant in its shadows (R50). -/
def State.calFracDone (s : State) (f : Nat) : State :=
  ((s.answer f (w32 (calFrac s.calendar.2))).latch f HUB_CAL_SEC_LO (w32 (s.calendar.1 % 2 ^ 32))).latch f HUB_CAL_SEC_HI
    (w32 (s.calendar.1 / 2 ^ 32 % 2 ^ 16))

@[simp] theorem State.fenced_calFracDone (s : State) (f g : Nat) : (s.calFracDone f).fenced g = s.fenced g := rfl

@[simp] theorem State.shadow_calFracDone_lo (s : State) (f : Nat) :
    (s.calFracDone f).shadow f HUB_CAL_SEC_LO = w32 (s.calendar.1 % 2 ^ 32) := by
  rw [State.calFracDone, State.shadow_latch_ne _ _ _ (by decide), State.shadow_latch_same]

@[simp] theorem State.shadow_calFracDone_hi (s : State) (f : Nat) :
    (s.calFracDone f).shadow f HUB_CAL_SEC_HI = w32 (s.calendar.1 / 2 ^ 32 % 2 ^ 16) := by
  rw [State.calFracDone, State.shadow_latch_same]

@[simp] theorem State.calFracDone_reads (s : State) (f : Nat) :
    (s.calFracDone f).out.reads = (f, w32 (calFrac s.calendar.2)) :: s.out.reads := rfl
@[simp] theorem State.calFracDone_regs (s : State) (f : Nat) : (s.calFracDone f).regs = s.regs := rfl
@[simp] theorem State.calFracDone_mem (s : State) (f : Nat) : (s.calFracDone f).mem = s.mem := rfl

theorem State.hostRead_calFrac {s : State} {f : Nat} (hf : s.fenced f = false) : s.hostRead f HUB_CAL_FRAC = s.calFracDone f := by
  have hl : latchedBy HUB_CAL_FRAC = [HUB_CAL_SEC_LO, HUB_CAL_SEC_HI] := rfl
  rw [s.hostRead_time plainTimeReg_calFrac hf, State.readEffects_time plainTimeReg_calFrac, hl,
    s.view_shown plainTimeReg_calFrac rfl, s.timeShows_calFrac]
  simp only [State.each, List.foldl, State.shows_time plainTimeReg_calSecLo, State.shows_time plainTimeReg_calSecHi,
    State.timeShows_calSecLo, State.timeShows_calSecHi, State.calendar_answer, State.calFracDone]

theorem State.hostRead_calSecLo {s : State} {f : Nat} (hf : s.fenced f = false) :
    s.hostRead f HUB_CAL_SEC_LO = s.answer f (s.shadow f HUB_CAL_SEC_LO) :=
  s.hostRead_shadowed plainTimeReg_calSecLo rfl rfl hf

theorem State.hostRead_calSecHi {s : State} {f : Nat} (hf : s.fenced f = false) :
    s.hostRead f HUB_CAL_SEC_HI = s.answer f (s.shadow f HUB_CAL_SEC_HI) :=
  s.hostRead_shadowed plainTimeReg_calSecHi rfl rfl hf

/-- One request for HUB_CAL_FRAC and both halves of the seconds answers the three of one instant (R50). -/
theorem State.readRequest_calFrac_calSec {s : State} {f : Nat} (ha : s.accepts = true) (hf : s.fenced f = false) :
    s.readRequest f HUB_CAL_FRAC 2 = ((s.calFracDone f).answer f (w32 (s.calendar.1 % 2 ^ 32))).answer f
      (w32 (s.calendar.1 / 2 ^ 32 % 2 ^ 16)) := by
  have hlo : HUB_CAL_FRAC + 4 = HUB_CAL_SEC_LO := rfl
  have hhi : HUB_CAL_SEC_LO + 4 = HUB_CAL_SEC_HI := rfl
  rw [State.readRequest_within ha f (by decide), State.hostReads_succ, State.hostReads_succ, State.hostReads_succ, hlo, hhi,
    State.hostReads_zero, State.hostRead_calFrac hf, State.hostRead_calSecLo (by simpa using hf),
    State.hostRead_calSecHi (by simpa using hf), State.shadow_answer, State.shadow_calFracDone_lo, State.shadow_calFracDone_hi]

theorem State.readRequest_calFrac {s : State} {f : Nat} (ha : s.accepts = true) (hf : s.fenced f = false) :
    s.readRequest f HUB_CAL_FRAC 0 = s.calFracDone f := by
  rw [State.readRequest_within ha f (by decide), State.hostReads_succ, State.hostReads_zero, State.hostRead_calFrac hf]

/-- Settles O8: the shadows that the read of HUB_CAL_FRAC latches are what the seconds read as, in the same request or later. -/
theorem calendarRead : Obligations.CalendarRead := by
  intro s f ha hf
  have all := exec_calFracRead f 2 s
  have alone := exec_calFracRead f 0 s
  rw [State.readRequest_calFrac_calSec ha hf] at all
  rw [State.readRequest_calFrac ha hf] at alone
  refine ⟨⟨_, all, ?_⟩, ⟨_, alone, ?_⟩⟩
  · exact ⟨by simp, sameRegs_sameMem (by simp) (by simp)⟩
  · obtain ⟨hregs, hmem⟩ := sameRegs_sameMem (s.calFracDone_regs f) (s.calFracDone_mem f)
    exact ⟨s.calFracDone_reads f, hregs, hmem, fun u hu =>
      ⟨by simp [u.view_calSecLo, State.shadow_congr hu], by simp [u.view_calSecHi, State.shadow_congr hu]⟩⟩

end Sys2Proof.Machine
end

section
/-! Fault sources: the frame rules of register updates, what each register of a source reads as after an acknowledgement, who may
acknowledge (R421, R444), and what a source overdue does (R422). -/

namespace Sys2Proof.Machine

/-! ### Frames of register updates -/

theorem SameRest.withRegs {s t : State} (h : SameRest s t) (m : List (Nat × Word)) : SameRest s { t with regs := m } :=
  congrArg (fun u : State => ({ u with regs := m } : State)) h

theorem SameRest.withCycSet {s t : State} (h : SameRest s t) (m : List (Nat × Word)) : SameRest s { t with cycSet := m } :=
  congrArg (fun u : State => ({ u with cycSet := m } : State)) h

theorem SameRest.withHub {s t : State} (h : SameRest s t) (x : HubState) : SameRest { s with hub := x } { t with hub := x } :=
  congrArg (fun u : State => ({ u with hub := x } : State)) h

section
variable {as : List Nat} {s t : State}

theorem OnlyRegs.refl (as : List Nat) (s : State) : OnlyRegs as s s := ⟨fun _ _ => rfl, fun _ => rfl, rfl⟩

theorem OnlyRegs.wroteNow (as : List Nat) (s : State) (a : Nat) (v : Word) : OnlyRegs as s (s.wroteNow a v) :=
  ⟨fun _ _ => rfl, fun _ => rfl, rfl⟩

theorem OnlyRegs.withHub (h : OnlyRegs as s t) (x : HubState) : OnlyRegs as { s with hub := x } { t with hub := x } := by
  obtain ⟨hregs, hmem, hrest⟩ := h
  exact ⟨hregs, hmem, hrest.withHub x⟩

theorem OnlyRegs.wr (h : OnlyRegs as s t) {a : Nat} (ha : a ∈ as) (v : Word) : OnlyRegs as s (t.wr a v) := by
  obtain ⟨hregs, hmem, hrest⟩ := h
  refine ⟨fun b hb => ?_, hmem, hrest.withRegs _⟩
  have hne : b ≠ a := fun e => hb (e ▸ ha)
  rw [t.rd_wr_ne v hne, hregs b hb]

theorem OnlyRegs.noteSet (h : OnlyRegs as s t) (a : Nat) (m : Word) : OnlyRegs as s (t.noteSet a m) := by
  obtain ⟨hregs, hmem, hrest⟩ := h
  exact ⟨hregs, hmem, hrest.withCycSet _⟩

theorem OnlyRegs.wrN (h : OnlyRegs as s t) {a : Nat} (ha : a ∈ as) (n : Nat) : OnlyRegs as s (t.wrN a n) := h.wr ha _

theorem OnlyRegs.wrF (h : OnlyRegs as s t) {a : Nat} (ha : a ∈ as) (f : Fld) (n : Nat) : OnlyRegs as s (t.wrF a f n) := h.wr ha _

theorem OnlyRegs.flag (h : OnlyRegs as s t) {a : Nat} (ha : a ∈ as) (f : Fld) (b : Bool) : OnlyRegs as s (t.flag a f b) :=
  (h.wrF ha f _).noteSet a _

theorem OnlyRegs.wr64 (h : OnlyRegs as s t) {a : Nat} (ha : a ∈ as) (ha4 : a + 4 ∈ as) (n : Nat) : OnlyRegs as s (t.wr64 a n) :=
  (h.wrN ha _).wrN ha4 _

end

/-! ### Registers of 64 bits, and fields -/

theorem State.rd_wr64_other (s : State) {a b : Nat} (v : Nat) (h : b ≠ a) (h4 : b ≠ a + 4) : (s.wr64 a v).rd b = s.rd b := by
  rw [State.wr64, State.wrN, State.wrN, State.rd_wr_ne _ _ h4, State.rd_wr_ne _ _ h]

theorem State.rd64_wr64_same (s : State) (a v : Nat) : (s.wr64 a v).rd64 a = v % 2 ^ 64 := by
  have hlo : (s.wr64 a v).rdN a = v % 2 ^ 32 := by
    rw [State.rdN, State.wr64, State.wrN, State.rd_wr_ne _ _ (by omega), State.wrN, State.rd_wr_same, w32, BitVec.toNat_ofNat]
    omega
  have hhi : (s.wr64 a v).rdN (a + 4) = v / 2 ^ 32 % 2 ^ 32 := by
    rw [State.rdN, State.wr64, State.wrN, State.rd_wr_same, w32, BitVec.toNat_ofNat]
    omega
  rw [State.rd64, hlo, hhi]
  omega

theorem State.is_wrF_ne (s : State) (a : Nat) (f g : Fld) (v : Nat) (hg : g.lo + g.len ≤ 32)
    (h : g.lo + g.len ≤ f.lo ∨ f.lo + f.len ≤ g.lo) : (s.wrF a f v).is a g = s.is a g := by
  simp only [State.is, State.rdF_wrF_ne s a f g v hg h]

theorem State.rdF_flag_ne (s : State) (a : Nat) (f g : Fld) (b : Bool) (hg : g.lo + g.len ≤ 32)
    (h : g.lo + g.len ≤ f.lo ∨ f.lo + f.len ≤ g.lo) : (s.flag a f b).rdF a g = s.rdF a g := by
  rw [State.rdF_flag, State.rdF_wrF_ne s a f g _ hg h]

/-! ### The registers of a source -/

/-- The registers of source `n` that an acknowledgement writes: the latch status, the first cause and its timestamp. -/
abbrev srcRegs (n : Nat) : List Nat := [FLT_SRC_STAT n, FLT_FIRST_CAUSE n, FLT_FIRST_TS_LO n, FLT_FIRST_TS_LO n + 4]

theorem firstCause_ne_srcStat (n : Nat) : FLT_FIRST_CAUSE n ≠ FLT_SRC_STAT n := by
  unfold FLT_FIRST_CAUSE FLT_SRC_STAT
  omega

theorem srcStat_ne_firstTs (n : Nat) : FLT_SRC_STAT n ≠ FLT_FIRST_TS_LO n ∧ FLT_SRC_STAT n ≠ FLT_FIRST_TS_LO n + 4 := by
  unfold FLT_SRC_STAT FLT_FIRST_TS_LO
  omega

theorem firstCause_ne_firstTs (n : Nat) : FLT_FIRST_CAUSE n ≠ FLT_FIRST_TS_LO n ∧ FLT_FIRST_CAUSE n ≠ FLT_FIRST_TS_LO n + 4 := by
  unfold FLT_FIRST_CAUSE FLT_FIRST_TS_LO
  omega

theorem lastCause_notMem_srcRegs (n : Nat) : FLT_LAST_CAUSE n ∉ srcRegs n := by
  simp only [List.mem_cons, List.not_mem_nil, or_false, FLT_LAST_CAUSE, FLT_SRC_STAT, FLT_FIRST_CAUSE, FLT_FIRST_TS_LO]
  omega

@[simp] theorem State.is_wroteNow (s : State) (a : Nat) (v : Word) (b : Nat) (f : Fld) : (s.wroteNow a v).is b f = s.is b f := rfl
@[simp] theorem State.occ_wroteNow (s : State) (a : Nat) (v : Word) (n : Nat) : (s.wroteNow a v).occ n = s.occ n := rfl
@[simp] theorem State.rd64_setOcc (s : State) (n : Nat) (o : Occ) (a : Nat) : (s.setOcc n o).rd64 a = s.rd64 a := rfl

/-! ### A source cleared -/

/-- Source `n` cleared: LIVE stays, and LATCHED, COUNT, OVERDUE, the first cause and its timestamp are 0 (R421). -/
def State.srcCleared (s : State) (n : Nat) : State :=
  ((s.wrN (FLT_SRC_STAT n) (b2n (s.is (FLT_SRC_STAT n) FLT_SRC_STAT.LIVE))).wr (FLT_FIRST_CAUSE n) 0#32).wr64 (FLT_FIRST_TS_LO n) 0

theorem State.srcCleared_onlyRegs {s t : State} {n : Nat} (h : OnlyRegs (srcRegs n) s t) : OnlyRegs (srcRegs n) s (t.srcCleared n) :=
  ((h.wrN (by simp) _).wr (by simp) _).wr64 (by simp) (by simp) _

theorem State.rd_srcCleared_srcStat (s : State) (n : Nat) :
    (s.srcCleared n).rd (FLT_SRC_STAT n) = w32 (b2n (s.is (FLT_SRC_STAT n) FLT_SRC_STAT.LIVE)) := by
  obtain ⟨hlo, hhi⟩ := srcStat_ne_firstTs n
  rw [State.srcCleared, State.rd_wr64_other _ _ hlo hhi, State.rd_wr_ne _ _ (firstCause_ne_srcStat n).symm, State.wrN, State.rd_wr_same]

@[simp] theorem State.live_srcCleared (s : State) (n : Nat) :
    (s.srcCleared n).is (FLT_SRC_STAT n) FLT_SRC_STAT.LIVE = s.is (FLT_SRC_STAT n) FLT_SRC_STAT.LIVE := by
  rw [State.is, State.rdF, State.rd_srcCleared_srcStat]
  cases s.is (FLT_SRC_STAT n) FLT_SRC_STAT.LIVE <;> rfl

@[simp] theorem State.latched_srcCleared (s : State) (n : Nat) : (s.srcCleared n).is (FLT_SRC_STAT n) FLT_SRC_STAT.LATCHED = false := by
  rw [State.is, State.rdF, State.rd_srcCleared_srcStat]
  cases s.is (FLT_SRC_STAT n) FLT_SRC_STAT.LIVE <;> rfl

@[simp] theorem State.count_srcCleared (s : State) (n : Nat) : (s.srcCleared n).rdF (FLT_SRC_STAT n) FLT_SRC_STAT.COUNT = 0 := by
  rw [State.rdF, State.rd_srcCleared_srcStat]
  cases s.is (FLT_SRC_STAT n) FLT_SRC_STAT.LIVE <;> rfl

@[simp] theorem State.overdue_srcCleared (s : State) (n : Nat) : (s.srcCleared n).is (FLT_SRC_STAT n) FLT_SRC_STAT.OVERDUE = false := by
  rw [State.is, State.rdF, State.rd_srcCleared_srcStat]
  cases s.is (FLT_SRC_STAT n) FLT_SRC_STAT.LIVE <;> rfl

@[simp] theorem State.firstCause_srcCleared (s : State) (n : Nat) : (s.srcCleared n).rd (FLT_FIRST_CAUSE n) = 0#32 := by
  obtain ⟨hlo, hhi⟩ := firstCause_ne_firstTs n
  rw [State.srcCleared, State.rd_wr64_other _ _ hlo hhi, State.rd_wr_same]

@[simp] theorem State.firstTs_srcCleared (s : State) (n : Nat) : (s.srcCleared n).rd64 (FLT_FIRST_TS_LO n) = 0 :=
  State.rd64_wr64_same _ _ _

@[simp] theorem State.lastCause_srcCleared (s : State) (n : Nat) : (s.srcCleared n).rd (FLT_LAST_CAUSE n) = s.rd (FLT_LAST_CAUSE n) :=
  (State.srcCleared_onlyRegs (OnlyRegs.refl _ s)).1 _ (lastCause_notMem_srcRegs n)

/-! ### A source latched again -/

/-- The status register of source `n` latched again, with the bits of `o`. -/
def State.statAgain (s : State) (n : Nat) (o : Occ) : State :=
  (((s.flag (FLT_SRC_STAT n) FLT_SRC_STAT.LATCHED true).wrF (FLT_SRC_STAT n) FLT_SRC_STAT.COUNT 1).flag (FLT_SRC_STAT n)
    FLT_SRC_STAT.CONSEQ o.conseq).flag (FLT_SRC_STAT n) FLT_SRC_STAT.INJ o.inj

theorem State.latchAgain_eq (s : State) (n t : Nat) (o : Occ) :
    s.latchAgain n t o =
      (((s.statAgain n o).wr (FLT_FIRST_CAUSE n) (s.rd (FLT_LAST_CAUSE n))).wr64 (FLT_FIRST_TS_LO n) t).setOcc n { o with at' := t } := rfl

theorem State.rd_latchAgain_srcStat (s : State) (n t : Nat) (o : Occ) :
    (s.latchAgain n t o).rd (FLT_SRC_STAT n) = (s.statAgain n o).rd (FLT_SRC_STAT n) := by
  obtain ⟨hlo, hhi⟩ := srcStat_ne_firstTs n
  rw [State.latchAgain_eq, State.rd_setOcc, State.rd_wr64_other _ _ hlo hhi, State.rd_wr_ne _ _ (firstCause_ne_srcStat n).symm]

@[simp] theorem State.latched_latchAgain (s : State) (n t : Nat) (o : Occ) :
    (s.latchAgain n t o).is (FLT_SRC_STAT n) FLT_SRC_STAT.LATCHED = true := by
  rw [State.is_congr (s.rd_latchAgain_srcStat n t o), State.statAgain, State.is_flag_ne _ _ _ _ _ (by decide) (by decide),
    State.is_flag_ne _ _ _ _ _ (by decide) (by decide), State.is_wrF_ne _ _ _ _ _ (by decide) (by decide),
    State.is_flag_same _ _ _ _ rfl (by decide)]

@[simp] theorem State.count_latchAgain (s : State) (n t : Nat) (o : Occ) :
    (s.latchAgain n t o).rdF (FLT_SRC_STAT n) FLT_SRC_STAT.COUNT = 1 := by
  rw [State.rdF_congr (s.rd_latchAgain_srcStat n t o), State.statAgain, State.rdF_flag_ne _ _ _ _ _ (by decide) (by decide),
    State.rdF_flag_ne _ _ _ _ _ (by decide) (by decide), State.rdF_wrF_same _ _ _ _ (by decide)]
  rfl

/-- A bit of the status other than LATCHED, CONSEQ and INJ, and outside COUNT, stays. -/
theorem State.is_latchAgain_kept (s : State) (n t : Nat) (o : Occ) {g : Fld} (hg : g = FLT_SRC_STAT.LIVE ∨ g = FLT_SRC_STAT.OVERDUE) :
    (s.latchAgain n t o).is (FLT_SRC_STAT n) g = s.is (FLT_SRC_STAT n) g := by
  rw [State.is_congr (s.rd_latchAgain_srcStat n t o), State.statAgain]
  rcases hg with rfl | rfl <;>
    rw [State.is_flag_ne _ _ _ _ _ (by decide) (by decide), State.is_flag_ne _ _ _ _ _ (by decide) (by decide),
      State.is_wrF_ne _ _ _ _ _ (by decide) (by decide), State.is_flag_ne _ _ _ _ _ (by decide) (by decide)]

@[simp] theorem State.live_latchAgain (s : State) (n t : Nat) (o : Occ) :
    (s.latchAgain n t o).is (FLT_SRC_STAT n) FLT_SRC_STAT.LIVE = s.is (FLT_SRC_STAT n) FLT_SRC_STAT.LIVE :=
  s.is_latchAgain_kept n t o (.inl rfl)

@[simp] theorem State.overdue_latchAgain (s : State) (n t : Nat) (o : Occ) :
    (s.latchAgain n t o).is (FLT_SRC_STAT n) FLT_SRC_STAT.OVERDUE = s.is (FLT_SRC_STAT n) FLT_SRC_STAT.OVERDUE :=
  s.is_latchAgain_kept n t o (.inr rfl)

@[simp] theorem State.firstTs_latchAgain (s : State) (n t : Nat) (o : Occ) :
    (s.latchAgain n t o).rd64 (FLT_FIRST_TS_LO n) = t % 2 ^ 64 := by
  rw [State.latchAgain_eq, State.rd64_setOcc, State.rd64_wr64_same]

@[simp] theorem State.firstCause_latchAgain (s : State) (n t : Nat) (o : Occ) :
    (s.latchAgain n t o).rd (FLT_FIRST_CAUSE n) = s.rd (FLT_LAST_CAUSE n) := by
  obtain ⟨hlo, hhi⟩ := firstCause_ne_firstTs n
  rw [State.latchAgain_eq, State.rd_setOcc, State.rd_wr64_other _ _ hlo hhi, State.rd_wr_same]

theorem State.hub_latchAgain (s : State) (n t : Nat) (o : Occ) :
    (s.latchAgain n t o).hub = { s.hub with occ := (s.latchAgain n t o).hub.occ } := rfl

/-- Latching again changes the registers of the source and, of the hub, its last occurrences. -/
theorem State.latchAgain_onlyRegs {s u : State} {n : Nat} (h : OnlyRegs (srcRegs n) s u) (t : Nat) (o : Occ) :
    OnlyRegs (srcRegs n) { s with hub := (u.latchAgain n t o).hub } (u.latchAgain n t o) :=
  have hstat : OnlyRegs (srcRegs n) s (u.statAgain n o) :=
    (((h.flag (by simp) _ _).wrF (by simp) _ _).flag (by simp) _ _).flag (by simp) _ _
  ((hstat.wr (by simp) _).wr64 (by simp) (by simp) t).withHub _

/-! ### Acknowledging -/

theorem State.acknowledge_eq (s : State) (n : Nat) :
    s.acknowledge n =
      if s.is (FLT_SRC_STAT n) FLT_SRC_STAT.LATCHED && s.inCycle (s.occ n).at' then
        (s.srcCleared n).latchAgain n (s.occ n).at' { s.occ n with sev := s.sevOf n }
      else if s.is (FLT_SRC_STAT n) FLT_SRC_STAT.LIVE then (s.srcCleared n).latchAgain n s.now { sev := s.sevOf n }
      else s.srcCleared n := rfl

theorem State.acknowledge_idle {s : State} {n : Nat} (ho : s.inCycle (s.occ n).at' = false)
    (hl : s.is (FLT_SRC_STAT n) FLT_SRC_STAT.LIVE = false) : s.acknowledge n = s.srcCleared n := by
  simp [State.acknowledge_eq, ho, hl]

theorem State.acknowledge_live {s : State} {n : Nat} (ho : s.inCycle (s.occ n).at' = false)
    (hl : s.is (FLT_SRC_STAT n) FLT_SRC_STAT.LIVE = true) :
    s.acknowledge n = (s.srcCleared n).latchAgain n s.now { sev := s.sevOf n } := by
  simp [State.acknowledge_eq, ho, hl]

/-- An occurrence of the same PCLK cycle wins over the acknowledgement (R444). -/
theorem State.acknowledge_occurring {s : State} {n : Nat} (ho : s.inCycle (s.occ n).at' = true)
    (hl : s.is (FLT_SRC_STAT n) FLT_SRC_STAT.LATCHED = true) :
    s.acknowledge n = (s.srcCleared n).latchAgain n (s.occ n).at' { s.occ n with sev := s.sevOf n } := by
  simp [State.acknowledge_eq, ho, hl]

theorem blockOf_srcStat {n : Nat} (hn : n < 545) : blockOf (FLT_SRC_STAT n) = some (.flt, 0, 0x1004 + 0x20 * n) := by
  have hw : (0x70000 + (0x1004 + 0x20 * n)) / 0x1000000 = 0 := by omega
  have hx : (0x70000 + (0x1004 + 0x20 * n)) % 0x1000000 / 0x10000 = 7 := by omega
  have ho : (0x70000 + (0x1004 + 0x20 * n)) % 0x1000000 % 0x10000 = 0x1004 + 0x20 * n := by omega
  simp only [blockOf, FLT_SRC_STAT, hw, hx, ho, ↓reduceIte]

/-- A carried write of 1 to LATCHED is an acknowledgement in a cycle that holds the write (R9). -/
theorem exec_latched_carried {s : State} {f : Fin 8} {n : Fin 545} (h : s.Carried f (FLT_SRC_STAT n) 2#32) :
    exec (.latched f n) s = .next ((s.wroteNow (FLT_SRC_STAT n) 2#32).acknowledge n) := by
  have hb := blockOf_srcStat n.isLt
  have hsq : (s.wroteNow (FLT_SRC_STAT n) 2#32).regSquash (FLT_SRC_STAT n) = s.wroteNow (FLT_SRC_STAT n) 2#32 :=
    State.regSquash_other (by simp [hb]) (by simp [hb])
  have hx : exec (.latched f n) s = .next (s.hostWrite f (FLT_SRC_STAT n) 2#32 (fun s => s.statWrite n 2#32)) := rfl
  have hw : (s.wroteNow (FLT_SRC_STAT n) 2#32).statWrite n 2#32 = (s.wroteNow (FLT_SRC_STAT n) 2#32).acknowledge n := rfl
  rw [hx, State.hostWrite_carried h, hsq, hw]

/-! ### Who may acknowledge -/

/-- The region that a cause word names, or that holds the unit or the cluster it names (R420). -/
def causeRegion (c : Nat) : Option Nat :=
  match c / 256 % 8 with
  | 0 => some (c % 256 / 16)
  | 1 => some (c % 256 / 4)
  | 2 => some (c % 256 % 16)
  | _ => none

theorem causeRegion_unit {c : Nat} (h : c / 256 % 8 = 0) : causeRegion c = some (c % 256 / 16) := by simp [causeRegion, h]
theorem causeRegion_cluster {c : Nat} (h : c / 256 % 8 = 1) : causeRegion c = some (c % 256 / 4) := by simp [causeRegion, h]
theorem causeRegion_region {c : Nat} (h : c / 256 % 8 = 2) : causeRegion c = some (c % 16) := by
  have hm : c % 256 % 16 = c % 16 := by omega
  simp [causeRegion, h, hm]

/-- The right to acknowledge: PF0's and, where the first cause names a region or a part of it, its owner's (R421). -/
theorem State.fltRight_srcStat (s : State) (f n : Nat) :
    s.fltRight f (0x1004 + 0x20 * n) true 2#32 =
      (causeRegion (s.rdN (FLT_FIRST_CAUSE n))).elim (pf0Only f) (fun t => ownerOrPf0 f (s.ownerOf t)) := by
  have hsel : ¬ (0x1004 + 0x20 * n = 0x20) := by omega
  have hctrl : ¬ (0x1004 + 0x20 * n = 0x24) := by omega
  have hsrc : 0x1000 ≤ 0x1004 + 0x20 * n := by omega
  have hstat : (0x1004 + 0x20 * n) % 0x20 = 4 := by omega
  have hnum : (0x1004 + 0x20 * n - 0x1000) / 0x20 = n := by omega
  have hbit : bitOf (2#32).toNat 1 = true := rfl
  simp only [State.fltRight, causeRegion, hsel, hctrl, hsrc, hstat, hnum, hbit, decide_true, decide_false, Bool.or_false, Bool.and_true,
    Bool.not_true, Bool.false_eq_true, ↓reduceIte]
  have howner : ∀ t, (s.ownerOf t = f) = (f = s.ownerOf t) := fun t => propext eq_comm
  split <;> simp only [ownerOrPf0, Option.elim, *]

/-- Of the registers of the block, only FLT_SRC_STAT_n stands 4 above a multiple of 0x20 from 0x1000 on. -/
theorem regRow_srcStat {n : Nat} (hn : n < 545) :
    regRow (FLT_SRC_STAT n) = some ⟨0x1004, 0x20, 545, 0x0, 1, 0x0, 0x2, 0x0, 0x0, 0x0, 0x0, 0x0⟩ := by
  have hfind : findRow (0x1004 + 0x20 * n) fltRows = some ⟨0x1004, 0x20, 545, 0x0, 1, 0x0, 0x2, 0x0, 0x0, 0x0, 0x0, 0x0⟩ := by
    simp [findRow, fltRows, RegRow.hits, hn]
    omega
  simp [regRow, blockOf_srcStat hn, rowsOf, hfind]

theorem State.refusal_srcStat {s : State} {f n : Nat} (hn : n < 545) (hf : s.fenced f = false)
    (hr : (causeRegion (s.rdN (FLT_FIRST_CAUSE n))).elim (pf0Only f) (fun t => ownerOrPf0 f (s.ownerOf t)) = none) :
    s.refusal f (FLT_SRC_STAT n) true 2#32 = none := by
  have hk : FLT_SRC_STAT n ≠ HUB_RST_CTRL := by
    unfold FLT_SRC_STAT HUB_RST_CTRL
    omega
  have hw0 : w32 0 = 0#32 := rfl
  simp [State.refusal, hf, blockOf_srcStat hn, regRow_srcStat hn, State.blockRight, s.fltRight_srcStat, hr, hk, hw0]

theorem State.refusal_srcStat_pf0 (s : State) {n : Nat} (hn : n < 545) : s.refusal 0 (FLT_SRC_STAT n) true 2#32 = none := by
  refine State.refusal_srcStat hn (by simp [State.fenced]) ?_
  cases causeRegion (s.rdN (FLT_FIRST_CAUSE n)) <;> rfl

theorem State.refusal_srcStat_owner {s : State} {f n t : Nat} (hn : n < 545) (ho : s.ownerOf t = f) (hf : s.fenced f = false)
    (hc : causeRegion (s.rdN (FLT_FIRST_CAUSE n)) = some t) : s.refusal f (FLT_SRC_STAT n) true 2#32 = none :=
  State.refusal_srcStat hn hf (by simp [hc, ownerOrPf0, ho])

/-! ### A condition that ends -/

/-- A condition that ends clears LIVE and leaves the occurrence latched, with its count and cause (R421). -/
theorem State.unlive_clears_live (s : State) (k : FaultKind) (d : Nat) :
    (s.unlive k d).is (FLT_SRC_STAT (srcNum k d)) FLT_SRC_STAT.LIVE = false ∧
      (s.unlive k d).is (FLT_SRC_STAT (srcNum k d)) FLT_SRC_STAT.LATCHED = s.is (FLT_SRC_STAT (srcNum k d)) FLT_SRC_STAT.LATCHED ∧
      (s.unlive k d).rdF (FLT_SRC_STAT (srcNum k d)) FLT_SRC_STAT.COUNT = s.rdF (FLT_SRC_STAT (srcNum k d)) FLT_SRC_STAT.COUNT ∧
      OnlyRegs [FLT_SRC_STAT (srcNum k d)] s (s.unlive k d) :=
  ⟨State.is_flag_same _ _ _ _ rfl (by decide), State.is_flag_ne _ _ _ _ _ (by decide) (by decide),
    State.rdF_flag_ne _ _ _ _ _ (by decide) (by decide), (OnlyRegs.refl _ s).flag (by simp) _ _⟩

/-- Settles O5: the acknowledgement is the cleared source, or that source latched again where it is live or occurs in the cycle. -/
theorem acknowledgingASource : Obligations.AcknowledgingASource := by
  intro s n
  refine ⟨fun f hc => ?_, s.unlive_clears_live, s.refusal_srcStat_pf0 n.isLt, fun f t ho hf hcause => ?_⟩
  · have run := exec_latched_carried hc
    have only : OnlyRegs (srcRegs n) s ((s.wroteNow (FLT_SRC_STAT n) 2#32).srcCleared n) :=
      State.srcCleared_onlyRegs (OnlyRegs.wroteNow _ s _ _)
    refine ⟨fun hocc hlive => ?_, fun hocc hlive => ?_, fun hocc hlat => ?_⟩
    · rw [State.acknowledge_idle (s := s.wroteNow _ _) hocc hlive] at run
      exact ⟨_, run, by simp, by simp, by simp, by simp, by simp, only⟩
    · rw [State.acknowledge_live (s := s.wroteNow _ _) hocc hlive] at run
      exact ⟨_, run, by simpa using hlive, by simp, by simp, by simp, by simp, State.hub_latchAgain _ _ _ _, State.latchAgain_onlyRegs only _ _⟩
    · rw [State.acknowledge_occurring (s := s.wroteNow _ _) hocc hlat] at run
      exact ⟨_, run, by simp, by simp, by simp, by simp, by simp, State.hub_latchAgain _ _ _ _, State.latchAgain_onlyRegs only _ _⟩
  · refine State.refusal_srcStat_owner n.isLt ho hf ?_
    rcases hcause with ⟨hl, hi⟩ | ⟨hl, hi⟩ | ⟨hl, hi⟩
    · rw [causeRegion_region hl, hi]
    · rw [causeRegion_cluster hl, hi]
    · rw [causeRegion_unit hl, hi]

/-! ### Overdue sources -/

/-- Source `n` marked overdue 1 s after its latching (R422). -/
def State.markedOverdue (s : State) (n : Nat) : State :=
  (s.advance (s.rd64 (FLT_FIRST_TS_LO n) + secTicks)).flag (FLT_SRC_STAT n) FLT_SRC_STAT.OVERDUE true

/-- A latched source of severity 1 or higher, not overdue, is marked, breaches condition 5 and raises AVAIL_COND (R422, R442). -/
theorem State.overdue_raises {s : State} {n : Nat} (hn : n ≠ srcNum .availCond 0)
    (hl : s.is (FLT_SRC_STAT n) FLT_SRC_STAT.LATCHED = true) (ho : s.is (FLT_SRC_STAT n) FLT_SRC_STAT.OVERDUE = false)
    (hs : 1 ≤ (s.occ n).sev) :
    s.overdue n = (((s.markedOverdue n).breach 5).setCause 0 causeOverdue).raisePkg .availCond n := by
  simp [State.overdue, State.markedOverdue, hn, hl, ho, hs]

theorem State.overdue_availCond {s : State} {n : Nat} (hn : n = srcNum .availCond 0) : s.overdue n = s := by
  simp [State.overdue, hn]

/-- Settles O6: the state that raises AVAIL_COND is the one with the source marked overdue, 800,000,000 ticks after its latching. -/
theorem overdueSources : Obligations.OverdueSources := by
  have run : ∀ (s : State) (n : Fin 545), exec (.overdue n) s = .next (s.overdue n) := fun _ _ => rfl
  refine fun s => ⟨fun n hn hl ho hs => ⟨s.markedOverdue n, rfl, ?_, ?_, ?_⟩, fun n hn => ?_⟩
  · exact State.is_flag_same _ _ _ _ rfl (by decide)
  · exact (OnlyRegs.refl _ _).flag (by simp) _ _
  · rw [run, State.overdue_raises hn hl ho hs]
  · rw [run, State.overdue_availCond hn]

end Sys2Proof.Machine
end
